-- ==== Sys2Proof/Word.lean ====
section
/-! DEFINITION. The byte and word types of the model (spec/00_scope.md R4, R11). -/

namespace Sys2Proof

/-- One byte. -/
abbrev Byte := BitVec 8
/-- One 64-bit register or schedule word (R11, R90). -/
abbrev Word := BitVec 64

end Sys2Proof
end

