-- ==== Sys2Proof/Syntax.lean ====
section
/-! DEFINITION. The commands of the model: one constructor of Instr per row of spec/opcode_table.json, with the row's
operands. Operands that name a unit are bounded by their type; the rest is checked in WellFormed. An operand that the
table does not fix (a packet, a message body, a measurement) is what the step meets when it happens (assumption 2). -/

namespace Sys2Proof

/-- A physical cluster site, 0 to 255 (R5). -/
abbrev Site := Fin 256
/-- A field, 0 to 15 (R5). -/
abbrev FieldN := Fin 16

/-- A core site: physical cluster site and core site 0 to 35 (R5, R39). -/
structure Core where
  site : Site
  core : Fin 36
deriving DecidableEq, Repr

/-- Predication of a schedule word: PRED and PN of Table 3-2. -/
structure Guard where
  pn : Bool
  pred : BitVec 3
deriving DecidableEq, Repr

/-- WAIT and POST of an engine word, Table 3-2. -/
structure Sync where
  waitEn : Bool
  waitSem : BitVec 6
  postEn : Bool
  postSem : BitVec 6
deriving DecidableEq, Repr

/-- The three engine queues of Table 3-1. -/
inductive EngQ where
  | cd
  | v
  | m
deriving DecidableEq, Repr

/-- The body of a schedule word: the class fields of Tables 3-10 to 3-16. -/
inductive WordBody where
  | nop
  | end_
  | br (tgt : BitVec 13)
  | loop (lc : BitVec 2) (tgt : BitVec 13)
  | lset (lc : BitVec 2) (src : Bool) (sa : BitVec 4) (imm : BitVec 20)
  | pset (pd : BitVec 3) (cmp : BitVec 3) (sa : BitVec 4) (imf : Bool) (sb : BitVec 4) (imm : BitVec 16)
  | plog (pd pa pb : BitVec 3) (op : BitVec 2)
  | salu (sd sa sb op : BitVec 4)
  | salui (sd sa op : BitVec 4) (imm : BitVec 32)
  | sli (sd : BitVec 4) (imm : BitVec 32)
  | qrd (sd : BitVec 4) (q : BitVec 3) (w : BitVec 4) (pop : Bool)
  | dadd (dd : BitVec 5) (imf : Bool) (sa : BitVec 4) (imm : BitVec 32)
  | sem (op : BitVec 2) (scope : Bool) (idx : BitVec 8) (vs : Bool) (sv : BitVec 4) (val : BitVec 16)
  | fence (kind : BitVec 2) (eng : BitVec 3)
  | route (mode : BitVec 2)
  | phase (ph : BitVec 6)
  | sleep (lvl : BitVec 2) (exp : BitVec 16)
  | mov (y : Sync) (ds dd : BitVec 5)
  | recv (y : Sync) (q : BitVec 3) (dd : BitVec 5) (drop : Bool)
  | send (y : Sync) (ds : BitVec 5) (chan : BitVec 8) (sig : Bool) (sign : BitVec 4) (sten : Bool) (sreg : BitVec 4)
  | cstArm (y : Sync) (slot : BitVec 8) (count : BitVec 12) (chan : BitVec 8)
  | cstAdd (y : Sync) (ds : BitVec 5) (clu slot : BitVec 8)
  | sld (y : Sync) (sr sa : BitVec 4) (off : BitVec 21)
  | sst (y : Sync) (sr sa : BitVec 4) (off : BitVec 21)
  | dld (y : Sync) (sr sa : BitVec 4) (dd : BitVec 5) (off : BitVec 21)
  | cube (y : Sync) (da dw dp : BitVec 5) (acc : Bool)
  | dot (y : Sync) (da dw dp : BitVec 5) (acc : Bool)
  | vop (y : Sync) (fn : BitVec 6) (da db dc dd : BitVec 5) (bs : Bool)
  | vred (y : Sync) (rfn : BitVec 4) (da : BitVec 5) (sd : BitVec 4)
  | cvt (y : Sync) (ds dd db : BitVec 5) (ben : Bool) (ss : BitVec 4) (sen : Bool) (sc : BitVec 4) (cen : Bool)
      (rnd : BitVec 2) (de : BitVec 5) (een : Bool)
  | chk (y : Sync) (cfn : BitVec 4) (da db : BitVec 5) (pd : BitVec 3) (sd : BitVec 4)
deriving DecidableEq, Repr

/-- A schedule word: its guard and its body (R99). -/
structure SWord where
  g : Guard
  b : WordBody
deriving DecidableEq, Repr

/-- A routed packet: the header of Table 6-4 and its payload bytes (R238). `ty` is TYPE of Table 6-5. `log` says that
DST_CORE is a logical core of the destination, from the channel's LOG (R573, assumption 13): it travels beside the
header. `kill` is KILL on its tail flit (R260); `crcBad` is set on the packet that a command names at its sink when the sink finds
that the CRC of one of its flits fails (R240). -/
structure Packet where
  dstSite : BitVec 8
  dstCore : BitVec 6
  srcSite : BitVec 8
  srcCore : BitVec 6
  ty : BitVec 4
  epoch : Bool
  vc : Bool
  len : BitVec 4
  tag : BitVec 8
  chan : BitVec 8
  aux : BitVec 24
  addr : BitVec 48
  log : Bool
  payload : List Byte
  kill : Bool
  crcBad : Bool
deriving DecidableEq, Repr

/-- Signal positions of a packet's flits that the receiver of a link sees inverted: the flit and its position of R236. -/
abbrev Flips := List (Fin 16 × Fin 1088)

/-- What a packet meets on its link (R236, R260): the positions that its receiver sees inverted, and whether its head flit had been
forwarded when a later flit's CRC failed. -/
structure LinkFate where
  flips : Flips
  cut : Bool
deriving DecidableEq, Repr

/-- A wire fault that a Hallway wire test finds: direction IN, bundle and signal position (R26, R33). -/
structure WireFault where
  dirIn : Bool
  bundle : Fin 34
  pos : Fin 32
deriving DecidableEq, Repr

/-- A circuit flit (R248, R252): the message's header packet with the whole payload, its number within the message, whose value
modulo 256 is its CSEQ, and whether it is the message's last flit. -/
structure CircFlit where
  num : Nat
  last : Bool
  pkt : Packet
deriving DecidableEq, Repr

/-- A circuit flit with the positions that its receiver sees inverted (R236, R237). -/
structure CircMet where
  f : CircFlit
  flips : List (Fin 1088)
deriving DecidableEq, Repr

/-- A sector that a patrol scrub of HBM reads: its number, how many of its symbols are in error (2: two or more), and whether the
stack's on-die ECC reports it uncorrectable (R309, R311). -/
structure SectorMet where
  sector : Nat
  bad : Fin 3
  onDie : Bool
deriving DecidableEq, Repr

/-- A burst that a patrol scrub of the Cellar reads, and how many devices are in error in it (2: two or more) (R328). -/
structure BurstMet where
  burst : Nat
  bad : Fin 3
deriving DecidableEq, Repr

/-- A half of a slice that is in CSM: its face and stage buffer (R320). -/
structure HalfDone where
  face : Fin 2
  buf : BitVec 4
deriving DecidableEq, Repr

/-- A soft post-package repair of a Cellar channel: whether its device has a resource left for the row (R329). -/
structure SoftRepair where
  ch : Fin 12
  room : Bool
deriving DecidableEq, Repr

/-- A UCIe module that failed, and the sequence numbers of its flits that the host had not received (R336). -/
structure ModuleLoss where
  m : Fin 4
  undelivered : List (BitVec 16)
deriving DecidableEq, Repr

/-- How an occurrence was met: by Skink's content (R588), and, for a parity error, in an activation buffer (Table 2-14). -/
structure MetBy where
  skink : Bool
  abuf : Bool
deriving DecidableEq, Repr

/-- A Sill request header with its data (Table 9-4). -/
structure SillReq where
  ty : BitVec 4
  rsv : BitVec 4
  tag : BitVec 10
  len : BitVec 6
  status : BitVec 4
  rsv2 : BitVec 44
  addr : BitVec 56
  data : List Byte
deriving DecidableEq, Repr

/-- A Sill flit as it arrives (R338): the module, whether its CRC is good, and its 15 slots of 16 B, slot 0 the flit header. -/
structure SillFlit where
  module : Fin 4
  crcOk : Bool
  slots : List (BitVec 128)
deriving DecidableEq, Repr

/-- A control item of a link (Table 10-2). -/
inductive LinkItem where
  | none
  | ack (nak : Bool) (bsn : BitVec 10) (credits : BitVec 16)
  | beat (role : BitVec 8) (echo : Bool) (sync : BitVec 8) (term : BitVec 32) (num : BitVec 32) (ans : BitVec 32)
      (power : BitVec 32) (nt : BitVec 64) (imageRole : BitVec 8)
  | mack (mseq : BitVec 64)
  | lane (grant : Bool) (pos : BitVec 8) (phys : BitVec 8) (bsn : BitVec 16)
  | sleep
  | resync (op : BitVec 8) (term : BitVec 32)
  | reserved
deriving DecidableEq, Repr

/-- One cell of a link block (R382): DATA carries the 1,024 data bits of a flit (R384), CTRL four items (R385). -/
inductive LinkCell where
  | idle
  | data (body : BitVec 1024)
  | ctrl (items : List LinkItem)
  | reserved
deriving DecidableEq, Repr

/-- A codeword of a link as it arrives (R380 to R382): its 5,140 message bits, and which of its 544 symbols are in error. -/
structure LinkBlk where
  errs : List (Fin 544)
  msg : BitVec 5140
deriving DecidableEq, Repr

/-- What one estimation tick measures of a cluster (R447, R469): the four sensor readings in degrees, and the LDO's output current
in 0.1 A. -/
structure CluMeas where
  site : Site
  temps : List Nat
  iout : BitVec 8
deriving DecidableEq, Repr

/-- What one edge block counted in a tick, in the order of Table 12-2, and its power domain (R449). -/
structure EdgeMeas where
  dom : Fin 312
  counts : List Nat
deriving DecidableEq, Repr

/-- One tick's measurements: per cluster, per edge block, the fabric-domain currents (0.1 A),
and the power (0.1 W) that ballast source 1 and that sources 2 and 3 reach (R464). -/
structure TickMeas where
  clusters : List CluMeas
  edges : List EdgeMeas
  fabLoads : List (BitVec 8)
  skinkReach : Nat
  ballastReach : Nat
  idleReach : Nat
deriving DecidableEq, Repr

/-- A PTP time stamp message's fields that the servo uses (R510, R512), times in ns. -/
structure PtpMsg where
  domain : BitVec 8
  source : BitVec 64
  seq : BitVec 16
  twoStep : Bool
  origin : Nat
  received : Nat
  correction : Int
  logInterval : Int
  udp : Bool
  supported : Bool
deriving DecidableEq, Repr

/-- A PTP Announce (R510): the dataset fields in the standard's order of comparison. -/
structure PtpAnnounce where
  domain : BitVec 8
  source : BitVec 64
  priority1 : BitVec 8
  clockClass : BitVec 8
  accuracy : BitVec 8
  variance : BitVec 16
  priority2 : BitVec 8
  identity : BitVec 64
  steps : BitVec 16
  logInterval : Int
  udp : Bool
  supported : Bool
deriving DecidableEq, Repr

/-- A register value that an image section loads, by global address (Tables 16-2 to 16-5). -/
structure RegLoad where
  addr : BitVec 48
  value : Word
deriving DecidableEq, Repr

/-- Bytes that an image section or a copy places at a global address. -/
structure MemLoad where
  addr : BitVec 48
  bytes : List Byte
deriving DecidableEq, Repr

/-- An extent of a WEIGHT_MAP section (Table 16-5): Cellar address, destination, length, and the digest of a flagged one. -/
structure WeightExt where
  src : BitVec 48
  dst : BitVec 48
  len : Nat
  digest : Option (BitVec 256)
deriving DecidableEq, Repr

/-- What a table section loads: table code of TRN (0, 1), FAB (2 route A, 3 route B, 4 circuit, 5 map A, 6 map B),
HBM descriptors (7), initial model coefficients (8: unit the logical
cluster, index the phase), the unit, the index and the entry. -/
structure TblLoad where
  table : Nat
  unit : Nat
  index : Nat
  entry : BitVec 64
deriving DecidableEq, Repr

/-- What the model does not compute of the checks of a copy (R530; assumption 142): whether its flash reads succeed, and whether the
signatures of the owner certificate and of the manifest verify. -/
structure CopyCheck where
  readOk : Bool
  certOk : Bool
  sigOk : Bool
deriving DecidableEq, Repr

/-- What the sections of a copy of a Floman image hold that the command loads (Table 16-5), as the loads they make: the base
sections, or the variant sections of a lost field (R545). The manual gives their bytes no layout (assumption 142). `maxPk` is MAX_PK of
the TRN section, `hbmRate` is 0 for 8.0 Gb/s and 1 for 6.4 Gb/s (R303), `celRate` and `uciRate` are the rates of POLICY as
CEL_STATUS.SPEED and UCI_STATUS.RATE code them (R325, R335). Of the ESTIMATOR section, `evWeights` holds a weight in 0.1 nJ for each
event of a cluster (R448), `leakTbl` the leakage in mW by LDO setpoint and by 4 °C step, and `leakRet` the retention leakage by 4 °C
step (R449). `adapter` holds the initial copies of the draft adapter, master and cube, each at its place (R224). -/
structure Image where
  guestN : BitVec 8
  maxPk : BitVec 8
  hbmRate : Fin 2
  celRate : Fin 3
  uciRate : Fin 3
  draftModel : Bool
  fenceStrict : Bool
  kvBytes : Nat
  preferred : List Site
  caps : List (BitVec 12)
  curtLevel : BitVec 16
  curtDesc : BitVec 10
  campus : BitVec 16
  floor : BitVec 6
  regs : List RegLoad
  mems : List MemLoad
  tables : List TblLoad
  autorun : List (Fin 256 × Fin 32)
  evWeights : List Nat
  leakTbl : List (List Nat)
  leakRet : List Nat
  adapter : List MemLoad
  weights : List WeightExt
deriving DecidableEq, Repr

/-- The two copies that a start path may read: their sections, and what their checks find. -/
structure Images where
  a : Image
  b : Image
  checkA : CopyCheck
  checkB : CopyCheck
deriving DecidableEq, Repr

/-- What BIST finds on a cluster site (R535), in the units of a factory record, its core routers too (R230), and the code that the
ageing monitor of each core measures (R586). -/
structure SiteTest where
  site : Site
  siteBad : Bool
  ldoBad : Bool
  coreBad : BitVec 36
  routerBad : BitVec 36
  meas : List (BitVec 6)
deriving DecidableEq, Repr

/-- The results of a start path's tests and training (Table 16-6). A site without an entry is tested good. `routerBad` names sites
whose router BIST finds bad; `fuseBad` names the fuse regions whose primary copy fails its check bits (R534): 0 to 255 the factory
record of a site, 256 to 262 a run of 64 update records; `phases` lists the good phases of the fields' rails. -/
structure StartTest where
  sites : List SiteTest
  routerBad : List Site
  hallwayBad : List (FieldN × Fin 8)
  hallwayWires : List (FieldN × Fin 8 × WireFault)
  hbmBadCh : List (Fin 16 × Fin 32)
  celOk : List (Fin 12)
  celSize : BitVec 8
  uciModules : List (Fin 4)
  uciRepaired : List (BitVec 4)
  linksUp : List (Fin 48 × BitVec 18)
  pll0Ok : List FieldN
  fuseBad : List (Fin 263)
  phases : List (BitVec 5)
  capSel : Fin 8
deriving DecidableEq, Repr

/-- What a Skink visit found on a unit (R590, R592): each item's first failures and reruns. -/
inductive VisitResult where
  | pass
  /-- a pass failed and all three reruns passed -/
  | unconfirmed
  /-- a rerun failed too; whether only the cube item fails -/
  | confirmed (cubeOnly : Bool)
deriving DecidableEq, Repr

/-- The unit a Skink visit tests (R590). -/
inductive SkinkUnit where
  | core (c : Core)
  | cluster (site : Site)
  | ldo (site : Site)
  | router (site : Site)
deriving DecidableEq, Repr

/-- A data word on which a scrub made a correction or found it uncorrectable (R594), by physical global address; for a word of
CSM, whose banks the manual does not give, `spareRow` says whether its bank has a spare row left. -/
structure ScrubHit where
  addr : BitVec 48
  uncorrectable : Bool
  spareRow : Bool
deriving DecidableEq, Repr

/-- A visit of one unit by a TEST (R595): what it found, the passes that passed, the ageing monitor's code, and what the scrub
met. -/
structure UnitVisit where
  unit : SkinkUnit
  result : VisitResult
  passes : Nat
  ageCode : BitVec 6
  hits : List ScrubHit
deriving DecidableEq, Repr

/-- What makes an LDO fail (R434). -/
inductive LdoCause where
  | low
  | high
  | overCurrent
deriving DecidableEq, Repr

/-- The commands: one constructor per row of spec/opcode_table.json, in the table's order. -/
inductive Instr where
  | registerWrite (addr : BitVec 48) (eight : Bool) (v : Word)
  | rcRegisterRead (addr : BitVec 48) (eight : Bool)
  | fabricPgFall (f : FieldN)
  | fabricPgRise (f : FieldN)
  | hallwayWireTest (f : FieldN) (h : Fin 8)
  | wireTestEnd (f : FieldN) (h : Fin 8) (found : List WireFault)
  | apply (f : FieldN) (h : Fin 8)
  | hwTest (f : FieldN) (h : Fin 8)
  | quiesce (f : FieldN) (h : Fin 8) (v : Bool)
  | hold (f : FieldN) (h : Fin 8) (v : Bool)
  | run (c : Core)
  | halt (c : Core)
  | step (c : Core)
  | cubeRetired (c : Core) (v : Bool)
  | nop (c : Core) (g : Guard)
  | end_ (c : Core) (g : Guard)
  | br (c : Core) (g : Guard) (tgt : BitVec 13)
  | loop (c : Core) (g : Guard) (lc : BitVec 2) (tgt : BitVec 13)
  | lset (c : Core) (g : Guard) (lc : BitVec 2) (src : Bool) (sa : BitVec 4) (imm : BitVec 20)
  | pset (c : Core) (g : Guard) (pd cmp : BitVec 3) (sa : BitVec 4) (imf : Bool) (sb : BitVec 4) (imm : BitVec 16)
  | plog (c : Core) (g : Guard) (pd pa pb : BitVec 3) (op : BitVec 2)
  | salu (c : Core) (g : Guard) (sd sa sb op : BitVec 4)
  | salui (c : Core) (g : Guard) (sd sa op : BitVec 4) (imm : BitVec 32)
  | sli (c : Core) (g : Guard) (sd : BitVec 4) (imm : BitVec 32)
  | qrd (c : Core) (g : Guard) (sd : BitVec 4) (q : BitVec 3) (w : BitVec 4) (pop : Bool)
  | dadd (c : Core) (g : Guard) (dd : BitVec 5) (imf : Bool) (sa : BitVec 4) (imm : BitVec 32)
  | semWait (c : Core) (g : Guard) (scope : Bool) (idx : BitVec 8) (vs : Bool) (sv : BitVec 4) (val : BitVec 16)
  | semAdd (c : Core) (g : Guard) (scope : Bool) (idx : BitVec 8) (vs : Bool) (sv : BitVec 4) (val : BitVec 16)
  | semSub (c : Core) (g : Guard) (scope : Bool) (idx : BitVec 8) (vs : Bool) (sv : BitVec 4) (val : BitVec 16)
  | fenceLocal (c : Core) (g : Guard) (eng : BitVec 3)
  | fenceOutbound (c : Core) (g : Guard) (eng : BitVec 3)
  | fenceFull (c : Core) (g : Guard) (eng : BitVec 3)
  | route (c : Core) (g : Guard) (mode : BitVec 2)
  | phase (c : Core) (g : Guard) (ph : BitVec 6)
  | sleep (c : Core) (g : Guard) (lvl : BitVec 2) (exp : BitVec 16)
  | mov (c : Core) (g : Guard) (y : Sync) (ds dd : BitVec 5)
  | recv (c : Core) (g : Guard) (y : Sync) (q : BitVec 3) (dd : BitVec 5) (drop : Bool)
  | send (c : Core) (g : Guard) (y : Sync) (ds : BitVec 5) (chan : BitVec 8) (sig : Bool) (sign : BitVec 4)
      (sten : Bool) (sreg : BitVec 4)
  | cstArm (c : Core) (g : Guard) (y : Sync) (slot : BitVec 8) (count : BitVec 12) (chan : BitVec 8)
  | cstAdd (c : Core) (g : Guard) (y : Sync) (ds : BitVec 5) (clu slot : BitVec 8)
  | sld (c : Core) (g : Guard) (y : Sync) (sr sa : BitVec 4) (off : BitVec 21)
  | sst (c : Core) (g : Guard) (y : Sync) (sr sa : BitVec 4) (off : BitVec 21)
  | dld (c : Core) (g : Guard) (y : Sync) (sr sa : BitVec 4) (dd : BitVec 5) (off : BitVec 21)
  | cube (c : Core) (g : Guard) (y : Sync) (da dw dp : BitVec 5) (acc : Bool)
  | dot (c : Core) (g : Guard) (y : Sync) (da dw dp : BitVec 5) (acc : Bool)
  | vop (c : Core) (g : Guard) (y : Sync) (fn : BitVec 6) (da db dc dd : BitVec 5) (bs : Bool)
  | vred (c : Core) (g : Guard) (y : Sync) (rfn : BitVec 4) (da : BitVec 5) (sd : BitVec 4)
  | cvt (c : Core) (g : Guard) (y : Sync) (ds dd db : BitVec 5) (ben : Bool) (ss : BitVec 4) (sen : Bool)
      (sc : BitVec 4) (cen : Bool) (rnd : BitVec 2) (de : BitVec 5) (een : Bool)
  | chk (c : Core) (g : Guard) (y : Sync) (cfn : BitVec 4) (da db : BitVec 5) (pd : BitVec 3) (sd : BitVec 4)
  | issueResume (c : Core)
  | engineWordStart (c : Core) (q : EngQ)
  | engineWordComplete (c : Core) (q : EngQ)
  | routeRequest (site : Site) (body : List Byte)
  | predictRequest (site : Site) (body : List Byte)
  | predictRecord (body : List Byte)
  | routeRecord (body : List Byte)
  | skipRecord (body : List Byte)
  | trnHoldExpiry (layer : BitVec 8) (token : BitVec 64) (expert : BitVec 8)
  | slotWaitEnd (expert : Fin 16384)
  | trnSlotWait
  | trnTblData (v : BitVec 32)
  | select (site : Site) (body : List Byte)
  | update (site : Site) (body : List Byte)
  | rollback (site : Site) (body : List Byte)
  | draft (site : Site) (body : List Byte)
  | norm (site : Site) (body : List Byte)
  | mass (site : Site) (body : List Byte)
  | token (site : Site) (body : List Byte)
  | asuTimeout (site : Site)
  | cluAsuState (site : Site) (v : Word)
  | thrMax (site : Site) (v : BitVec 6)
  | zskPinned (site : Site)
  | packetForward (site : Site) (port : Fin 7) (p : Packet) (fate : LinkFate)
  | linkPauseEnd (site : Site) (port : Fin 7)
  | circuitFlit (site : Site) (port : Fin 7) (slot : Fin 8) (f : CircMet)
  | tagFree (site : Site) (port : Fin 7)
  | write (p : Packet)
  | writeAck (p : Packet)
  | readReq (p : Packet)
  | readResp (p : Packet)
  | msg (p : Packet)
  | ack (p : Packet)
  | testPacket (p : Packet)
  | fabTimeout (site : Site) (port : Fin 7) (tag : BitVec 8)
  | vcStall (site : Site) (port : Fin 7)
  | fabCtrl (site : Site) (v : Word)
  | fabTblData (site : Site) (v : BitVec 32)
  | teardownDone (site : Site) (idx : Fin 56)
  | drainStart (site : Site)
  | drainWaveReturn (root : Site)
  | drainGapExpiry (root : Site)
  | retireWaveReturn (root : Site)
  | drainWaveTimeout (root : Site)
  | cluMeshCtrl (site : Site) (order : Bool)
  | cisternRearm (site : Site) (slot : BitVec 8)
  | creditMessage (p : Packet)
  | creditRequest (p : Packet)
  | creditWaitTimer (c : Core)
  | ringWaitEnd (site : Site) (ring : Fin 32)
  | ringWaitTimeout (site : Site) (ring : Fin 32)
  | queueReset (c : Core) (q : Fin 8)
  | queueClose (c : Core) (q : Fin 8)
  | clusterRingReset (site : Site) (ring : Fin 32)
  | clusterRingClose (site : Site) (ring : Fin 32)
  | pop (site : Site) (ring : Fin 32)
  | waitTmo (c : Core) (waiter : Option EngQ)
  | freqFallDeadline (site : Site)
  | hbmRefresh (h : Fin 16) (ch : Fin 32) (bank : Nat) (temp : BitVec 8)
  | hbmScrub (h : Fin 16) (x : SectorMet)
  | maintenanceStep (h : Fin 16) (ch : Fin 32)
  | hbmSpareStart (h : Fin 16) (lch : BitVec 5) (share : BitVec 3)
  | spareCopyDone (h : Fin 16)
  | hbmOffline (h : Fin 16) (v : Bool)
  | hbmRetrain (h : Fin 16)
  | hbmRetrainDone (h : Fin 16)
  | streamRequest (h : Fin 16) (desc : BitVec 14) (slot : BitVec 6)
  | streamStart (h : Fin 16)
  | streamFaceDone (h : Fin 16) (half : HalfDone)
  | hbmStgFree (h : Fin 16) (face : Fin 2) (buf : BitVec 4)
  | hbmStgWait (h : Fin 16)
  | hbmFaceOut (h : Fin 16) (face : Fin 2)
  | celScrub (ch : Fin 12) (x : BurstMet)
  | celSoftPpr (q : SoftRepair)
  | celChFail (ch : Fin 12)
  | hppr (ch : Fin 12)
  | celOffline (ch : Fin 12) (v : Bool)
  | celRetrain (ch : Fin 12)
  | sillFlit (f : SillFlit)
  | wr (r : SillReq)
  | rd (r : SillReq)
  | cpl (r : SillReq) (data : List Byte)
  | cple (r : SillReq) (status : BitVec 4)
  | hostReadTimeout (tag : BitVec 10)
  | wake
  | warmReset (img : Images) (t : StartTest)
  | sidebandRegisterAccess (write : Bool) (addr : BitVec 48) (eight : Bool) (v : Word)
  | uciModuleDown (x : ModuleLoss)
  | uciRetrain (m : Fin 4)
  | uciDisable (m : Fin 4) (v : Bool)
  | commandEntryExamine
  | commandAccept
  | commandStart (seq : BitVec 64)
  | commandDeadline (seq : BitVec 64)
  | cmdNop (seq : BitVec 64)
  | sessionOpen (seq : BitVec 64)
  | sessionClose (seq : BitVec 64)
  | prefill (seq : BitVec 64)
  | decode (seq : BitVec 64)
  | cancel (seq : BitVec 64)
  | snapshot (seq : BitVec 64)
  | restore (seq : BitVec 64)
  | copy (seq : BitVec 64)
  | regionReload (seq : BitVec 64) (img : Image) (check : CopyCheck) (drainStatus : BitVec 3)
  | test (seq : BitVec 64) (cores clusters ldos : List UnitVisit)
  | powerPref (seq : BitVec 64)
  | stepPermit
  | stepRecord (body : List Byte)
  | tokenRecord
  | ringReset
  | en (v : Bool)
  | pause (v : Bool)
  | cmdHringHead (ring : Fin 3) (v : Word)
  | hostRingReset (ring : Fin 3)
  | jnlMirrorLag
  | linkBlock (l : Fin 48) (b : LinkBlk)
  | ackItem (l : Fin 48) (nak : Bool) (bsn : BitVec 10) (credits : BitVec 16)
  | nakResendTimer (l : Fin 48)
  | ackSendTimer (l : Fin 48)
  | fastRetrain (l : Fin 48)
  | fastRetrainEnd (l : Fin 48) (ok : Bool) (goodLanes : BitVec 18)
  | linkRetrain (l : Fin 48)
  | laneSwap (l : Fin 48) (pos : Fin 8)
  | laneRequest (l : Fin 48) (pos : Fin 8) (phys : Fin 9)
  | laneGrant (l : Fin 48) (pos : Fin 8) (phys : Fin 9) (bsn : BitVec 10)
  | laneRetrainDone (l : Fin 48) (lane : Fin 9) (good : Bool)
  | retrainLane (l : Fin 48) (lane : BitVec 4)
  | spanForward (l : Fin 48) (p : Packet)
  | linkSleep (l : Fin 48)
  | wakePattern (quad : Fin 12)
  | wakePatternRepeat (l : Fin 48)
  | spuriousWake (quad : Fin 12)
  | beat (l : Fin 48) (item : LinkItem)
  | beatTimer
  | hbtInPulse (width : Nat)
  | ageCheck
  | joinWaitExpiry
  | mlinkTmo
  | mack (l : Fin 48) (mseq : BitVec 64)
  | mirrorWrite (mseq : BitVec 64) (addr : BitVec 48) (data : List Byte)
  | mirrorJournal (mseq : BitVec 64) (entry : List Byte)
  | mirrorStep (mseq : BitVec 64) (session : Fin 16) (body : List Byte)
  | mirrorSession (mseq : BitVec 64) (session : Fin 16) (body : List Byte)
  | mirrorCommand (mseq : BitVec 64) (session : Fin 16) (body : List Byte)
  | mseqGap
  | resyncRequest (l : Fin 48) (term : BitVec 32)
  | resyncStart (l : Fin 48) (term : BitVec 32)
  | resyncDone (l : Fin 48) (term : BitVec 32)
  | resyncNoStart
  | pairFence
  | join
  | solo
  | railLoss (rail : Fin 20)
  | fieldLoss (f : FieldN)
  | avsStatusAlert (f : FieldN) (answered : Bool)
  | phaseStatusRead (f : FieldN) (answered : Bool) (good : BitVec 5)
  | fscFrame (f : FieldN) (vmin : BitVec 10) (ifwd : BitVec 4) (received crcOk : Bool)
  | ldoFail (site : Site) (cause : LdoCause)
  | fabldoFail (f : FieldN) (ldo1 : Bool)
  | powerUpRequest (f : FieldN) (row col : Fin 4)
  | throttleEnd (f : FieldN)
  | estimationTick (m : TickMeas)
  | rampSlot
  | fieldGainUpdate (f : FieldN) (milliamps : BitVec 20) (answered : Bool)
  | capSelStable (v : Fin 8)
  | swCap (v : BitVec 16)
  | curtailAssert
  | curtailRelease
  | curtailPersist
  | floorShort
  | pwrInfeasible (rank : Fin 8)
  | activityRamp (f : FieldN) (k : Fin 16)
  | thermtrip (f : FieldN)
  | target (v : BitVec 3)
  | domainEntry (dom : Fin 312) (level : Fin 4)
  | domainEntryComplete (dom : Fin 312)
  | domainExit (dom : Fin 312)
  | firstAccess (dom : Fin 312)
  | wakeN
  | wakeAlarm
  | wakeFail (dom : Fin 312)
  | wakeSlow
  | wakePinStuck
  | pllFail (f : FieldN) (pll1 : Bool)
  | refLoss
  | refclkRestore
  | oscTrim
  | beacon
  | tbLost (f : FieldN)
  | droop (c : Core) (cycles : Nat)
  | clkFail (c : Core)
  | sync (m : PtpMsg)
  | followUp (m : PtpMsg)
  | delayResp (m : PtpMsg)
  | announce (m : PtpAnnounce)
  | delayReq (t3 : Nat)
  | sourceLoss
  | ppsInEdge
  | ppsInvalid
  | ppsOut
  | timNt
  | coldStart (img : Images) (t : StartTest)
  | bsqWarm (img : Images) (t : StartTest)
  | fieldLossRestart (img : Images) (t : StartTest)
  | resetN (low : Bool)
  | railQualified
  | commit
  | attGo
  | nvmRead (dev : Bool) (addr : BitVec 32)
  | nvmProgram (dev : Bool) (addr : BitVec 32)
  | nvmErase (dev : Bool) (addr : BitVec 32)
  | nvmTimeout
  | eventOccurrence (unit : BitVec 24) (cls : Fin 32) (cause : Fin 6) (detail : BitVec 32) (by_ : MetBy)
  | eventMessage (unit : BitVec 24) (seq : BitVec 8)
  | eventRetry (unit : BitVec 24) (seq : BitVec 8)
  | evtAck (unit : BitVec 24) (cls : Fin 32)
  | ackAll (unit : BitVec 24)
  | swapRequest (cluster : Bool) (lclu : BitVec 8) (lcore : BitVec 5) (nofuse : Bool)
  | liveSwapPrecopy (rewritten : List MemLoad)
  | windowOpen (sectionsOk : Bool)
  | haltWaitExpiry
  | fuseUpdate
  | cluRedirect (site : Site)
  | skinkVisit (u : SkinkUnit) (r : VisitResult) (passes : Nat) (ageCode : BitVec 6) (hits : List ScrubHit)
  | skinkYield (ns : Nat) (late : Bool)
  | cadenceMiss (c : Core)
  | observationVisit (c : Core) (r : VisitResult) (passes : Nat)
  | i3cPrivateWrite (data : List Byte)
  | i3cPrivateRead
  | i3cSclTimeout
  | entdaa (addr : BitVec 7)
  | setdasa (static addr : BitVec 7)
  | rstdaa
  | enec (events : BitVec 8)
  | disec (events : BitVec 8)
  | getpid
  | getbcr
  | getdcr
  | getstatus
  | getmrl
  | setmrl (v : BitVec 16)
  | getmwl
  | setmwl (v : BitVec 16)
  | channelEntryWrite (cluster : Bool) (c : Core) (chan : BitVec 8) (v : Word)
  | ringResetDone
  | celRetrainDone (ch : Fin 12)
  | nvmOpDone
  | svnCommitDone (took : Word × Word)
  | attReportDone (sig : List Byte)
  | mackInterval
  | rampWindow (f : FieldN)
deriving DecidableEq, Repr

end Sys2Proof
end

