-- ==== Sys2Proof/Decode.lean ====
section
/-! DEFINITION. The command that a word spells by the bits of spec/opcode_table.json. -/

namespace Sys2Proof

/-- No row of spec/opcode_table.json gives a word's bits: a command is an event with operands, not an encoded word, so no
word spells one. (The encoding of the schedule words, which core memory holds, is in Sys2Proof/Machine/Words.lean.) -/
def decodeTableWord (_nbits _w : Nat) : Option Instr := none

end Sys2Proof
end

