-- ==== Sys2Proof/Config.lean ====
section
/-! DEFINITION. What the manual leaves open: constants without a body, so that nothing can be proved of their values.
Each is named in a log entry (assumption 3). A use applies it to the operands the open value may depend on, or to the
state's counter `fresh`, which the use advances. -/

namespace Sys2Proof.Config

/-- An open 64-bit value, by the counter `fresh` of the state (assumption 3). -/
opaque freeWord : Nat → BitVec 64

/-- Which of the results within its error bound a special function of R60 gives (function code of Table 3-13, format code of
Table 3-5, operand) (assumption 5). -/
opaque specialBits (fn fmt a : Nat) : Nat

/-- Which of INVALID and DIVZERO a special function of R60 raises where its result is a limit value: the manual does not say
(assumption 5). -/
opaque specialFlags (fn fmt a : Nat) : Nat

/-- Whether FMA of 0, infinity and a quiet NaN raises INVALID, which IEEE 754-2019 leaves open (assumption 6). -/
opaque fmaInvalid (a b c : Nat) : Bool

/-- The I32 that CPY writes for a value without an I32 (R59; IEEE 754-2019 gives no result) (assumption 6). -/
opaque cpyIntInvalid (fmt a : Nat) : Nat

/-- Which of the binary32 values within the accuracy of R60 a routing weight of R190 is: NORM, the scores of the position, the
chosen experts and the index of the chosen expert (assumption 7). -/
opaque routeWeight (norm : Nat) (scores chosen : List Nat) (i : Nat) : Nat

/-- Which of the binary32 values within its error bound a probability of the sampling unit is (R215): what is asked, and the
inputs it depends on (assumption 8). -/
opaque asuProb (what : Nat) (inputs : List Nat) : Nat

/-- A pseudo-random value of the sampling unit where the manual does not fix it (assumption 8). -/
opaque asuPick (inputs : List Nat) : Nat

/-- The score of a summary block (R207) where a NaN key or query leaves it open (assumption 9). -/
opaque selectScore (inputs : List Nat) : Int

/-- A sample of the servo or a filter output that the manual bounds but does not fix (assumption 10). -/
opaque servoChoice (what : Nat) (inputs : List Int) : Int

/-- The power split and the choices that the power controller is free to make within its rules (assumption 11). -/
opaque powerChoice (what : Nat) (inputs : List Nat) : Nat

/-- What a throttle of a field saves in mA at a tick, by the estimator (R442, R443): the manual gives no formula (assumption 121).
-/
opaque throttleSaving (field tick : Nat) : Nat

/-- The estimated power in mW of a domain that a device wake admits (R484): the manual gives no figures (assumption 122). -/
opaque wakePower (dom : Nat) : Nat

/-- Bytes of an attestation report or signature that depend on keys outside the manual (assumption 12). -/
opaque keyBytes (what : Nat) (inputs : List Nat) : List (BitVec 8)

/-- The 4-bit element that a move out of the activation buffer writes for a byte that is no widened code
(assumption 17). -/
opaque abufNarrow (fmt byte : Nat) : Nat

/-- CCHK of Table 6-3: the five check bits of the SECDED code over sideband bits [31:21], whose matrix the manual does not give
(assumption 102). -/
opaque sidebandCheck (bits : Nat) : Nat

/-- The estimate of an edge block in mW (R449, Table 12-2): its power domain, the domain's state, and what it counted in the tick.
The manual names what it is estimated from and no weights (assumption 20). -/
opaque edgeEstimate (dom level : Nat) (counts : List Nat) : Nat

/-- A cluster's full compute power in mW, four fifths of which ballast may reach (R464): the manual gives no value (assumption 11). -/
opaque fullPower (site : Nat) : Nat

/-- The fixed term in mW, for the Porch, time, boot and security domains (R449): the manual gives no value (assumption 20). -/
opaque fixedPower : Nat

/-- The row of a Cellar channel that holds a channel address: the manual gives no row size (assumption 23). -/
opaque celRow (addr : Nat) : Nat

end Sys2Proof.Config
end

