-- ==== Sys2Proof/Machine/State.lean ====
section
/-! DEFINITION. The state of the block as plain data, the reasons a step can stop, and the state after reset. Sparse
data is a list of (key, value) pairs in one canonical form: keys strictly rising, no value equal to the default that an
unlisted key reads as. -/

namespace Sys2Proof.Machine

/-- Sparse data by key: keys strictly rise, and no listed value is the default. -/
abbrev SMap (β : Type) := List (Nat × β)

/-- The results that a started engine word writes when it completes (R97, R138, assumption 18): bytes as (space, address, bytes),
scalars, predicates and descriptors; the flags it raises (R168); for a CUBE or DOT word the k-steps left out (R182), the check mode
with its checked blocks and mismatches (R54), whether its check did not happen (R57), and the estimator's events as (index, count)
(R448); and of a MOV or RECV to a global destination the writes to send, as epoch, runs and bytes. -/
structure WordRes where
  mem : List (Nat × Nat × List Byte)
  scal : List (Nat × Nat)
  pred : List (Nat × Bool)
  desc : List (Nat × Nat × Nat)
  flags : Nat
  skipped : Nat
  chk : Option (Nat × Nat × Nat)
  unchecked : Bool
  evs : List (Nat × Nat)
  out : Option (Nat × List (Nat × Nat) × List Byte)
deriving DecidableEq, Repr

/-- No result. -/
def WordRes.none : WordRes := ⟨[], [], [], [], 0, 0, Option.none, false, [], Option.none⟩

/-- An engine word in its queue (R91, R92): its sequence number of issue, its PC, its body, the descriptors and scalars
it captured, the epoch mode in force (R133), whether it has started, for a global source the bytes read so far and
the reads still outstanding, and the results that it writes when it completes. -/
structure QWord where
  seq : Nat
  pc : Nat
  body : WordBody
  ds : List Nat
  ss : List Nat
  mode : Nat
  started : Bool
  buf : List Byte
  left : Nat
  res : WordRes
deriving DecidableEq, Repr

/-- A committed message in a core queue (R278): the queue, the bytes, and the sender's site, core and channel. -/
structure QMsg where
  q : Nat
  body : List Byte
  site : Nat
  core : Nat
  chan : Nat
deriving DecidableEq, Repr

/-- An entry of a core queue's credit table (R272). -/
structure CredEnt where
  q : Nat
  site : Nat
  core : Nat
  chan : Nat
  freed : Nat
deriving DecidableEq, Repr

/-- What a core holds beside its registers and memories. `held` is the word whose issue is held (R93, R98), with
whether a STEP issued it; `halting` is 0, 1 when issue ended (END, SLEEP 3, STEP) or 2 after HALT, waiting for queued
words (R136, R141); `qhead` is the entry index of each queue's head (R278). -/
structure CoreS where
  cd : List QWord
  v : List QWord
  m : List QWord
  nextSeq : Nat
  held : Option (SWord × Bool)
  halting : Nat
  qs : List QMsg
  qhead : List Nat
  creds : List CredEnt
  sleepHint : Nat
deriving DecidableEq, Repr

/-- Where a message is assembled or its bytes counted (Table 7-2, R277): at an edge unit, in the landing buffer of a gateway, in the
port staging of a core, or in the byte-count table of a core or a cluster. -/
inductive AsmAt where
  | edge
  | gateway
  | port (core : Nat)
  | coreBytes (core : Nat)
  | cluBytes
deriving DecidableEq, Repr

/-- A message being assembled or counted at a landing (R274, R277): where it lands, who sends it and its tag, the bytes
received (for an ABUF or MEM landing only their number counts), the status with which it is being discarded, where it is
assembled, and the room kept there for it. -/
structure Asm where
  dstSite : Nat
  dstCore : Nat
  srcSite : Nat
  srcCore : Nat
  tag : Nat
  got : Nat
  bytes : List Byte
  bad : Option Nat
  place : AsmAt
  need : Nat
deriving DecidableEq, Repr

/-- A whole message at a landing that waits: for ring space (R287), for a unit (R173), or for a Cistern re-arm
(R292). `first` is the message's last packet, from which the ACK and the signal come. -/
structure WaitMsg where
  pkt : Packet
  circ : Bool
  body : List Byte
deriving DecidableEq, Repr

/-- A sampling step in progress (R213 to R219). Records are kept as received, by OP and slice. `phase` is 0 collecting,
1 waiting for MASS, 2 waiting for TOKEN; `acc` is the accepted prefix, `resid` the residual flag sent. -/
structure AsuStep where
  active : Bool
  step : Nat
  token : Nat
  p : Nat
  draft : Option (List Byte)
  norms : List (Nat × List Byte)
  masses : List (Nat × Nat)
  phase : Nat
  acc : Nat
  resid : Bool
deriving DecidableEq, Repr

/-- What a cluster holds beside its registers and CSM: messages waiting at rings, units and Cistern slots, slots being read out,
messages of the cluster table that wait for credit as (channel, bytes) (R272), the sampling step, the run of pinned ticks (R186),
corrected CSM words modulo 1,024 (R556), the phase, a pending frequency fall (R299), and since the last tick the elements
broadcast with the sums of R184 over 2^140, the estimator's events by index (R448), when its cores last took a cube k-step or a dot group (R463), and whether it has been in
one phase at full duty since the tick (R462). The save array of R486 is no field: in D3
the saved set stands in the registers it was copied from (assumption 33). -/
structure CluS where
  ringWait : List (Nat × WaitMsg)
  unitQ : List (Nat × WaitMsg)
  cstWait : List (Nat × WaitMsg)
  cstRead : List Nat
  sendWait : List (Nat × List Byte)
  asu : AsuStep
  asuLast : Nat
  pinnedRun : Nat
  csmCe : Nat
  phase : Nat
  fallTo : Option (Nat × Nat)
  bcast : Nat
  dropSum : Nat
  allSum : Nat
  evs : SMap Nat
  macAt : Option Nat
  steady : Bool
deriving DecidableEq, Repr

/-- A circuit message in flight towards a sink at a router's LOCAL or EDGE output: the next CSEQ expected (R252), whether it is to
be discarded, and where its bytes are counted. -/
structure CircRx where
  site : Nat
  port : Nat
  srcSite : Nat
  srcCore : Nat
  tag : Nat
  next : Nat
  bad : Bool
  place : AsmAt
deriving DecidableEq, Repr

/-- A drain at its root (R258): the wave number, the sums and the unattributed count of the last wave, the phase (0 none, 1 a
wave runs, 2 the gap, 3 the retire wave), and the sites that the running wave has still to visit. -/
structure DrainS where
  wave : Nat
  inj : Nat
  ej : Nat
  unattr : Nat
  phase : Nat
  todo : List Nat
deriving DecidableEq, Repr

/-- What a router holds beside its registers: route tables, circuit table, logical maps (R242, R244, R250), ports paused
after a sideband error (R260), ports isolated at level 2 (Table 17-3), the drain, and the arbitration of its outputs (R234): at
key o the input + 1 that output o served last on VC0, at 8 + o the same on VC1, at 16 + o the VC1 flits since its last VC0 flit. -/
structure RtrS where
  rtA : SMap Nat
  rtB : SMap Nat
  circ : SMap Nat
  lmA : SMap Nat
  lmB : SMap Nat
  paused : List Nat
  deadPorts : List Nat
  drain : DrainS
  arb : SMap Nat
deriving DecidableEq, Repr

/-- Why a request waits for a response (R261, R132): a read of the engine word `seq` of a core for the bytes from `off`,
a global write of the engine word `seq` at `pc` of a core, a message of a core with the PC of its word and the scalar for its
status, a message forwarded for a link under the tag of the link's far end (R395), or a message of another sender. -/
inductive ReqKind where
  | read (core seq off len : Nat)
  | write (core seq pc : Nat)
  | msg (core pc : Nat) (sreg : Option Nat)
  | span (link tag : Nat)
  | other
deriving DecidableEq, Repr

/-- An outstanding request of a gateway or edge port (R261, R262). -/
structure Req where
  site : Nat
  port : Nat
  tag : Nat
  kind : ReqKind
deriving DecidableEq, Repr

/-- A packet in the fabric: at router `site` in the input buffer of `port` 0 to 6, or (port 15) at its sink there. -/
structure Flight where
  site : Nat
  port : Nat
  pkt : Packet
deriving DecidableEq, Repr

/-- The packets of one request that wait at their injection point for a free tag (R262). -/
structure InjWait where
  site : Nat
  port : Nat
  pkts : List Packet
  kind : Option ReqKind
deriving DecidableEq, Repr

/-- An event message on its way to the command engine (R563, R565): unit, SEQ, how often it was sent, and the two words of the
history entry that it carries. -/
structure EvMsg where
  unit : Nat
  seq : Nat
  sends : Nat
  w0 : Nat
  w1 : Nat
deriving DecidableEq, Repr

/-- A circuit flit on its way: at router `site`, arriving on input `port` in slot `slot` (R248, R249). At its injection port it may
leave in the slots of the mask `slots` (R267; none: it is in the network), and the last flit of a message says whose message it was
(R271). -/
structure CircFlight where
  site : Nat
  port : Nat
  slot : Nat
  slots : Option Nat
  f : CircFlit
  kind : Option ReqKind
deriving DecidableEq, Repr

/-- A stream request in an HBM block's queue (R319). -/
structure StreamReq where
  desc : Nat
  slot : Nat
deriving DecidableEq, Repr

/-- A running stream (R319 to R323): the request, the length in 512 B units, the buffer of each face (16: none used),
the sole face it stages to (2: both), and which halves are done. -/
structure StreamRun where
  req : StreamReq
  len : Nat
  buf0 : Nat
  buf1 : Nat
  sole : Nat
  done0 : Bool
  done1 : Bool
deriving DecidableEq, Repr

/-- What an HBM block holds beside its registers: descriptors (R318), the stream queue, the requests that TRN has issued and that
have not arrived (R197), the running streams, taken stage buffers as (face, buffer, reported), rows queued for repair as (channel,
address) (R310), the sectors found uncorrectable as (channel, channel address) packed, with their NT (R315), a spare move in
progress (logical channel), channels out of use, the NT of the last maintenance step (R316), whether a full retrain runs, and
whether the head of the queue has waited for a buffer (R322). -/
structure HbmS where
  descs : SMap Nat
  queue : List StreamReq
  asked : List StreamReq
  runs : List StreamRun
  taken : List (Nat × Nat × Bool)
  repairs : List (Nat × Nat)
  ueLog : List (Nat × Nat)
  move : Option Nat
  badCh : List Nat
  lastStep : Option Nat
  retraining : Bool
  waited : Bool
deriving DecidableEq, Repr

/-- What a Cellar channel holds beside its registers: rows waiting for a soft repair (R329), the corrected errors as
(row, NT), and whether a retrain runs. -/
structure CelS where
  repairs : List Nat
  rowCe : List (Nat × Nat)
  retraining : Bool
deriving DecidableEq, Repr

/-- What the block sends out of itself, in the order sent: a Sill flit toward the host on a module, a sideband message, a link
block, a wake signal, a pulse, a bus write, an answer of the I3C target, a time-port message, or the value of a register read. -/
inductive Output where
  | sillFlit (m : Nat) (slots : List (BitVec 128))
  | sideband (sub data : Nat)
  | linkBlk (link : Nat) (msg : BitVec 5140)
  | wakePattern (link : Nat)
  | pulse (live : Bool)
  | pps (ms : Nat)
  | avs (port sel group cmd : Nat) (wr : Bool) (data : Nat)
  | fsc (lane : Nat) (frame : BitVec 50)
  | i3c (bytes : List Byte)
  | ibi (bytes : List Byte)
  | delayReq (seq : Nat)
  | regRead (addr : Nat) (v : Word)
  | pin (name : Nat) (level : Bool)
deriving DecidableEq, Repr

/-- An accepted command that has not completed (R351 to R359): its SEQ, the 64 B entry, whether it has started or been
cancelled, the bytes a COPY has moved, the bytes read so far from the host with the reads outstanding, and the final
status once its completion waits for the mirror (R367), and the NT of its acceptance (R361). -/
structure CmdS where
  seq : Nat
  entry : List Byte
  started : Bool
  cancelled : Bool
  moved : Nat
  buf : List Byte
  left : Nat
  ended : Option (Nat × Nat × Nat)
  accAt : Nat
deriving DecidableEq, Repr

/-- A session (R370 to R372): 0 FREE, 1 OPEN, 2 ACTIVE; fence 1 strict, 2 relaxed; its allocation, sampling mode,
temperature, position, capacity, the SEQ of its last command, the NT of its last token record, the parameters of its
SESSION_OPEN, and the saved generator state and number of its last step. -/
structure SessS where
  state : Nat
  fence : Nat
  base : Nat
  len : Nat
  mode : Nat
  temp : Nat
  pos : Nat
  cap : Nat
  lastSeq : Nat
  lastNt : Nat
  params : List Nat
  rng : Nat
  stepNo : Nat
deriving DecidableEq, Repr

/-- A token record that waits for its emission fence (R368, R407); `resent` marks the one a takeover writes again
(R415, R522). -/
structure TokRec where
  pos : Nat
  toks : List Nat
  stop : Bool
  last : Bool
  cid : Nat
  session : Nat
  k0 : Nat
  mseq : Nat
  resent : Bool
deriving DecidableEq, Repr

/-- The running DECODE (R362): the SEQ of its command, its parameters, the tokens emitted, whether a permit is
outstanding and its step number, the run of timed-out steps, token records waiting, the end decided (reason, status),
the index of its first token (R522), the NT of acceptance and of its last token record (R524), and its STEP records as
(position, MSEQ) (R407). -/
structure DecodeS where
  seq : Nat
  session : Nat
  cid : Nat
  maxTok : Nat
  width : Nat
  stopLate : Bool
  interval : Nat
  deadline : Option Nat
  stops : List Nat
  emitted : Nat
  permit : Bool
  stepNo : Nat
  tmoRun : Nat
  waiting : List TokRec
  fin : Option (Nat × Nat)
  base : Nat
  accNt : Nat
  lastRec : Option Nat
  sent : List (Nat × Nat)
deriving DecidableEq, Repr

/-- A read that Merif sent to the host (R344): its tag and what it serves: the command, and the offset in its data. -/
structure HostRd where
  tag : Nat
  seq : Nat
  off : Nat
  len : Nat
deriving DecidableEq, Repr

/-- A mirror record sent and not yet covered by a MACK (R405), or an applied-later record at the mirror. -/
structure MirRec where
  mseq : Nat
  link : Nat
  kind : Nat
  session : Nat
  body : List Byte
deriving DecidableEq, Repr

/-- A journal entry version that waits for the mirror (R376): its MSEQ, its SEQ, and whether it is final. -/
structure JnlWait where
  mseq : Nat
  seq : Nat
  final : Bool
  lagged : Bool
deriving DecidableEq, Repr

/-- The pair (R401 to R420): the next MSEQ; records held until a MACK covers them; records that wait: at a lead to be sent,
at a mirror to be applied in order; the NT since which a gap in MSEQ stands; the NT of the last accepted beat on a MIRROR
link, of the last accepted pulse, and, per link, of the last accepted beat; the number of the last beat sent; the NT since
which no MIRROR link is UP; the NT of a RESYNC REQUEST without START; whether records are applied (R419); the last MSEQ of
a resync; whether PAIR_CONFIG was raised in this stay in WAITING; the mirror's running DECODE with the tokens recorded for
it, and its last STEP record; WRITE records outside every allocation; whether a beat was heard in this stay in WAITING; and
the tokens written whose STEP records no MACK covers, as (MSEQ, count); whether the rest of a takeover waits for the end of a
swap window; and the last MSEQ of the steps that carry no fence, as they began before the pair was formed, and whether the step
that runs is one of them (R418). -/
structure PairS where
  nextMseq : Nat
  held : List MirRec
  pending : List MirRec
  gapAt : Option Nat
  linkAt : Option Nat
  wireAt : Option Nat
  lastBeat : SMap Nat
  beatNo : Nat
  noLinkAt : Option Nat
  reqAt : Option Nat
  started : Bool
  resyncTo : Nat
  configRaised : Bool
  mirCmd : Option (List Byte × Nat)
  mirStep : Option (Nat × List Byte)
  ignored : Nat
  waitDone : Bool
  lagToks : List (Nat × Nat)
  takeWait : Bool
  freeTo : Nat
  freeStep : Bool
deriving DecidableEq, Repr

/-- One LNK block (R380 to R400): blocks sent and unacknowledged with their cells, the cells that wait to be sent, the next BSN to
send, the next BSN expected, whether a NAK is due, the NAKs received for one BSN, whether a fast retrain runs and whether the ACK
that ends it is awaited, numbered blocks accepted since the last ACK, forwarded messages (own tag, original packet) and those that
wait, received cells freed and not returned as credit, the DATA cells of a packet being received, the bytes left of each message
being received by tag, pending lane grant of the receive direction (position, lane, BSN), the map and pending grant of the send
direction, the lane that retrains, failed lanes, the corrected symbols of each physical lane in a window of 1 ms with its start
and since the last read of LNK_ERR (R391), sleep and spurious-wake state (kept in the quad's first link), and the receive table.
-/
structure LnkS where
  replay : List (Nat × List LinkCell)
  txq : List (List LinkCell)
  nextBsn : Nat
  expBsn : Nat
  nakDue : Bool
  nakBsn : Nat
  nakRun : Nat
  retraining : Bool
  resume : Bool
  accepted : Nat
  fwd : List (Nat × Packet)
  fwdWait : List Packet
  freeCells : Nat
  rxCells : List (BitVec 1024)
  rxLeft : SMap Nat
  grant : Option (Nat × Nat × Nat)
  asked : Option Nat
  halfDue : Bool
  txMap : Nat
  txHalf : Bool
  txGrant : Option (Nat × Nat × Nat)
  laneTrain : Option Nat
  badLanes : List Nat
  corr : SMap Nat
  corrAt : Nat
  worst : SMap Nat
  sleepSent : Bool
  wakeAt : Option Nat
  sawData : Bool
  spurious : Nat
  ignoreUntil : Nat
  table : SMap Nat
deriving DecidableEq, Repr

/-- A PREDICT record that Transom holds for matching (R199, R200): its layer and token, the distinct expert-table indices it
predicted, those among them whose hold still runs, whether its ROUTE record has arrived, those that it had pre-woken, and the NT
of its arrival. -/
structure TrnPred where
  layer : Nat
  token : Nat
  experts : List Nat
  holds : List Nat
  routed : Bool
  woken : List Nat
  at_ : Nat
deriving DecidableEq, Repr

/-- Transom (R193 to R202): the directory, the expert table, the expert-table index + 1 held by each slot, the stacks whose stream
into each slot has not ended, by expert-table index the stamp of the expert's last routing, the PREDICT records and the (layer,
token) of the ROUTE records seen, the layers not completed, as (layer, token), with their routed experts, the streams that wait for
a slot with the NT at which each began to wait, and the (layer, token) of the PREDICT records seen with the experts they predicted.
-/
structure TrnS where
  dir : SMap Nat
  exp : SMap Nat
  slots : SMap Nat
  strm : SMap Nat
  used : SMap Nat
  stamp : Nat
  preds : List TrnPred
  routes : List (Nat × Nat)
  live : List ((Nat × Nat) × List Nat)
  waits : List (Nat × Nat)
  seen : List ((Nat × Nat) × List Nat)
deriving DecidableEq, Repr

/-- A power domain (R474, R481): its level D0 to D4, the level it is entering, whether an exit is running, whether a demand to
leave waits for an entry to end, whether a wake source is the cause (R487), the deadline that its wake carries (R198, R201),
whether a pre-wake is the only cause of the demand (R202), and the NT at which it last reached D0 (R200). -/
structure DomS where
  level : Nat
  entering : Option Nat
  exiting : Bool
  demand : Bool
  source : Bool
  deadline : Option Nat
  pre : Bool
  upAt : Nat
deriving DecidableEq, Repr

/-- The Porch's sequencing (R478, R483, R484, R490): a device wake in progress with the NT of its first ramp slot, the state
request that waits for it, the device state being entered, the domains that have still to reach rest or, in a wake, D0, the stuck
rule of WAKE_N, the alarm time already used, RESET_N held low, whether the rails are qualified, the NT of the last trim of the
oscillator (R497), the domains that a device wake has still to let up (R484), the pair operations that wait for it, the rails of
Table 11-1 that are down and the fields whose rail is off, since the rails were last qualified (R425, R428). -/
structure PchS where
  waking : Bool
  slotAt : Nat
  waitTarget : Option Nat
  goal : Nat
  todo : List Nat
  pinIgnored : Bool
  alarmAt : Option Nat
  resetLow : Bool
  rails : Bool
  trimAt : Option Nat
  upNext : List Nat
  pairWant : List Nat
  down : List Nat
  dark : List Nat
deriving DecidableEq, Repr

/-- Power control (R427 to R470), powers in mW and currents in mA: the last P_tick values newest first; the slope ceiling C and
whether it is armed; whether a ramp slot fell in this tick; the pending CAP_SEL and SW_CAP; curtail's starting power, its ticks
and the NT of the last assertion; the floor; the 64 preference entries; the model coefficients, in mW/GHz at 0.80 V, by site and
phase with the image's initial ones by logical cluster and phase; each cluster's phase at the last tick; the field gains in parts
per million (1,000,000 the default); the consecutive ticks of conflict by rank and of floor shortfall; the ticks since the cold
start; each field's current estimate of the last tick; the inrush reservations as (field, NT); power-ups waiting as (site,
deadline); throttles in force as (field, frequency codes of its sites before it) and the NT at which each field's last one ended;
ramp starts in each field's window and the clusters waiting to ramp as (site, deadline); consecutive bad ticks of each thermal
sensor; ticks that a cluster spent throttled; the estimate of the lead in its BEATs (binary32, W); consecutive invalid sense
frames of each field, the VTGT values in force lately as (field, the last NT, VTGT), newest first, and the NT of the last VSET
write; the last 50 estimates of each field in mW, newest first; the domains that a lost rail feeds (R441); and the fields in which
a cycle was lengthened since their last sense frame (R501); the fields whose regulator controller left its last read unanswered; one
more than the NT of the last estimation tick and of the last ramp slot (R447, R452); whether the floor holds clusters in Idle (R464);
and the fields lost by their phases (R439). -/
structure PwrS where
  hist : List Nat
  slope : Nat
  armed : Bool
  slot : Bool
  pendSel : Option Nat
  pendSw : Option Nat
  curtFrom : Nat
  curtTicks : Nat
  curtAt : Nat
  floor : Nat
  prefs : SMap Nat
  model : SMap Nat
  modelInit : SMap Nat
  phaseAt : SMap Nat
  gain : SMap Nat
  conflict : SMap Nat
  shortRun : Nat
  ticks : Nat
  amps : SMap Nat
  reserve : List (Nat × Nat)
  upWait : List (Nat × Bool)
  throttle : List (Nat × List (Nat × Nat))
  thrEnd : SMap Nat
  rampIn : SMap Nat
  rampWait : List (Nat × Bool)
  sensorRun : SMap Nat
  thrTicks : SMap Nat
  leadEst : Nat
  fscBad : SMap Nat
  vt : List (Nat × Nat × Nat)
  vsAt : SMap Nat
  fieldHist : SMap (List Nat)
  lost : List Nat
  droop : List Nat
  avsDead : List Nat
  tickNt : Nat
  slotNt : Nat
  idleHold : Bool
  shed : List Nat
deriving DecidableEq, Repr

/-- Network time (R503 to R517). `sub` counts NT in units of 2.5e-11 ns. The rest: the two-step Sync that waits for its
Follow_Up; the time t3 of the Delay_Req that waits for its Delay_Resp; the last path term t4 - t3 - correction; the delays of
the last 16 samples (twice ns); the integrator in units of 0.01 ppb / 2^15; the last 64 FREQ_ADJ values; the counts of
consecutive samples inside and outside the thresholds; the Announce of the selected master; the qualified masters heard, each
with the number of its Announces; whether the first acquisition since the cold start is over (R507); the sync interval's
logarithm; the Delay_Req sequence; the NT of the last accepted PPS_IN edge and the consecutive accepted edges; and the NT of
the last PPS_OUT edge; the sum of the steps made, in the units of `sub` (R508); what the fabric clock has gained on NT, the offset of
each field's timebase from that, and the steps that the fields take at the next beacon, in the same units (R505 to R507); when the
last Sync and the selected master's last Announce were accepted, and the logarithm of its Announce interval (R513). -/
structure TimS where
  sub : Nat
  sync : Option PtpMsg
  reqT3 : Option Nat
  path2 : Option Int
  delays : List Int
  integ : Int
  freqs : List Int
  inRun : Nat
  outRun : Nat
  master : Option PtpAnnounce
  foreign : List (PtpAnnounce × Nat)
  acquired : Bool
  logSync : Int
  reqSeq : Nat
  ppsAt : Option Nat
  ppsRun : Nat
  ppsOut : Option Nat
  skew : Int
  lag : Int
  tb : SMap Int
  due : Int
  syncAt : Nat
  annAt : Nat
  annLog : Int
deriving DecidableEq, Repr

/-- An entry of a section table (Table 16-4). -/
structure SectEnt where
  typ : Nat
  variant : Nat
  off : Nat
  len : Nat
  scope : Nat
  digest : Nat
deriving DecidableEq, Repr

/-- A manifest (R528): the fields of its header (Table 16-3), its section table, the digest of its root public key and its own
digest. -/
structure Manifest where
  magic : Nat
  format : Nat
  nsect : Nat
  imageId : Nat
  imageLen : Nat
  svn : Nat
  reqGrade : Nat
  role : Nat
  flags : Nat
  sects : List SectEnt
  rootDigest : Nat
  digest : Nat
deriving DecidableEq, Repr

/-- The fuses (R530, R533, R534): the root key hash; the anti-rollback count in a primary and a spare bank; the factory records by
site, in a primary and a spare bank, those that are not listed being of a good site; the update records in both banks; the regions
that the last read took from the spare bank; and the SRAM repair records: spare rows and spare column groups in use, by core
and bank. -/
structure FuseS where
  rootHash : Nat
  svnA : Word
  svnB : Word
  factA : SMap Nat
  factB : SMap Nat
  updA : List Nat
  updB : List Nat
  bad : List Nat
  rows : List (Nat × Nat)
  cols : List (Nat × Nat)
deriving DecidableEq, Repr

/-- Start-up and configuration (R527 to R552): the loaded image, its manifest and its manifest digest, N, the reconciled bad units, a
waiting field-loss restart, a flash operation, an SVN commit and a report in progress, the fuses, whether a register write has asked
for a warm reset, an image whose POLICY waits for the next tick (R543), the cores whose cube the fuses of the last cold start retire, and the core sites whose core router BIST found
failed (R230). -/
structure BootS where
  image : Option Image
  man : Option Manifest
  digest : Nat
  n : Nat
  siteBad : List Nat
  coreBad : SMap Nat
  routerBad : List Nat
  restart : Option Nat
  nvm : Option (Nat × Nat × Nat)
  commit : Option Nat
  report : Option (Nat × List Nat × Nat)
  fuse : FuseS
  warmReq : Bool
  policy : Option Image
  cubeFused : List Nat
  coreRtrBad : List Nat
deriving DecidableEq, Repr

/-- A swap that Newt is to make (R575 to R585). -/
structure SwapReq where
  cluster : Bool
  lclu : Nat
  lcore : Nat
  nofuse : Bool
deriving DecidableEq, Repr

/-- Newt (R572 to R585): swaps requested, cores whose cube is to be retired as (logical cluster, logical core), row repairs queued
by address, the physical site + 1 of each logical cluster and its redirecting site + 1, a pre-copy in progress with the new site
and the tiles rewritten, whether a window is open, the sites whose gateway holds arrivals, fuse records to write, words already
corrected on the last scrub visit, whether the window waits for cores to halt, with whether the section digests of a dead swap
hold, the NT at which the window opened, the command whose TEST with HOLD wants a window, the spare rows and the spare column
groups in use in each bank of each core (Table 2-2), and the clusters that level 3 isolated while their swap ran. -/
structure NwtS where
  reqs : List SwapReq
  cubes : List (Nat × Nat)
  rows : List Nat
  map : SMap Nat
  old : SMap Nat
  pre : Option (SwapReq × Nat × List MemLoad)
  window : Bool
  hold : List Nat
  drain : Option (SwapReq × Nat × Bool)
  fusePend : List Nat
  scrubCe : List Nat
  haltAt : Option Bool
  openAt : Nat
  test : Option Nat
  rowUse : SMap Nat
  colUse : SMap Nat
  isol : List Nat
deriving DecidableEq, Repr

/-- An observation entry of Skink (R593). -/
structure ObsEnt where
  site : Nat
  core : Nat
  passes : Nat
  cause : Nat
deriving DecidableEq, Repr

/-- The I3C target (R619, R620): its dynamic address, whether in-band interrupts are enabled, the read set up as
(status, address, words, NT from which data is ready), and the maximum lengths. -/
structure I3cS where
  addr : Option Nat
  ibi : Bool
  setup : Option (Nat × Nat × Nat × Nat)
  mrl : Nat
  mwl : Nat
deriving DecidableEq, Repr

/-- The Hallway remap tables (R31): active and staged entries by field, Hallway, direction and bundle; whether a wire
test runs as (field, Hallway, requested by TEST). -/
structure HwS where
  act : SMap Nat
  staged : SMap Nat
  testing : List (Nat × Nat × Bool)
deriving DecidableEq, Repr

/-- Sill (R336 to R342). Of what arrives: the FSEQ that comes next, the flits that came ahead of it as (FSEQ, slots), the request
whose data slots have not all arrived with the number of those that miss, and the requests that have not been served, in order. Of
what leaves: whether the host's first flit has come, the credits it gave (none: without limit), the requests that wait for credit,
the next FSEQ, the module whose turn it is, and the credits that the next flit returns. Credits stand in the order of Table 9-3.
-/
structure SillS where
  seq : Nat
  ahead : List (Nat × List (BitVec 128))
  part : Option (SillReq × Nat)
  inq : List SillReq
  met : Bool
  cred : List (Option Nat)
  outq : List SillReq
  tx : Nat
  turn : Nat
  ret : List Nat
deriving DecidableEq, Repr

/-- Everything in the block but its memories and the queue of commands. `regs` holds every register that is not at its reset word,
by a key made of the register, the unit and the index; `coreBad` 1 is a core site that is bad, 2 one that is RETIRED; `jmem` is
the host window memory (R341, R374), which the command engine writes; `stage` holds packets at a gateway or edge port that wait
for room in the input buffer there (R233, R235); `fresh` counts the free values taken; `accWaited` says that the entry at HEAD has
been counted as waiting (R352); `evtCount` counts the occurrences of each block instance modulo 256 (R561), `evtPend` holds 1 + 2
* level + ESC of each pending class (R559); `hostDead` the tags of host reads that ended without an answer, with the NT (R344),
`alertAt` the NT + 1 of each instance's last ALERT (R566), `ntfOut` the rings with an NTF that the host has not answered (R345);
`visited` holds the NT of Skink's last visit to each core (R590). -/
structure Dev where
  regs : SMap Word
  jmem : List Host.Cell
  cores : SMap CoreS
  clus : SMap CluS
  rtrs : SMap RtrS
  hbms : SMap HbmS
  cels : SMap CelS
  lnks : SMap LnkS
  doms : SMap DomS
  hw : HwS
  net : List Flight
  stage : List Flight
  circNet : List CircFlight
  reqs : List Req
  injw : List InjWait
  deadTags : List Req
  asms : List Asm
  circ : List CircRx
  evq : List EvMsg
  out : List Output
  fresh : Nat
  cmds : List CmdS
  accWaited : Bool
  sessions : SMap SessS
  dec : Option DecodeS
  hostReads : List HostRd
  jwait : List JnlWait
  pair : PairS
  trn : TrnS
  pch : PchS
  pwr : PwrS
  tim : TimS
  boot : BootS
  nwt : NwtS
  obs : List ObsEnt
  visited : SMap Nat
  i3c : I3cS
  sill : SillS
  hostDead : List (Nat × Nat)
  ntfOut : List Nat
  evtCount : SMap Nat
  evtPend : SMap Nat
  alertAt : SMap Nat
deriving DecidableEq, Repr

/-- The state of the block: the commands that wait, first in first out; the device memories by physical global address
(spec/00_scope.md R6); the activation buffers by core and offset; the two flash devices; the ECC marks of words and
sectors, 1 corrected and 2 uncorrectable, by address; and everything else. -/
structure State where
  pending : List Instr
  mem : List Host.Cell
  abuf : List Host.Cell
  flash : List Host.Cell
  ecc : SMap Nat
  dev : Dev
deriving DecidableEq, Repr

/-- The reasons for which a step can fault. There is none: every access to an absent location has a result in the
manual (R10, R13). -/
inductive Fault where
deriving DecidableEq, Repr

/-- The reasons for which a step can be refused. -/
inductive Refusal where
  /-- Raised by the dispatch of a command that has no meaning in this model yet: safe, the step gives no state. -/
  | notModelled (mnemonic : String)
deriving DecidableEq, Repr

/-! Values after reset, for keys that are not listed. -/

/-- A core after reset (R141, Table 2-3): nothing queued. -/
def CoreS.init : CoreS :=
  ⟨[], [], [], 0, none, 0, [], [0, 0, 0, 0, 0, 0, 0, 0], [], 0⟩

/-- A sampling unit at rest. -/
def AsuStep.init : AsuStep := ⟨false, 0, 0, 0, none, [], [], 0, 0, false⟩

/-- A cluster after reset. -/
def CluS.init : CluS := ⟨[], [], [], [], [], AsuStep.init, 0, 0, 0, 0, none, 0, 0, 0, [], none, true⟩

/-- A router after reset. -/
def RtrS.init : RtrS := ⟨[], [], [], [], [], [], [], ⟨0, 0, 0, 0, 0, []⟩, []⟩

/-- An HBM block after reset. -/
def HbmS.init : HbmS := ⟨[], [], [], [], [], [], [], none, [], none, false, false⟩

/-- A Cellar channel after reset. -/
def CelS.init : CelS := ⟨[], [], false⟩

/-- A link after reset. -/
def LnkS.init : LnkS :=
  { replay := [], txq := [], nextBsn := 0, expBsn := 0, nakDue := false, nakBsn := 0, nakRun := 0, retraining := false,
    resume := false, accepted := 0, fwd := [], fwdWait := [], freeCells := 0, rxCells := [], rxLeft := [], grant := none,
    asked := none, halfDue := false, txMap := 0x76543210, txHalf := false, txGrant := none, laneTrain := none, badLanes := [], corr := [], corrAt := 0, worst := [], sleepSent := false, wakeAt := none,
    sawData := false, spurious := 0, ignoreUntil := 0, table := [] }

/-- A power domain after reset: D0 (assumption 14). -/
def DomS.init : DomS := ⟨0, none, false, false, false, none, false, 0⟩

/-- A domain that is off because of a fault. -/
def DomS.off : DomS := { DomS.init with level := 4 }

/-- A free session (R370). -/
def SessS.init : SessS := ⟨0, 1, 0, 0, 0, 0, 0, 0, 0, 0, [], 0, 0⟩

/-- The pair after reset. -/
def PairS.init : PairS :=
  ⟨1, [], [], none, none, none, [], 0, none, none, false, 0, false, none, none, 0, false, [], false, 0, false⟩

/-- Transom after reset. -/
def TrnS.init : TrnS := ⟨[], [], [], [], [], 0, [], [], [], [], []⟩

/-- The Porch after reset. -/
def PchS.init : PchS := ⟨false, 0, none, 0, [], false, none, false, true, none, [], [], [], []⟩

/-- Power control after reset: no estimate, the slope ceiling at 0 (assumption 14). -/
def PwrS.init : PwrS :=
  { hist := [], slope := 0, armed := false, slot := false, pendSel := none, pendSw := none, curtFrom := 0, curtTicks := 0,
    curtAt := 0, floor := 0, prefs := [], model := [], modelInit := [], phaseAt := [], gain := [], conflict := [], shortRun := 0,
    ticks := 0, amps := [], reserve := [], upWait := [], throttle := [], thrEnd := [], rampIn := [], rampWait := [],
    sensorRun := [], thrTicks := [], leadEst := 0, fscBad := [], vt := [], vsAt := [],
    fieldHist := [], lost := [], droop := [], avsDead := [], tickNt := 0, slotNt := 0, idleHold := false, shed := [] }

/-- Network time after reset: NT counts from 0 (R503). -/
def TimS.init : TimS :=
  ⟨0, none, none, none, [], 0, [], 0, 0, none, [], false, 0, 0, none, 0, none, 0, 0, [], 0, 0, 0, 0⟩

/-- A manifest without a section. -/
def Manifest.empty : Manifest := ⟨0, 0, 0, 0, 0, 0, 0, 0, 0, [], 0, 0⟩

/-- The fuses of a device with no defect, count 0 and the digest of a root key of zeros (assumption 143). -/
def FuseS.init : FuseS :=
  ⟨0xf7fc7ed889402396b5c35b1b5bcd949f7ac69d02312d5feb988d0379411780bf, 0, 0, [], [], [], [], [], [], []⟩

/-- Configuration after reset: nothing loaded (assumption 14: N is 240 until an image is loaded). -/
def BootS.init : BootS :=
  ⟨none, none, 0, 240, [], [], [], none, none, none, none, FuseS.init, false, none, [], []⟩

/-- Newt after reset. -/
def NwtS.init : NwtS := ⟨[], [], [], [], [], none, false, [], none, [], [], none, 0, none, [], [], []⟩

/-- Sill before training: nothing sent, nothing received. -/
def SillS.init : SillS := ⟨0, [], none, [], false, [], [], 0, 0, [0, 0, 0, 0, 0]⟩

/-- The I3C target after reset: no dynamic address (R619). -/
def I3cS.init : I3cS := ⟨none, true, none, 65, 8⟩

/-- The block right after reset, before its cold start: every register at its Reset word (BSQ_STATUS.STATE is 1
STARTING), nothing queued, in flight or loaded. -/
def Dev.reset : Dev :=
  { regs := [], jmem := [], cores := [], clus := [], rtrs := [], hbms := [], cels := [], lnks := [], doms := [],
    hw := ⟨[], [], []⟩, net := [], stage := [], circNet := [], reqs := [], injw := [], deadTags := [], asms := [], circ := [],
    evq := [], out := [], fresh := 0, cmds := [], accWaited := false, sessions := [], dec := none, hostReads := [], jwait := [],
    pair := PairS.init, trn := TrnS.init, pch := PchS.init, pwr := PwrS.init, tim := TimS.init, boot := BootS.init,
    nwt := NwtS.init, obs := [], visited := [], i3c := I3cS.init, sill := SillS.init, hostDead := [],
    ntfOut := [], evtCount := [], evtPend := [], alertAt := [] }

/-- The state after reset: no command waits, every memory reads 0 (assumption 13), the device as `Dev.reset`. -/
def State.reset : State :=
  { pending := [], mem := [], abuf := [], flash := [], ecc := [], dev := Dev.reset }

end Sys2Proof.Machine
end

