-- ==== Sys2Proof/Machine/RegMap.lean ====
section
/-! DEFINITION. The register map: one constant per register of the manual (its block code, offset, stride, count,
reset word, and the bits of each access code of R12), and one constant per named field. Read from the register tables
of spec/ (Tables 1-5 to 18-19 and the offset tables); a field whose Reset column says per image, per fuse, per pin,
per instance or per start-up holds 0 here and is set by the cold start (assumption 4). -/

namespace Sys2Proof.Machine

/-- A register of the manual: `code` is its index in the model's map, `blk` the block code of Table 0-7 (0: every
block, R14), word i lies at `base + stride * i` for i below `count`; the masks hold the bits of each access code (R12). -/
structure Reg where
  code : Nat
  blk : Nat
  base : Nat
  stride : Nat
  count : Nat
  reset : Nat
  rw : Nat
  wo : Nat
  w1c : Nat
  rc : Nat
  ros : Nat
deriving DecidableEq, Repr

/-- A field of a register: bits `lo` to `lo + width - 1`. -/
structure Fld where
  reg : Reg
  lo : Nat
  width : Nat
deriving DecidableEq, Repr

namespace R

/-- EVT_STATUS: spec 17 Table 17-7. -/
def EVT_STATUS : Reg := ⟨1, 0, 0x0, 0x0, 1, 0x0, 0x0, 0x0, 0x0, 0xfffff00000000000, 0x700000000⟩
/-- EVT_ENABLE: spec 17 Table 17-8. -/
def EVT_ENABLE : Reg := ⟨2, 0, 0x8, 0x0, 1, 0xfffffffe, 0xfffffffe, 0x0, 0x0, 0x0, 0x0⟩
/-- EVT_ACK: spec 17 Table 17-9. -/
def EVT_ACK : Reg := ⟨3, 0, 0x10, 0x0, 1, 0x0, 0x0, 0x80000000fffffffe, 0x0, 0x0, 0x0⟩
/-- BLOCK_ID: spec 00 R15. -/
def BLOCK_ID : Reg := ⟨4, 0, 0x18, 0x0, 1, 0x0, 0x0, 0x0, 0x0, 0x0, 0x0⟩
/-- EVT_HIST0: spec 17 Table 17-10. -/
def EVT_HIST0 : Reg := ⟨5, 0, 0x80, 0x10, 8, 0x0, 0x0, 0x0, 0x0, 0x0, 0xffffffffffffffff⟩
/-- EVT_HIST1: spec 17 Table 17-10. -/
def EVT_HIST1 : Reg := ⟨6, 0, 0x88, 0x10, 8, 0x0, 0x0, 0x0, 0x0, 0x0, 0xffffff00ffffffff⟩
/-- FLD_PG_STATUS: spec 01 Table 1-6. -/
def FLD_PG_STATUS : Reg := ⟨7, 4, 0x100, 0x0, 1, 0x1e0, 0x0, 0x0, 0x0, 0x0, 0x0⟩
/-- FLD_HW_CTRL: spec 01 Table 1-7. -/
def FLD_HW_CTRL : Reg := ⟨8, 4, 0x140, 0x8, 8, 0x1, 0x3, 0xc, 0x0, 0x0, 0x0⟩
/-- FLD_HW_STATUS: spec 01 Table 1-8. -/
def FLD_HW_STATUS : Reg := ⟨9, 4, 0x180, 0x8, 8, 0x1, 0x0, 0x0, 0x18, 0xffff000000000000, 0x4⟩
/-- FLD_HW_REMAP_SEL: spec 01 Table 1-9. -/
def FLD_HW_REMAP_SEL : Reg := ⟨10, 4, 0x1c0, 0x0, 1, 0x0, 0x7ff, 0x0, 0x0, 0x0, 0x0⟩
/-- FLD_HW_REMAP_DATA: spec 01 Table 1-10. -/
def FLD_HW_REMAP_DATA : Reg := ⟨11, 4, 0x1c8, 0x0, 1, 0x0, 0x3f3f, 0x0, 0x0, 0x0, 0x0⟩
/-- COR_CTRL: spec 02 Table 2-9. -/
def COR_CTRL : Reg := ⟨12, 1, 0x100, 0x0, 1, 0x0, 0x1fff0080, 0x7, 0x0, 0x0, 0x0⟩
/-- COR_STATUS: spec 02 Table 2-10. -/
def COR_STATUS : Reg := ⟨13, 1, 0x108, 0x0, 1, 0x0, 0x0, 0x0, 0x8, 0x0, 0x0⟩
/-- COR_FMAX: spec 02 Table 2-11. -/
def COR_FMAX : Reg := ⟨14, 1, 0x110, 0x0, 1, 0x0, 0x0, 0x0, 0x0, 0x0, 0x0⟩
/-- COR_CHK_CTRL: spec 02 Table 2-12. -/
def COR_CHK_CTRL : Reg := ⟨15, 1, 0x118, 0x0, 1, 0x200e2, 0x3f1f3, 0x0, 0x0, 0x0, 0x0⟩
/-- COR_CHK_STATUS: spec 02 Table 2-13. -/
def COR_CHK_STATUS : Reg := ⟨16, 1, 0x120, 0x0, 1, 0x0, 0x0, 0x0, 0x0, 0xffffffffffff2000, 0x0⟩
/-- COR_ECC_STATUS: spec 02 Table 2-14. -/
def COR_ECC_STATUS : Reg := ⟨17, 1, 0x128, 0x0, 1, 0x0, 0x0, 0x0, 0x3, 0xffffffff00000000, 0x0⟩
/-- COR_ECC_ADDR: spec 02 Table 2-15. -/
def COR_ECC_ADDR : Reg := ⟨18, 1, 0x130, 0x0, 1, 0x0, 0x0, 0x0, 0x0, 0x0, 0x0⟩
/-- COR_FP_CTRL: spec 02 Table 2-16. -/
def COR_FP_CTRL : Reg := ⟨19, 1, 0x138, 0x0, 1, 0x0, 0xd, 0x0, 0x0, 0x0, 0x0⟩
/-- COR_FP_FLAGS: spec 02 Table 2-17. -/
def COR_FP_FLAGS : Reg := ⟨20, 1, 0x140, 0x0, 1, 0x0, 0x0, 0x0, 0x11f, 0x0, 0x0⟩
/-- COR_SEQ_ERR: spec 03 Table 3-22. -/
def COR_SEQ_ERR : Reg := ⟨21, 1, 0x148, 0x0, 1, 0x0, 0x0, 0x0, 0x8000000000000000, 0x0, 0x0⟩
/-- COR_SEQ_STATUS: spec 03 Table 3-23. -/
def COR_SEQ_STATUS : Reg := ⟨22, 1, 0x150, 0x0, 1, 0x0, 0x0, 0x0, 0x0, 0x0, 0x0⟩
/-- COR_STALL_CNT: spec 03 Table 3-24. -/
def COR_STALL_CNT : Reg := ⟨23, 1, 0x158, 0x0, 1, 0x0, 0x0, 0x0, 0x0, 0xffffffffffffffff, 0x0⟩
/-- COR_QCTRL: spec 07 Table 7-10. -/
def COR_QCTRL : Reg := ⟨24, 1, 0x160, 0x0, 1, 0x0, 0x0, 0xffff00, 0x0, 0x0, 0x0⟩
/-- COR_QGEN: spec 07 Table 7-9. -/
def COR_QGEN : Reg := ⟨25, 1, 0x168, 0x0, 1, 0x0, 0x0, 0x0, 0x0, 0x0, 0x0⟩
/-- COR_MSG_STATUS: spec 07 Table 7-11. -/
def COR_MSG_STATUS : Reg := ⟨26, 1, 0x170, 0x0, 1, 0x0, 0x0, 0x0, 0x0, 0xffffffffffffffff, 0x0⟩
/-- COR_WAIT_TMO: spec 07 Table 7-12. -/
def COR_WAIT_TMO : Reg := ⟨27, 1, 0x178, 0x0, 1, 0x0, 0x1ffff, 0x0, 0x0, 0x0, 0x0⟩
/-- COR_CLK: spec 14 Table 14-13. -/
def COR_CLK : Reg := ⟨28, 1, 0x180, 0x0, 1, 0x0, 0x0, 0x0, 0x0, 0xffffffff00000000, 0x0⟩
/-- COR_AGE: spec 18 Table 18-16. -/
def COR_AGE : Reg := ⟨29, 1, 0x188, 0x0, 1, 0x0, 0x0, 0x0, 0x0, 0x0, 0x0⟩
/-- COR_SCALAR: spec 02 Table 2-8, R80. -/
def COR_SCALAR : Reg := ⟨30, 1, 0x200, 0x8, 16, 0x0, 0xffffffff, 0x0, 0x0, 0x0, 0x0⟩
/-- COR_PRED: spec 02 Table 2-8, R80. -/
def COR_PRED : Reg := ⟨31, 1, 0x280, 0x0, 1, 0x1, 0xff, 0x0, 0x0, 0x0, 0x0⟩
/-- COR_LOOP: spec 02 Table 2-8, R80. -/
def COR_LOOP : Reg := ⟨32, 1, 0x288, 0x8, 4, 0x0, 0xfffff, 0x0, 0x0, 0x0, 0x0⟩
/-- COR_DESC0: spec 02 Table 2-8, R80. -/
def COR_DESC0 : Reg := ⟨33, 1, 0x400, 0x10, 32, 0x0, 0xffffffffffffffff, 0x0, 0x0, 0x0, 0x0⟩
/-- COR_DESC1: spec 02 Table 2-8, R80. -/
def COR_DESC1 : Reg := ⟨34, 1, 0x408, 0x10, 32, 0x0, 0xffffffffffffffff, 0x0, 0x0, 0x0, 0x0⟩
/-- COR_SEM: spec 02 Table 2-8, R80. -/
def COR_SEM : Reg := ⟨35, 1, 0x800, 0x8, 64, 0x0, 0x0, 0x0, 0x0, 0x0, 0x0⟩
/-- COR_QENTRY: spec 02 Table 2-8. -/
def COR_QENTRY : Reg := ⟨36, 1, 0x2000, 0x8, 1024, 0x0, 0x0, 0x0, 0x0, 0x0, 0x0⟩
/-- COR_CHAN0: spec 07 Table 7-1. -/
def COR_CHAN0 : Reg := ⟨37, 1, 0x4000, 0x10, 256, 0x0, 0xfffffffff8ffffff, 0x0, 0x0, 0x0, 0x0⟩
/-- COR_CHAN1: spec 07 Table 7-1. -/
def COR_CHAN1 : Reg := ⟨38, 1, 0x4008, 0x10, 256, 0x0, 0xffff07c000000000, 0x0, 0x0, 0x0, 0x0⟩
/-- CLU_ZSK_CTRL: spec 05 Table 5-15. -/
def CLU_ZSK_CTRL : Reg := ⟨39, 2, 0x400, 0x0, 1, 0xa00, 0x3f3f1f01, 0x0, 0x0, 0x0, 0x0⟩
/-- CLU_ZSK_STATUS: spec 05 Table 5-16. -/
def CLU_ZSK_STATUS : Reg := ⟨40, 2, 0x408, 0x0, 1, 0x0, 0x0, 0x0, 0x0, 0xffffffffffff0000, 0x0⟩
/-- CLU_UNIT_CTRL: spec 05 Table 5-17. -/
def CLU_UNIT_CTRL : Reg := ⟨41, 2, 0x410, 0x0, 1, 0x8, 0xff00000f, 0x0, 0x0, 0x0, 0x0⟩
/-- CLU_UNIT_STATUS: spec 05 Table 5-18. -/
def CLU_UNIT_STATUS : Reg := ⟨42, 2, 0x418, 0x0, 1, 0x0, 0x0, 0x0, 0x0, 0xffffffffffffffff, 0x0⟩
/-- CLU_ASU_CTRL: spec 05 Table 5-19. -/
def CLU_ASU_CTRL : Reg := ⟨43, 2, 0x420, 0x0, 1, 0x32000000000000, 0xffffffffffff0003, 0x0, 0x0, 0x0, 0x0⟩
/-- CLU_ASU_STATE: spec 05 Table 5-20. -/
def CLU_ASU_STATE : Reg := ⟨44, 2, 0x428, 0x0, 1, 0x9e3779b97f4a7c15, 0xffffffffffffffff, 0x0, 0x0, 0x0, 0x0⟩
/-- CLU_ASU_STATUS: spec 05 Table 5-21. -/
def CLU_ASU_STATUS : Reg := ⟨45, 2, 0x430, 0x0, 1, 0x0, 0x0, 0x0, 0x0, 0xffffffffffffffff, 0x0⟩
/-- CLU_MESH_CTRL: spec 06 Table 6-25. -/
def CLU_MESH_CTRL : Reg := ⟨46, 2, 0x500, 0x0, 1, 0x0, 0x1, 0x0, 0x0, 0x0, 0x0⟩
/-- CLU_MSG_CTRL: spec 07 Table 7-13. -/
def CLU_MSG_CTRL : Reg := ⟨47, 2, 0x600, 0x0, 1, 0x320000, 0xffff0000, 0x0, 0x0, 0x0, 0x0⟩
/-- CLU_MSG_STATUS: spec 07 Table 7-11. -/
def CLU_MSG_STATUS : Reg := ⟨48, 2, 0x608, 0x0, 1, 0x0, 0x0, 0x0, 0x0, 0xffffffffffffffff, 0x0⟩
/-- CLU_CST_STATUS: spec 07 Table 7-14. -/
def CLU_CST_STATUS : Reg := ⟨49, 2, 0x610, 0x0, 1, 0x0, 0x0, 0x0, 0x0, 0xffffffffffffffff, 0x0⟩
/-- CLU_PWR: spec 12 Table 12-17. -/
def CLU_PWR : Reg := ⟨50, 2, 0x700, 0x0, 1, 0x80000, 0x0, 0x0, 0x0, 0xfc, 0x0⟩
/-- CLU_SLEEP: spec 13 Table 13-14. -/
def CLU_SLEEP : Reg := ⟨51, 2, 0x780, 0x0, 1, 0xc, 0x1fff000d, 0x0, 0x0, 0xffffffff00000000, 0x0⟩
/-- CLU_RING_CFG: spec 07 Table 7-15. -/
def CLU_RING_CFG : Reg := ⟨52, 2, 0x800, 0x20, 32, 0x0, 0xf007ff000000, 0x7000000000000000, 0x0, 0x0, 0x0⟩
/-- CLU_RING_HEAD: spec 07 Table 7-16. -/
def CLU_RING_HEAD : Reg := ⟨53, 2, 0x808, 0x20, 32, 0x0, 0x0, 0x0, 0x0, 0x0, 0x0⟩
/-- CLU_RING_TAIL: spec 07 Table 7-16. -/
def CLU_RING_TAIL : Reg := ⟨54, 2, 0x810, 0x20, 32, 0x0, 0x0, 0x0, 0x0, 0x0, 0x0⟩
/-- CLU_RING_STATUS: spec 07 Table 7-17. -/
def CLU_RING_STATUS : Reg := ⟨55, 2, 0x818, 0x20, 32, 0x0, 0x0, 0x0, 0x0, 0xffffffffffff, 0x0⟩
/-- CLU_SEM: spec 07 Table 7-9. -/
def CLU_SEM : Reg := ⟨56, 2, 0xc00, 0x8, 256, 0x0, 0xffff, 0x0, 0x0, 0x0, 0x0⟩
/-- CLU_CST0: spec 07 Table 7-5. -/
def CLU_CST0 : Reg := ⟨57, 2, 0x1400, 0x10, 256, 0x0, 0xffffffffc0000000, 0x0, 0x0, 0x0, 0x0⟩
/-- CLU_CST1: spec 07 Table 7-5. -/
def CLU_CST1 : Reg := ⟨58, 2, 0x1408, 0x10, 256, 0x0, 0x0, 0x0, 0x0, 0x0, 0x0⟩
/-- CLU_CORE_MAP: spec 18 Table 18-9. -/
def CLU_CORE_MAP : Reg := ⟨59, 2, 0x2400, 0x8, 4, 0x0, 0x0, 0x0, 0x0, 0x0, 0x0⟩
/-- CLU_REDIRECT: spec 18 Table 18-15. -/
def CLU_REDIRECT : Reg := ⟨60, 2, 0x2420, 0x0, 1, 0x0, 0x0, 0x0, 0x100, 0x0, 0x0⟩
/-- CLU_CHAN0: spec 07 Table 7-1. -/
def CLU_CHAN0 : Reg := ⟨61, 2, 0x3000, 0x10, 256, 0x0, 0xfffffffff8ffffff, 0x0, 0x0, 0x0, 0x0⟩
/-- CLU_CHAN1: spec 07 Table 7-1. -/
def CLU_CHAN1 : Reg := ⟨62, 2, 0x3008, 0x10, 256, 0x0, 0xffff07c000000000, 0x0, 0x0, 0x0, 0x0⟩
/-- TRN_CTRL: spec 05 Table 5-22. -/
def TRN_CTRL : Reg := ⟨63, 19, 0x100, 0x0, 1, 0x3f07d00006, 0xffffffff000f, 0x0, 0x0, 0x0, 0x0⟩
/-- TRN_STATUS: spec 05 Table 5-23. -/
def TRN_STATUS : Reg := ⟨64, 19, 0x108, 0x0, 1, 0x0, 0x0, 0x0, 0x0, 0x0, 0x0⟩
/-- TRN_COUNT0: spec 05 Table 5-24. -/
def TRN_COUNT0 : Reg := ⟨65, 19, 0x110, 0x0, 1, 0x0, 0x0, 0x0, 0x0, 0xffffffffffffffff, 0x0⟩
/-- TRN_COUNT1: spec 05 Table 5-25. -/
def TRN_COUNT1 : Reg := ⟨66, 19, 0x118, 0x0, 1, 0x0, 0x0, 0x0, 0x0, 0xffffffffffffffff, 0x0⟩
/-- TRN_STALL: spec 05 Table 5-26. -/
def TRN_STALL : Reg := ⟨67, 19, 0x120, 0x0, 1, 0x0, 0x0, 0x0, 0x0, 0xffffffffffffffff, 0x0⟩
/-- TRN_TBL_SEL: spec 05 Table 5-27. -/
def TRN_TBL_SEL : Reg := ⟨68, 19, 0x128, 0x0, 1, 0x0, 0xbfff, 0x0, 0x0, 0x0, 0x0⟩
/-- TRN_TBL_DATA: spec 05 Table 5-28. -/
def TRN_TBL_DATA : Reg := ⟨69, 19, 0x130, 0x0, 1, 0x0, 0xffffffff, 0x0, 0x0, 0x0, 0x0⟩
/-- FAB_CTRL: spec 06 Table 6-10. -/
def FAB_CTRL : Reg := ⟨70, 3, 0x100, 0x0, 1, 0x1000000, 0xffff0087, 0x0, 0x0, 0x0, 0x0⟩
/-- FAB_STATUS: spec 06 Table 6-11. -/
def FAB_STATUS : Reg := ⟨71, 3, 0x108, 0x0, 1, 0x0, 0x0, 0x0, 0x3, 0xffffffffffffff00, 0x0⟩
/-- FAB_TMO: spec 06 Table 6-12. -/
def FAB_TMO : Reg := ⟨72, 3, 0x110, 0x0, 1, 0x64, 0xffff, 0x0, 0x0, 0x0, 0x0⟩
/-- FAB_TBL_SEL: spec 06 Table 6-13. -/
def FAB_TBL_SEL : Reg := ⟨73, 3, 0x118, 0x0, 1, 0x0, 0xe0ff, 0x0, 0x0, 0x0, 0x0⟩
/-- FAB_TBL_DATA: spec 06 Table 6-14. -/
def FAB_TBL_DATA : Reg := ⟨74, 3, 0x120, 0x0, 1, 0x0, 0xffffffff, 0x0, 0x0, 0x0, 0x0⟩
/-- FAB_DRAIN_CTRL: spec 06 Table 6-15. -/
def FAB_DRAIN_CTRL : Reg := ⟨75, 3, 0x128, 0x0, 1, 0x400408, 0xfffffa, 0x1, 0x0, 0x0, 0x0⟩
/-- FAB_DRAIN_STATUS: spec 06 Table 6-16. -/
def FAB_DRAIN_STATUS : Reg := ⟨76, 3, 0x130, 0x0, 1, 0x0, 0x0, 0x0, 0x8, 0x0, 0x0⟩
/-- FAB_DRAIN_SUM: spec 06 Table 6-17. -/
def FAB_DRAIN_SUM : Reg := ⟨77, 3, 0x138, 0x0, 1, 0x0, 0x0, 0x0, 0x0, 0x0, 0x0⟩
/-- FAB_DRAIN_MASK: spec 06 Table 6-18. -/
def FAB_DRAIN_MASK : Reg := ⟨78, 3, 0x140, 0x8, 4, 0xffffffffffffffff, 0xffffffffffffffff, 0x0, 0x0, 0x0, 0x0⟩
/-- FAB_ECNT: spec 06 Table 6-19. -/
def FAB_ECNT : Reg := ⟨79, 3, 0x160, 0x8, 2, 0x0, 0x0, 0x0, 0x0, 0x0, 0x0⟩
/-- FAB_UNATTR: spec 06 Table 6-20. -/
def FAB_UNATTR : Reg := ⟨80, 3, 0x170, 0x0, 1, 0x0, 0x0, 0x0, 0x0, 0x0, 0x0⟩
/-- FAB_PORT_FLITS: spec 06 Table 6-21. -/
def FAB_PORT_FLITS : Reg := ⟨81, 3, 0x200, 0x20, 7, 0x0, 0x0, 0x0, 0x0, 0xffffffffffffffff, 0x0⟩
/-- FAB_PORT_STALL: spec 06 Table 6-22. -/
def FAB_PORT_STALL : Reg := ⟨82, 3, 0x208, 0x20, 7, 0x0, 0x0, 0x0, 0x0, 0xffffffffffffffff, 0x0⟩
/-- FAB_PORT_ERR: spec 06 Table 6-23. -/
def FAB_PORT_ERR : Reg := ⟨83, 3, 0x210, 0x20, 7, 0x0, 0x0, 0x0, 0x0, 0xffffffffffffffff, 0x0⟩
/-- FAB_PORT_OCC: spec 06 Table 6-24. -/
def FAB_PORT_OCC : Reg := ⟨84, 3, 0x218, 0x20, 7, 0x0, 0x0, 0x0, 0x0, 0xffff000000000000, 0x0⟩
/-- HBM_CTRL: spec 08 Table 8-7. -/
def HBM_CTRL : Reg := ⟨85, 5, 0x100, 0x0, 1, 0x320006, 0xffff0077, 0x8, 0x0, 0x0, 0x0⟩
/-- HBM_STATUS: spec 08 Table 8-8. -/
def HBM_STATUS : Reg := ⟨86, 5, 0x108, 0x0, 1, 0x0, 0x0, 0x0, 0x0, 0x0, 0x0⟩
/-- HBM_CHMAP: spec 08 Table 8-6. -/
def HBM_CHMAP : Reg := ⟨87, 5, 0x110, 0x8, 4, 0x0, 0x0, 0x0, 0x0, 0x0, 0x0⟩
/-- HBM_ECC: spec 08 Table 8-9. -/
def HBM_ECC : Reg := ⟨88, 5, 0x130, 0x0, 1, 0x0, 0x0, 0x0, 0x0, 0xffffff0000000000, 0x0⟩
/-- HBM_STG_CFG: spec 08 Table 8-10. -/
def HBM_STG_CFG : Reg := ⟨89, 5, 0x140, 0x8, 2, 0x0, 0xffffffffffc1ffff, 0x0, 0x0, 0x0, 0x0⟩
/-- HBM_STG_FREE: spec 08 Table 8-11. -/
def HBM_STG_FREE : Reg := ⟨90, 5, 0x150, 0x0, 1, 0x0, 0x0, 0x1f, 0x0, 0x0, 0x0⟩
/-- HBM_STRM_STATUS: spec 08 Table 8-12. -/
def HBM_STRM_STATUS : Reg := ⟨91, 5, 0x158, 0x0, 1, 0x0, 0x0, 0x0, 0x0, 0xffffffffffff00ff, 0x0⟩
/-- HBM_DESC_SEL: spec 08 Table 8-13. -/
def HBM_DESC_SEL : Reg := ⟨92, 5, 0x160, 0x0, 1, 0x0, 0x3fff, 0x0, 0x0, 0x0, 0x0⟩
/-- HBM_DESC_DATA: spec 08 Table 8-2, 8-6. -/
def HBM_DESC_DATA : Reg := ⟨93, 5, 0x168, 0x0, 1, 0x0, 0xffffffffffffffff, 0x0, 0x0, 0x0, 0x0⟩
/-- HBM_SPARE_CTRL: spec 08 Table 8-14. -/
def HBM_SPARE_CTRL : Reg := ⟨94, 5, 0x170, 0x0, 1, 0x20, 0x1fe0, 0x1, 0x0, 0x0, 0x0⟩
/-- CEL_CTRL: spec 08 Table 8-15. -/
def CEL_CTRL : Reg := ⟨95, 6, 0x100, 0x0, 1, 0x2, 0x3, 0xc, 0x0, 0x0, 0x0⟩
/-- CEL_STATUS: spec 08 Table 8-16. -/
def CEL_STATUS : Reg := ⟨96, 6, 0x108, 0x0, 1, 0x0, 0x0, 0x0, 0x0, 0x0, 0x0⟩
/-- CEL_ECC: spec 08 Table 8-9. -/
def CEL_ECC : Reg := ⟨97, 6, 0x110, 0x0, 1, 0x0, 0x0, 0x0, 0x0, 0xffffff0000000000, 0x0⟩
/-- CMD_CTRL: spec 09 Table 9-18. -/
def CMD_CTRL : Reg := ⟨98, 9, 0x100, 0x0, 1, 0x0, 0x7, 0x8, 0x0, 0x0, 0x0⟩
/-- CMD_STATUS: spec 09 Table 9-19. -/
def CMD_STATUS : Reg := ⟨99, 9, 0x108, 0x0, 1, 0x0, 0x0, 0x0, 0x0, 0xffffffff0000, 0x0⟩
/-- CMD_RING_CFG: spec 09 Table 9-20. -/
def CMD_RING_CFG : Reg := ⟨100, 9, 0x110, 0x0, 1, 0x0, 0xfff, 0x0, 0x0, 0x0, 0x0⟩
/-- CMD_RING_HEAD: spec 09 Table 9-21. -/
def CMD_RING_HEAD : Reg := ⟨101, 9, 0x118, 0x0, 1, 0x4000, 0x0, 0x0, 0x0, 0x0, 0x0⟩
/-- CMD_COUNT: spec 09 Table 9-22. -/
def CMD_COUNT : Reg := ⟨102, 9, 0x120, 0x0, 1, 0x0, 0x0, 0x0, 0x0, 0x0, 0x0⟩
/-- CMD_HRING_BASE: spec 09 Table 9-23. -/
def CMD_HRING_BASE : Reg := ⟨103, 9, 0x140, 0x20, 3, 0x0, 0xfffffffffff000, 0x0, 0x0, 0x0, 0x0⟩
/-- CMD_HRING_CFG: spec 09 Table 9-24. -/
def CMD_HRING_CFG : Reg := ⟨104, 9, 0x148, 0x20, 3, 0x0, 0x8f, 0x40, 0x100, 0xffffffff00000000, 0x0⟩
/-- CMD_HRING_HEAD: spec 09 Table 9-25. -/
def CMD_HRING_HEAD : Reg := ⟨105, 9, 0x150, 0x20, 3, 0x0, 0x7fffff, 0x0, 0x0, 0x0, 0x0⟩
/-- CMD_HRING_TAIL: spec 09 Table 9-25. -/
def CMD_HRING_TAIL : Reg := ⟨106, 9, 0x158, 0x20, 3, 0x0, 0x0, 0x0, 0x0, 0x0, 0x0⟩
/-- CMD_PAIR_CTRL: spec 10 Table 10-16. -/
def CMD_PAIR_CTRL : Reg := ⟨107, 9, 0x200, 0x0, 1, 0x3e8006400000000, 0xffffffff00000000, 0x7, 0x0, 0x0, 0x0⟩
/-- CMD_PAIR_STATUS: spec 10 Table 10-17. -/
def CMD_PAIR_STATUS : Reg := ⟨108, 9, 0x208, 0x0, 1, 0x700, 0x0, 0x0, 0x0, 0x0, 0xffffffff00000000⟩
/-- CMD_PAIR_AGE: spec 10 Table 10-18. -/
def CMD_PAIR_AGE : Reg := ⟨109, 9, 0x210, 0x0, 1, 0xffffffffffffffff, 0x0, 0x0, 0x0, 0x0, 0x0⟩
/-- CMD_PAIR_MSEQ: spec 10 Table 10-18. -/
def CMD_PAIR_MSEQ : Reg := ⟨110, 9, 0x218, 0x0, 1, 0x0, 0x0, 0x0, 0x0, 0x0, 0x0⟩
/-- CMD_PAIR_IGN: spec 10 Table 10-19. -/
def CMD_PAIR_IGN : Reg := ⟨111, 9, 0x220, 0x0, 1, 0x0, 0x0, 0x0, 0x0, 0xffffffff00000000, 0x0⟩
/-- CMD_STEP_TIME: spec 15 Table 15-3. -/
def CMD_STEP_TIME : Reg := ⟨112, 9, 0x300, 0x0, 1, 0x0, 0x0, 0x0, 0x0, 0xffffff0000000000, 0x0⟩
/-- CMD_DL_MARGIN: spec 15 Table 15-3. -/
def CMD_DL_MARGIN : Reg := ⟨113, 9, 0x308, 0x0, 1, 0x7fffffff00000000, 0x0, 0x0, 0x0, 0xffffffff0000ffff, 0x0⟩
/-- CMD_STEP_CFG: spec 09 Table 9-31. -/
def CMD_STEP_CFG : Reg := ⟨114, 9, 0x310, 0x0, 1, 0x0, 0xffff007fffff, 0x0, 0x0, 0xffff000000000000, 0x0⟩
/-- JNL_STATUS: spec 09 Table 9-26. -/
def JNL_STATUS : Reg := ⟨115, 10, 0x100, 0x0, 1, 0x0, 0x0, 0x0, 0x0, 0x0, 0x0⟩
/-- JNL_NEXT_SEQ: spec 09 Table 9-27. -/
def JNL_NEXT_SEQ : Reg := ⟨116, 10, 0x108, 0x0, 1, 0x1, 0x0, 0x0, 0x0, 0x0, 0x0⟩
/-- JNL_MIRROR_SEQ: spec 09 Table 9-27. -/
def JNL_MIRROR_SEQ : Reg := ⟨117, 10, 0x110, 0x0, 1, 0x0, 0x0, 0x0, 0x0, 0x0, 0x0⟩
/-- UCI_CTRL: spec 09 Table 9-28. -/
def UCI_CTRL : Reg := ⟨118, 8, 0x100, 0x0, 1, 0x0, 0x4, 0x2, 0x0, 0x0, 0x0⟩
/-- UCI_STATUS: spec 09 Table 9-29. -/
def UCI_STATUS : Reg := ⟨119, 8, 0x108, 0x0, 1, 0x0, 0x0, 0x0, 0x0, 0xfffffffffff00000, 0x0⟩
/-- LNK_CTRL: spec 10 Table 10-11. -/
def LNK_CTRL : Reg := ⟨120, 7, 0x100, 0x0, 1, 0x400000, 0xff0f09, 0xc0, 0x0, 0x0, 0x0⟩
/-- LNK_STATUS: spec 10 Table 10-12. -/
def LNK_STATUS : Reg := ⟨121, 7, 0x108, 0x0, 1, 0x700000000000, 0x0, 0x0, 0x0, 0xffff000000000000, 0x0⟩
/-- LNK_LANE: spec 10 Table 10-13. -/
def LNK_LANE : Reg := ⟨122, 7, 0x110, 0x0, 1, 0x0, 0x0, 0x0, 0x0, 0x0, 0x0⟩
/-- LNK_ERR: spec 10 Table 10-14. -/
def LNK_ERR : Reg := ⟨123, 7, 0x118, 0x0, 1, 0x0, 0x0, 0x0, 0x0, 0xfffffffffffffff0, 0x0⟩
/-- LNK_FWD_SEL: spec 10 Table 10-15. -/
def LNK_FWD_SEL : Reg := ⟨124, 7, 0x120, 0x0, 1, 0x0, 0xff, 0x0, 0x0, 0x0, 0x0⟩
/-- LNK_FWD_DATA: spec 10 Table 10-15. -/
def LNK_FWD_DATA : Reg := ⟨125, 7, 0x128, 0x0, 1, 0x0, 0xffff0000, 0x0, 0x0, 0x0, 0x0⟩
/-- FLD_RAIL_STATUS: spec 11 Table 11-11. -/
def FLD_RAIL_STATUS : Reg := ⟨126, 4, 0x200, 0x0, 1, 0x140000000000, 0x0, 0x0, 0x0, 0x0, 0x0⟩
/-- FLD_RAIL_LIMIT: spec 11 Table 11-12. -/
def FLD_RAIL_LIMIT : Reg := ⟨127, 4, 0x208, 0x0, 1, 0x6e9600, 0x0, 0x0, 0x0, 0x0, 0x0⟩
/-- FLD_FSC_STATUS: spec 11 Table 11-13. -/
def FLD_FSC_STATUS : Reg := ⟨128, 4, 0x210, 0x0, 1, 0x0, 0x0, 0x0, 0x0, 0xffff000000000000, 0x0⟩
/-- FLD_FABLDO: spec 11 Table 11-14. -/
def FLD_FABLDO : Reg := ⟨129, 4, 0x218, 0x0, 1, 0x0, 0x0, 0x0, 0x0, 0x0, 0x33⟩
/-- FLD_LDO: spec 11 Table 11-15. -/
def FLD_LDO : Reg := ⟨130, 4, 0x240, 0x8, 16, 0x0, 0x0, 0x0, 0x0, 0x0, 0x70000000000⟩
/-- FLD_CLK: spec 14 Table 14-12. -/
def FLD_CLK : Reg := ⟨131, 4, 0x300, 0x0, 1, 0x0, 0x0, 0x0, 0x0, 0x0, 0x3c⟩
/-- PWR_CTRL: spec 12 Table 12-9. -/
def PWR_CTRL : Reg := ⟨132, 17, 0x100, 0x0, 1, 0x6, 0x6, 0x0, 0x0, 0x0, 0x0⟩
/-- PWR_EST: spec 12 Table 12-10. -/
def PWR_EST : Reg := ⟨133, 17, 0x108, 0x0, 1, 0x0, 0x0, 0x0, 0x0, 0x0, 0x0⟩
/-- PWR_CAP: spec 12 Table 12-11. -/
def PWR_CAP : Reg := ⟨134, 17, 0x110, 0x0, 1, 0x0, 0xffff, 0x0, 0x0, 0x0, 0x0⟩
/-- PWR_SLOPE: spec 12 Table 12-12. -/
def PWR_SLOPE : Reg := ⟨135, 17, 0x118, 0x0, 1, 0x32, 0x1ff, 0x0, 0x0, 0x0, 0x0⟩
/-- PWR_SLOT: spec 12 Table 12-12. -/
def PWR_SLOT : Reg := ⟨136, 17, 0x120, 0x0, 1, 0x0, 0xffff000000000000, 0x0, 0x0, 0x0, 0x0⟩
/-- PWR_CURTAIL: spec 12 Table 12-12. -/
def PWR_CURTAIL : Reg := ⟨137, 17, 0x128, 0x0, 1, 0x300000000, 0xffff00000000, 0x0, 0x0, 0xffffff00, 0x0⟩
/-- PWR_FLOOR: spec 12 Table 12-14. -/
def PWR_FLOOR : Reg := ⟨138, 17, 0x130, 0x0, 1, 0x0, 0x0, 0x0, 0x0, 0xffffffffffffffff, 0x0⟩
/-- PWR_CONFLICT: spec 12 Table 12-14. -/
def PWR_CONFLICT : Reg := ⟨139, 17, 0x138, 0x0, 1, 0x0, 0x0, 0x0, 0x0, 0xffffffffffffffff, 0x0⟩
/-- PWR_PREF_SEL: spec 12 Table 12-13. -/
def PWR_PREF_SEL : Reg := ⟨140, 17, 0x140, 0x0, 1, 0x0, 0x3f, 0x0, 0x0, 0x0, 0x0⟩
/-- PWR_PREF_DATA: spec 12 Table 12-13. -/
def PWR_PREF_DATA : Reg := ⟨141, 17, 0x148, 0x0, 1, 0x1, 0x3f07, 0x0, 0x0, 0x0, 0x0⟩
/-- PWR_CAPTBL: spec 12 Table 12-8. -/
def PWR_CAPTBL : Reg := ⟨142, 17, 0x180, 0x8, 8, 0x0, 0x0, 0x0, 0x0, 0x0, 0x0⟩
/-- PWR_RAIL_STATUS: spec 11 Table 11-16. -/
def PWR_RAIL_STATUS : Reg := ⟨143, 17, 0x700, 0x0, 1, 0x0, 0x0, 0x0, 0x0, 0x0, 0xffff0000⟩
/-- PWR_FIELD_LOSS: spec 11 Table 11-17. -/
def PWR_FIELD_LOSS : Reg := ⟨144, 17, 0x708, 0x0, 1, 0x0, 0x0, 0x0, 0x0, 0x0, 0xff03⟩
/-- THM_STATUS: spec 12 Table 12-15. -/
def THM_STATUS : Reg := ⟨145, 18, 0x100, 0x0, 1, 0x0, 0x0, 0x0, 0x0, 0x0, 0xffff0100⟩
/-- THM_CLU: spec 12 Table 12-16. -/
def THM_CLU : Reg := ⟨146, 18, 0x200, 0x8, 16, 0xf824000000, 0x0, 0x0, 0x0, 0xffff, 0xf000000000⟩
/-- PCH_PSTATE_CTRL: spec 13 Table 13-10. -/
def PCH_PSTATE_CTRL : Reg := ⟨147, 11, 0x100, 0x0, 1, 0x0, 0x7, 0x0, 0x0, 0x0, 0x0⟩
/-- PCH_PSTATE_STATUS: spec 13 Table 13-11. -/
def PCH_PSTATE_STATUS : Reg := ⟨148, 11, 0x108, 0x0, 1, 0x0, 0x0, 0x0, 0x80, 0xffff0000, 0x0⟩
/-- PCH_WAKE_CTRL: spec 13 Table 13-12. -/
def PCH_WAKE_CTRL : Reg := ⟨149, 11, 0x110, 0x0, 1, 0x3, 0x7, 0x0, 0x0, 0x0, 0x0⟩
/-- PCH_WAKE_AT: spec 13 Table 13-12. -/
def PCH_WAKE_AT : Reg := ⟨150, 11, 0x118, 0x0, 1, 0x0, 0xffffffffffffffff, 0x0, 0x0, 0x0, 0x0⟩
/-- PCH_DOM_STATE: spec 13 Table 13-13. -/
def PCH_DOM_STATE : Reg := ⟨151, 11, 0x200, 0x8, 20, 0x0, 0x0, 0x0, 0x0, 0x0, 0x0⟩
/-- TIM_CTRL: spec 14 Table 14-7. -/
def TIM_CTRL : Reg := ⟨152, 14, 0x100, 0x0, 1, 0x30000000000040, 0xfff00000000000fd, 0x0, 0x0, 0x0, 0x0⟩
/-- TIM_STATUS: spec 14 Table 14-8. -/
def TIM_STATUS : Reg := ⟨153, 14, 0x108, 0x0, 1, 0x0, 0x0, 0x0, 0x0, 0xffffffff00000000, 0x0⟩
/-- TIM_NT: spec 14 Table 14-6. -/
def TIM_NT : Reg := ⟨154, 14, 0x110, 0x0, 1, 0x0, 0x0, 0x0, 0x0, 0x0, 0x0⟩
/-- TIM_NT_FRAC: spec 14 Table 14-6. -/
def TIM_NT_FRAC : Reg := ⟨155, 14, 0x118, 0x0, 1, 0x0, 0x0, 0x0, 0x0, 0x0, 0x0⟩
/-- TIM_SERVO: spec 14 Table 14-9. -/
def TIM_SERVO : Reg := ⟨156, 14, 0x120, 0x0, 1, 0x640401, 0xffff0f0f, 0x0, 0x0, 0x0, 0x0⟩
/-- TIM_PATH: spec 14 Table 14-10. -/
def TIM_PATH : Reg := ⟨157, 14, 0x128, 0x0, 1, 0x0, 0x0, 0x0, 0x0, 0x0, 0x0⟩
/-- TIM_MASTER: spec 14 Table 14-6. -/
def TIM_MASTER : Reg := ⟨158, 14, 0x130, 0x0, 1, 0x0, 0x0, 0x0, 0x0, 0x0, 0x0⟩
/-- TIM_MAC: spec 14 Table 14-6. -/
def TIM_MAC : Reg := ⟨159, 14, 0x138, 0x0, 1, 0x0, 0xffffffffffff, 0x0, 0x0, 0x0, 0x0⟩
/-- TIM_IPV4: spec 14 Table 14-6. -/
def TIM_IPV4 : Reg := ⟨160, 14, 0x140, 0x0, 1, 0x0, 0xffffffff, 0x0, 0x0, 0x0, 0x0⟩
/-- TIM_ASYM: spec 14 Table 14-6. -/
def TIM_ASYM : Reg := ⟨161, 14, 0x148, 0x0, 1, 0x0, 0xffffffffffffffff, 0x0, 0x0, 0x0, 0x0⟩
/-- TIM_PPS: spec 14 Table 14-11. -/
def TIM_PPS : Reg := ⟨162, 14, 0x150, 0x0, 1, 0x64, 0x1ff, 0x0, 0x0, 0xffffffff00000000, 0x0⟩
/-- BSQ_CTRL: spec 16 Table 16-19. -/
def BSQ_CTRL : Reg := ⟨163, 12, 0x100, 0x0, 1, 0x0, 0x2, 0x8, 0x0, 0x0, 0x0⟩
/-- BSQ_STATUS: spec 16 Table 16-20. -/
def BSQ_STATUS : Reg := ⟨164, 12, 0x108, 0x0, 1, 0x1, 0x0, 0x0, 0x0, 0x0, 0x0⟩
/-- BSQ_GRADE: spec 16 Table 16-21. -/
def BSQ_GRADE : Reg := ⟨165, 12, 0x110, 0x0, 1, 0x7, 0x0, 0x0, 0x0, 0x0, 0x0⟩
/-- BSQ_DEFECTS: spec 16 Table 16-18. -/
def BSQ_DEFECTS : Reg := ⟨166, 12, 0x118, 0x0, 1, 0x0, 0x0, 0x0, 0x0, 0x0, 0xffffffffffffffff⟩
/-- BSQ_DIGEST: spec 16 Table 16-18. -/
def BSQ_DIGEST : Reg := ⟨167, 12, 0x120, 0x8, 4, 0x0, 0x0, 0x0, 0x0, 0x0, 0x0⟩
/-- BSQ_NVM_CTRL: spec 16 Table 16-22. -/
def BSQ_NVM_CTRL : Reg := ⟨168, 12, 0x140, 0x0, 1, 0x0, 0xffffffff0000000e, 0x1, 0x10, 0x0, 0x0⟩
/-- BSQ_FLASH_BUF: spec 16 Table 16-18. -/
def BSQ_FLASH_BUF : Reg := ⟨169, 12, 0x1000, 0x8, 512, 0x0, 0xffffffffffffffff, 0x0, 0x0, 0x0, 0x0⟩
/-- SEC_SVN: spec 16 Table 16-23. -/
def SEC_SVN : Reg := ⟨170, 13, 0x100, 0x0, 1, 0x0, 0x0, 0x1, 0x4, 0x0, 0x0⟩
/-- SEC_ATT_CTRL: spec 16 Table 16-24. -/
def SEC_ATT_CTRL : Reg := ⟨171, 13, 0x108, 0x0, 1, 0x10000000000000, 0xffffff00000000, 0x1, 0xc, 0x0, 0x0⟩
/-- SEC_ATT_NONCE: spec 16 Table 16-18. -/
def SEC_ATT_NONCE : Reg := ⟨172, 13, 0x110, 0x8, 4, 0x0, 0xffffffffffffffff, 0x0, 0x0, 0x0, 0x0⟩
/-- SEC_IDREC: spec 16 Table 16-14. -/
def SEC_IDREC : Reg := ⟨173, 13, 0x1000, 0x8, 471, 0x0, 0x0, 0x0, 0x0, 0x0, 0x0⟩
/-- NWT_CTRL: spec 18 Table 18-10. -/
def NWT_CTRL : Reg := ⟨174, 15, 0x100, 0x0, 1, 0x1417, 0xff1f, 0x0, 0x0, 0x0, 0x0⟩
/-- NWT_STATUS: spec 18 Table 18-11. -/
def NWT_STATUS : Reg := ⟨175, 15, 0x108, 0x0, 1, 0x0, 0x0, 0x0, 0x0, 0x0, 0x8⟩
/-- NWT_REQ: spec 18 Table 18-12. -/
def NWT_REQ : Reg := ⟨176, 15, 0x110, 0x0, 1, 0x0, 0x0, 0x7ff1f, 0x0, 0x0, 0x0⟩
/-- NWT_MAP_SEL: spec 18 Table 18-13. -/
def NWT_MAP_SEL : Reg := ⟨177, 15, 0x118, 0x0, 1, 0x0, 0xff, 0x0, 0x0, 0x0, 0x0⟩
/-- NWT_MAP_DATA: spec 18 Table 18-13. -/
def NWT_MAP_DATA : Reg := ⟨178, 15, 0x120, 0x0, 1, 0x0, 0x0, 0x0, 0x0, 0x0, 0x0⟩
/-- NWT_COUNT: spec 18 Table 18-14. -/
def NWT_COUNT : Reg := ⟨179, 15, 0x128, 0x0, 1, 0x0, 0x0, 0x0, 0x0, 0xffffffffffff0000, 0x0⟩
/-- SKK_CTRL: spec 18 Table 18-17. -/
def SKK_CTRL : Reg := ⟨180, 16, 0x100, 0x0, 1, 0x3840a1003e8000f, 0xffffffffffff000f, 0x0, 0x0, 0x0, 0x0⟩
/-- SKK_STATUS: spec 18 Table 18-18. -/
def SKK_STATUS : Reg := ⟨181, 16, 0x108, 0x0, 1, 0x0, 0x0, 0x0, 0x0, 0xffffffff, 0x0⟩
/-- SKK_COUNT: spec 18 Table 18-18. -/
def SKK_COUNT : Reg := ⟨182, 16, 0x110, 0x0, 1, 0x0, 0x0, 0x0, 0x0, 0xffffffffffffffff, 0x0⟩
/-- SKK_OBS_SEL: spec 18 Table 18-19. -/
def SKK_OBS_SEL : Reg := ⟨183, 16, 0x118, 0x0, 1, 0x0, 0xff, 0x0, 0x0, 0x0, 0x0⟩
/-- SKK_OBS_DATA: spec 18 Table 18-19. -/
def SKK_OBS_DATA : Reg := ⟨184, 16, 0x120, 0x0, 1, 0x0, 0x0, 0x0, 0x0, 0x0, 0x0⟩

end R

/-- Registers of the map, part 0. -/
def regsPart0 : List Reg := [R.EVT_STATUS, R.EVT_ENABLE, R.EVT_ACK, R.BLOCK_ID, R.EVT_HIST0, R.EVT_HIST1, R.FLD_PG_STATUS, R.FLD_HW_CTRL, R.FLD_HW_STATUS, R.FLD_HW_REMAP_SEL, R.FLD_HW_REMAP_DATA, R.COR_CTRL, R.COR_STATUS, R.COR_FMAX, R.COR_CHK_CTRL, R.COR_CHK_STATUS, R.COR_ECC_STATUS, R.COR_ECC_ADDR, R.COR_FP_CTRL, R.COR_FP_FLAGS, R.COR_SEQ_ERR, R.COR_SEQ_STATUS, R.COR_STALL_CNT, R.COR_QCTRL, R.COR_QGEN, R.COR_MSG_STATUS, R.COR_WAIT_TMO, R.COR_CLK, R.COR_AGE, R.COR_SCALAR, R.COR_PRED, R.COR_LOOP, R.COR_DESC0, R.COR_DESC1, R.COR_SEM, R.COR_QENTRY, R.COR_CHAN0, R.COR_CHAN1, R.CLU_ZSK_CTRL, R.CLU_ZSK_STATUS]
/-- Registers of the map, part 1. -/
def regsPart1 : List Reg := [R.CLU_UNIT_CTRL, R.CLU_UNIT_STATUS, R.CLU_ASU_CTRL, R.CLU_ASU_STATE, R.CLU_ASU_STATUS, R.CLU_MESH_CTRL, R.CLU_MSG_CTRL, R.CLU_MSG_STATUS, R.CLU_CST_STATUS, R.CLU_PWR, R.CLU_SLEEP, R.CLU_RING_CFG, R.CLU_RING_HEAD, R.CLU_RING_TAIL, R.CLU_RING_STATUS, R.CLU_SEM, R.CLU_CST0, R.CLU_CST1, R.CLU_CORE_MAP, R.CLU_REDIRECT, R.CLU_CHAN0, R.CLU_CHAN1, R.TRN_CTRL, R.TRN_STATUS, R.TRN_COUNT0, R.TRN_COUNT1, R.TRN_STALL, R.TRN_TBL_SEL, R.TRN_TBL_DATA, R.FAB_CTRL, R.FAB_STATUS, R.FAB_TMO, R.FAB_TBL_SEL, R.FAB_TBL_DATA, R.FAB_DRAIN_CTRL, R.FAB_DRAIN_STATUS, R.FAB_DRAIN_SUM, R.FAB_DRAIN_MASK, R.FAB_ECNT, R.FAB_UNATTR]
/-- Registers of the map, part 2. -/
def regsPart2 : List Reg := [R.FAB_PORT_FLITS, R.FAB_PORT_STALL, R.FAB_PORT_ERR, R.FAB_PORT_OCC, R.HBM_CTRL, R.HBM_STATUS, R.HBM_CHMAP, R.HBM_ECC, R.HBM_STG_CFG, R.HBM_STG_FREE, R.HBM_STRM_STATUS, R.HBM_DESC_SEL, R.HBM_DESC_DATA, R.HBM_SPARE_CTRL, R.CEL_CTRL, R.CEL_STATUS, R.CEL_ECC, R.CMD_CTRL, R.CMD_STATUS, R.CMD_RING_CFG, R.CMD_RING_HEAD, R.CMD_COUNT, R.CMD_HRING_BASE, R.CMD_HRING_CFG, R.CMD_HRING_HEAD, R.CMD_HRING_TAIL, R.CMD_PAIR_CTRL, R.CMD_PAIR_STATUS, R.CMD_PAIR_AGE, R.CMD_PAIR_MSEQ, R.CMD_PAIR_IGN, R.CMD_STEP_TIME, R.CMD_DL_MARGIN, R.CMD_STEP_CFG, R.JNL_STATUS, R.JNL_NEXT_SEQ, R.JNL_MIRROR_SEQ, R.UCI_CTRL, R.UCI_STATUS, R.LNK_CTRL]
/-- Registers of the map, part 3. -/
def regsPart3 : List Reg := [R.LNK_STATUS, R.LNK_LANE, R.LNK_ERR, R.LNK_FWD_SEL, R.LNK_FWD_DATA, R.FLD_RAIL_STATUS, R.FLD_RAIL_LIMIT, R.FLD_FSC_STATUS, R.FLD_FABLDO, R.FLD_LDO, R.FLD_CLK, R.PWR_CTRL, R.PWR_EST, R.PWR_CAP, R.PWR_SLOPE, R.PWR_SLOT, R.PWR_CURTAIL, R.PWR_FLOOR, R.PWR_CONFLICT, R.PWR_PREF_SEL, R.PWR_PREF_DATA, R.PWR_CAPTBL, R.PWR_RAIL_STATUS, R.PWR_FIELD_LOSS, R.THM_STATUS, R.THM_CLU, R.PCH_PSTATE_CTRL, R.PCH_PSTATE_STATUS, R.PCH_WAKE_CTRL, R.PCH_WAKE_AT, R.PCH_DOM_STATE, R.TIM_CTRL, R.TIM_STATUS, R.TIM_NT, R.TIM_NT_FRAC, R.TIM_SERVO, R.TIM_PATH, R.TIM_MASTER, R.TIM_MAC, R.TIM_IPV4]
/-- Registers of the map, part 4. -/
def regsPart4 : List Reg := [R.TIM_ASYM, R.TIM_PPS, R.BSQ_CTRL, R.BSQ_STATUS, R.BSQ_GRADE, R.BSQ_DEFECTS, R.BSQ_DIGEST, R.BSQ_NVM_CTRL, R.BSQ_FLASH_BUF, R.SEC_SVN, R.SEC_ATT_CTRL, R.SEC_ATT_NONCE, R.SEC_IDREC, R.NWT_CTRL, R.NWT_STATUS, R.NWT_REQ, R.NWT_MAP_SEL, R.NWT_MAP_DATA, R.NWT_COUNT, R.SKK_CTRL, R.SKK_STATUS, R.SKK_COUNT, R.SKK_OBS_SEL, R.SKK_OBS_DATA]

/-- Every register of the map. -/
def allRegs : List Reg := regsPart0 ++ regsPart1 ++ regsPart2 ++ regsPart3 ++ regsPart4

namespace F

abbrev EVT_STATUS_REPEATS : Fld := ⟨R.EVT_STATUS, 48, 16⟩
abbrev EVT_STATUS_UNDELIVERED : Fld := ⟨R.EVT_STATUS, 44, 4⟩
abbrev EVT_STATUS_ANY : Fld := ⟨R.EVT_STATUS, 43, 1⟩
abbrev EVT_STATUS_LEVEL : Fld := ⟨R.EVT_STATUS, 40, 3⟩
abbrev EVT_STATUS_NEWEST : Fld := ⟨R.EVT_STATUS, 32, 3⟩
abbrev EVT_STATUS_PENDING : Fld := ⟨R.EVT_STATUS, 1, 31⟩
abbrev EVT_ENABLE_DELIVER : Fld := ⟨R.EVT_ENABLE, 1, 31⟩
abbrev EVT_ACK_ALL : Fld := ⟨R.EVT_ACK, 63, 1⟩
abbrev EVT_ACK_ACK : Fld := ⟨R.EVT_ACK, 1, 31⟩
abbrev BLOCK_ID_ID : Fld := ⟨R.BLOCK_ID, 0, 64⟩
abbrev EVT_HIST0_NT : Fld := ⟨R.EVT_HIST0, 0, 64⟩
abbrev EVT_HIST1_SEQ : Fld := ⟨R.EVT_HIST1, 56, 8⟩
abbrev EVT_HIST1_CLASS : Fld := ⟨R.EVT_HIST1, 48, 8⟩
abbrev EVT_HIST1_LEVEL : Fld := ⟨R.EVT_HIST1, 45, 3⟩
abbrev EVT_HIST1_ESC : Fld := ⟨R.EVT_HIST1, 44, 1⟩
abbrev EVT_HIST1_SKINK : Fld := ⟨R.EVT_HIST1, 43, 1⟩
abbrev EVT_HIST1_REPEAT : Fld := ⟨R.EVT_HIST1, 42, 1⟩
abbrev EVT_HIST1_DELIVERED : Fld := ⟨R.EVT_HIST1, 41, 1⟩
abbrev EVT_HIST1_VALID : Fld := ⟨R.EVT_HIST1, 40, 1⟩
abbrev EVT_HIST1_DETAIL : Fld := ⟨R.EVT_HIST1, 0, 32⟩
abbrev FLD_PG_STATUS_CLAMP : Fld := ⟨R.FLD_PG_STATUS, 5, 4⟩
abbrev FLD_PG_STATUS_NEIGH_PG : Fld := ⟨R.FLD_PG_STATUS, 1, 4⟩
abbrev FLD_PG_STATUS_OWN_PG : Fld := ⟨R.FLD_PG_STATUS, 0, 1⟩
abbrev FLD_HW_CTRL_APPLY : Fld := ⟨R.FLD_HW_CTRL, 3, 1⟩
abbrev FLD_HW_CTRL_TEST : Fld := ⟨R.FLD_HW_CTRL, 2, 1⟩
abbrev FLD_HW_CTRL_QUIESCE : Fld := ⟨R.FLD_HW_CTRL, 1, 1⟩
abbrev FLD_HW_CTRL_HOLD : Fld := ⟨R.FLD_HW_CTRL, 0, 1⟩
abbrev FLD_HW_STATUS_DISCARDS : Fld := ⟨R.FLD_HW_STATUS, 48, 16⟩
abbrev FLD_HW_STATUS_BAD_IN : Fld := ⟨R.FLD_HW_STATUS, 16, 8⟩
abbrev FLD_HW_STATUS_BAD_OUT : Fld := ⟨R.FLD_HW_STATUS, 8, 8⟩
abbrev FLD_HW_STATUS_TEST_FAIL : Fld := ⟨R.FLD_HW_STATUS, 4, 1⟩
abbrev FLD_HW_STATUS_APPLY_REJ : Fld := ⟨R.FLD_HW_STATUS, 3, 1⟩
abbrev FLD_HW_STATUS_FAILED : Fld := ⟨R.FLD_HW_STATUS, 2, 1⟩
abbrev FLD_HW_STATUS_STATE : Fld := ⟨R.FLD_HW_STATUS, 0, 2⟩
abbrev FLD_HW_REMAP_SEL_TABLE : Fld := ⟨R.FLD_HW_REMAP_SEL, 10, 1⟩
abbrev FLD_HW_REMAP_SEL_BUNDLE : Fld := ⟨R.FLD_HW_REMAP_SEL, 4, 6⟩
abbrev FLD_HW_REMAP_SEL_DIR : Fld := ⟨R.FLD_HW_REMAP_SEL, 3, 1⟩
abbrev FLD_HW_REMAP_SEL_HALLWAY : Fld := ⟨R.FLD_HW_REMAP_SEL, 0, 3⟩
abbrev FLD_HW_REMAP_DATA_VALID1 : Fld := ⟨R.FLD_HW_REMAP_DATA, 13, 1⟩
abbrev FLD_HW_REMAP_DATA_POS1 : Fld := ⟨R.FLD_HW_REMAP_DATA, 8, 5⟩
abbrev FLD_HW_REMAP_DATA_VALID0 : Fld := ⟨R.FLD_HW_REMAP_DATA, 5, 1⟩
abbrev FLD_HW_REMAP_DATA_POS0 : Fld := ⟨R.FLD_HW_REMAP_DATA, 0, 5⟩
abbrev COR_CTRL_ENTRY : Fld := ⟨R.COR_CTRL, 16, 13⟩
abbrev COR_CTRL_CUBE_RETIRED : Fld := ⟨R.COR_CTRL, 7, 1⟩
abbrev COR_CTRL_STEP : Fld := ⟨R.COR_CTRL, 2, 1⟩
abbrev COR_CTRL_HALT : Fld := ⟨R.COR_CTRL, 1, 1⟩
abbrev COR_CTRL_RUN : Fld := ⟨R.COR_CTRL, 0, 1⟩
abbrev COR_STATUS_PC : Fld := ⟨R.COR_STATUS, 32, 13⟩
abbrev COR_STATUS_STALL : Fld := ⟨R.COR_STATUS, 20, 4⟩
abbrev COR_STATUS_WR_REJ : Fld := ⟨R.COR_STATUS, 3, 1⟩
abbrev COR_STATUS_STATE : Fld := ⟨R.COR_STATUS, 0, 3⟩
abbrev COR_FMAX_FLOOR : Fld := ⟨R.COR_FMAX, 24, 6⟩
abbrev COR_FMAX_EFFECTIVE : Fld := ⟨R.COR_FMAX, 16, 6⟩
abbrev COR_FMAX_FMAX_CUR : Fld := ⟨R.COR_FMAX, 8, 6⟩
abbrev COR_FMAX_FMAX_FUSE : Fld := ⟨R.COR_FMAX, 0, 6⟩
abbrev COR_CHK_CTRL_TOL_ABS : Fld := ⟨R.COR_CHK_CTRL, 12, 6⟩
abbrev COR_CHK_CTRL_TOL_REL : Fld := ⟨R.COR_CHK_CTRL, 4, 5⟩
abbrev COR_CHK_CTRL_MODE : Fld := ⟨R.COR_CHK_CTRL, 0, 2⟩
abbrev COR_CHK_STATUS_CHECKED : Fld := ⟨R.COR_CHK_STATUS, 32, 32⟩
abbrev COR_CHK_STATUS_MISMATCHES : Fld := ⟨R.COR_CHK_STATUS, 16, 16⟩
abbrev COR_CHK_STATUS_UNCHECKED : Fld := ⟨R.COR_CHK_STATUS, 13, 1⟩
abbrev COR_CHK_STATUS_LAST_PC : Fld := ⟨R.COR_CHK_STATUS, 0, 13⟩
abbrev COR_ECC_STATUS_CE_WM : Fld := ⟨R.COR_ECC_STATUS, 48, 16⟩
abbrev COR_ECC_STATUS_CE_OTHER : Fld := ⟨R.COR_ECC_STATUS, 32, 16⟩
abbrev COR_ECC_STATUS_UE_SRC : Fld := ⟨R.COR_ECC_STATUS, 8, 4⟩
abbrev COR_ECC_STATUS_PARITY : Fld := ⟨R.COR_ECC_STATUS, 1, 1⟩
abbrev COR_ECC_STATUS_UE : Fld := ⟨R.COR_ECC_STATUS, 0, 1⟩
abbrev COR_ECC_ADDR_ADDR : Fld := ⟨R.COR_ECC_ADDR, 0, 21⟩
abbrev COR_FP_CTRL_RMODE : Fld := ⟨R.COR_FP_CTRL, 2, 2⟩
abbrev COR_FP_CTRL_LONG_SAT : Fld := ⟨R.COR_FP_CTRL, 0, 1⟩
abbrev COR_FP_FLAGS_SHORT_SAT : Fld := ⟨R.COR_FP_FLAGS, 8, 1⟩
abbrev COR_FP_FLAGS_INVALID : Fld := ⟨R.COR_FP_FLAGS, 4, 1⟩
abbrev COR_FP_FLAGS_DIVZERO : Fld := ⟨R.COR_FP_FLAGS, 3, 1⟩
abbrev COR_FP_FLAGS_OVERFLOW : Fld := ⟨R.COR_FP_FLAGS, 2, 1⟩
abbrev COR_FP_FLAGS_UNDERFLOW : Fld := ⟨R.COR_FP_FLAGS, 1, 1⟩
abbrev COR_FP_FLAGS_INEXACT : Fld := ⟨R.COR_FP_FLAGS, 0, 1⟩
abbrev COR_SEQ_ERR_VALID : Fld := ⟨R.COR_SEQ_ERR, 63, 1⟩
abbrev COR_SEQ_ERR_PC : Fld := ⟨R.COR_SEQ_ERR, 32, 13⟩
abbrev COR_SEQ_ERR_OPC : Fld := ⟨R.COR_SEQ_ERR, 16, 6⟩
abbrev COR_SEQ_ERR_CODE : Fld := ⟨R.COR_SEQ_ERR, 0, 5⟩
abbrev COR_SEQ_STATUS_MQ_FILL : Fld := ⟨R.COR_SEQ_STATUS, 48, 4⟩
abbrev COR_SEQ_STATUS_VQ_FILL : Fld := ⟨R.COR_SEQ_STATUS, 44, 4⟩
abbrev COR_SEQ_STATUS_CDQ_FILL : Fld := ⟨R.COR_SEQ_STATUS, 40, 4⟩
abbrev COR_SEQ_STATUS_PHASE : Fld := ⟨R.COR_SEQ_STATUS, 16, 6⟩
abbrev COR_SEQ_STATUS_SLEEP_HINT : Fld := ⟨R.COR_SEQ_STATUS, 12, 2⟩
abbrev COR_SEQ_STATUS_EPOCH_MODE : Fld := ⟨R.COR_SEQ_STATUS, 8, 2⟩
abbrev COR_SEQ_STATUS_INJ_EPOCH : Fld := ⟨R.COR_SEQ_STATUS, 0, 1⟩
abbrev COR_STALL_CNT_STALL_CYCLES : Fld := ⟨R.COR_STALL_CNT, 32, 32⟩
abbrev COR_STALL_CNT_ISSUED : Fld := ⟨R.COR_STALL_CNT, 0, 32⟩
abbrev COR_QCTRL_RESET : Fld := ⟨R.COR_QCTRL, 16, 8⟩
abbrev COR_QCTRL_CLOSE : Fld := ⟨R.COR_QCTRL, 8, 8⟩
abbrev COR_QCTRL_OPEN : Fld := ⟨R.COR_QCTRL, 0, 8⟩
abbrev COR_QGEN_GEN : Fld := ⟨R.COR_QGEN, 0, 64⟩
abbrev COR_MSG_STATUS_DROP_CLOSED : Fld := ⟨R.COR_MSG_STATUS, 48, 16⟩
abbrev COR_MSG_STATUS_DROP_STALE : Fld := ⟨R.COR_MSG_STATUS, 32, 16⟩
abbrev COR_MSG_STATUS_INCOMPLETE : Fld := ⟨R.COR_MSG_STATUS, 16, 16⟩
abbrev COR_MSG_STATUS_SIG_SAT : Fld := ⟨R.COR_MSG_STATUS, 0, 16⟩
abbrev COR_WAIT_TMO_ACT : Fld := ⟨R.COR_WAIT_TMO, 16, 1⟩
abbrev COR_WAIT_TMO_TMO_US : Fld := ⟨R.COR_WAIT_TMO, 0, 16⟩
abbrev COR_CLK_STRETCH : Fld := ⟨R.COR_CLK, 32, 32⟩
abbrev COR_CLK_FLL_LOCK : Fld := ⟨R.COR_CLK, 8, 1⟩
abbrev COR_CLK_CODE : Fld := ⟨R.COR_CLK, 0, 6⟩
abbrev COR_AGE_MEAS : Fld := ⟨R.COR_AGE, 24, 6⟩
abbrev COR_AGE_STEPS : Fld := ⟨R.COR_AGE, 16, 8⟩
abbrev COR_SCALAR_S : Fld := ⟨R.COR_SCALAR, 0, 32⟩
abbrev COR_PRED_P : Fld := ⟨R.COR_PRED, 0, 8⟩
abbrev COR_LOOP_L : Fld := ⟨R.COR_LOOP, 0, 20⟩
abbrev COR_DESC0_D : Fld := ⟨R.COR_DESC0, 0, 64⟩
abbrev COR_DESC1_D : Fld := ⟨R.COR_DESC1, 0, 64⟩
abbrev COR_SEM_V : Fld := ⟨R.COR_SEM, 0, 16⟩
abbrev COR_QENTRY_Q : Fld := ⟨R.COR_QENTRY, 0, 64⟩
abbrev COR_CHAN0_VALID : Fld := ⟨R.COR_CHAN0, 63, 1⟩
abbrev COR_CHAN0_CIRC : Fld := ⟨R.COR_CHAN0, 62, 1⟩
abbrev COR_CHAN0_LAND : Fld := ⟨R.COR_CHAN0, 59, 3⟩
abbrev COR_CHAN0_LOG : Fld := ⟨R.COR_CHAN0, 58, 1⟩
abbrev COR_CHAN0_DST : Fld := ⟨R.COR_CHAN0, 50, 8⟩
abbrev COR_CHAN0_DST_CORE : Fld := ⟨R.COR_CHAN0, 44, 6⟩
abbrev COR_CHAN0_TGT : Fld := ⟨R.COR_CHAN0, 36, 8⟩
abbrev COR_CHAN0_SIG_SCOPE : Fld := ⟨R.COR_CHAN0, 35, 1⟩
abbrev COR_CHAN0_SIG_IDX : Fld := ⟨R.COR_CHAN0, 27, 8⟩
abbrev COR_CHAN0_BASE : Fld := ⟨R.COR_CHAN0, 0, 24⟩
abbrev COR_CHAN1_GEN : Fld := ⟨R.COR_CHAN1, 56, 8⟩
abbrev COR_CHAN1_SLOTS : Fld := ⟨R.COR_CHAN1, 48, 8⟩
abbrev COR_CHAN1_CRED_MAX : Fld := ⟨R.COR_CHAN1, 38, 5⟩
abbrev COR_CHAN1_CRED : Fld := ⟨R.COR_CHAN1, 28, 5⟩
abbrev COR_CHAN1_SENT : Fld := ⟨R.COR_CHAN1, 0, 16⟩
abbrev CLU_ZSK_CTRL_THR_MAX : Fld := ⟨R.CLU_ZSK_CTRL, 24, 6⟩
abbrev CLU_ZSK_CTRL_THR_MIN : Fld := ⟨R.CLU_ZSK_CTRL, 16, 6⟩
abbrev CLU_ZSK_CTRL_DROP_TGT : Fld := ⟨R.CLU_ZSK_CTRL, 8, 5⟩
abbrev CLU_ZSK_CTRL_MODE : Fld := ⟨R.CLU_ZSK_CTRL, 0, 1⟩
abbrev CLU_ZSK_STATUS_SKIPPED_STEPS : Fld := ⟨R.CLU_ZSK_STATUS, 32, 32⟩
abbrev CLU_ZSK_STATUS_PINNED : Fld := ⟨R.CLU_ZSK_STATUS, 16, 16⟩
abbrev CLU_ZSK_STATUS_THR_CUR : Fld := ⟨R.CLU_ZSK_STATUS, 0, 6⟩
abbrev CLU_UNIT_CTRL_RTU_CHAN : Fld := ⟨R.CLU_UNIT_CTRL, 24, 8⟩
abbrev CLU_UNIT_CTRL_TRN_FWD : Fld := ⟨R.CLU_UNIT_CTRL, 3, 1⟩
abbrev CLU_UNIT_CTRL_ASU_EN : Fld := ⟨R.CLU_UNIT_CTRL, 2, 1⟩
abbrev CLU_UNIT_CTRL_KVS_EN : Fld := ⟨R.CLU_UNIT_CTRL, 1, 1⟩
abbrev CLU_UNIT_CTRL_RTU_EN : Fld := ⟨R.CLU_UNIT_CTRL, 0, 1⟩
abbrev CLU_UNIT_STATUS_RTU_OVERFLOW : Fld := ⟨R.CLU_UNIT_STATUS, 48, 16⟩
abbrev CLU_UNIT_STATUS_RTU_SHORT : Fld := ⟨R.CLU_UNIT_STATUS, 32, 16⟩
abbrev CLU_UNIT_STATUS_RTU_NAN : Fld := ⟨R.CLU_UNIT_STATUS, 16, 16⟩
abbrev CLU_UNIT_STATUS_REJECTS : Fld := ⟨R.CLU_UNIT_STATUS, 0, 16⟩
abbrev CLU_ASU_CTRL_TIMEOUT : Fld := ⟨R.CLU_ASU_CTRL, 48, 16⟩
abbrev CLU_ASU_CTRL_TOK_CHAN : Fld := ⟨R.CLU_ASU_CTRL, 40, 8⟩
abbrev CLU_ASU_CTRL_STEP_CHAN : Fld := ⟨R.CLU_ASU_CTRL, 32, 8⟩
abbrev CLU_ASU_CTRL_SLICE_CHAN : Fld := ⟨R.CLU_ASU_CTRL, 24, 8⟩
abbrev CLU_ASU_CTRL_NSLICE : Fld := ⟨R.CLU_ASU_CTRL, 16, 8⟩
abbrev CLU_ASU_CTRL_MODE : Fld := ⟨R.CLU_ASU_CTRL, 0, 2⟩
abbrev CLU_ASU_STATE_STATE : Fld := ⟨R.CLU_ASU_STATE, 0, 64⟩
abbrev CLU_ASU_STATUS_STEPS : Fld := ⟨R.CLU_ASU_STATUS, 32, 32⟩
abbrev CLU_ASU_STATUS_ACCEPTED : Fld := ⟨R.CLU_ASU_STATUS, 8, 24⟩
abbrev CLU_ASU_STATUS_TIMEOUTS : Fld := ⟨R.CLU_ASU_STATUS, 0, 8⟩
abbrev CLU_MESH_CTRL_ORDER : Fld := ⟨R.CLU_MESH_CTRL, 0, 1⟩
abbrev CLU_MSG_CTRL_RING_WAIT : Fld := ⟨R.CLU_MSG_CTRL, 16, 16⟩
abbrev CLU_MSG_CTRL_SGEN : Fld := ⟨R.CLU_MSG_CTRL, 0, 8⟩
abbrev CLU_MSG_STATUS_DROP_CLOSED : Fld := ⟨R.CLU_MSG_STATUS, 48, 16⟩
abbrev CLU_MSG_STATUS_DROP_STALE : Fld := ⟨R.CLU_MSG_STATUS, 32, 16⟩
abbrev CLU_MSG_STATUS_INCOMPLETE : Fld := ⟨R.CLU_MSG_STATUS, 16, 16⟩
abbrev CLU_MSG_STATUS_SIG_SAT : Fld := ⟨R.CLU_MSG_STATUS, 0, 16⟩
abbrev CLU_CST_STATUS_EARLY : Fld := ⟨R.CLU_CST_STATUS, 48, 16⟩
abbrev CLU_CST_STATUS_MISMATCH : Fld := ⟨R.CLU_CST_STATUS, 32, 16⟩
abbrev CLU_CST_STATUS_ARM_REJ : Fld := ⟨R.CLU_CST_STATUS, 24, 8⟩
abbrev CLU_CST_STATUS_RELEASES : Fld := ⟨R.CLU_CST_STATUS, 0, 24⟩
abbrev CLU_PWR_ALLOC : Fld := ⟨R.CLU_PWR, 48, 16⟩
abbrev CLU_PWR_EST : Fld := ⟨R.CLU_PWR, 32, 16⟩
abbrev CLU_PWR_PHASE : Fld := ⟨R.CLU_PWR, 26, 6⟩
abbrev CLU_PWR_FREQ : Fld := ⟨R.CLU_PWR, 20, 6⟩
abbrev CLU_PWR_DUTY : Fld := ⟨R.CLU_PWR, 16, 4⟩
abbrev CLU_PWR_VSET : Fld := ⟨R.CLU_PWR, 8, 8⟩
abbrev CLU_PWR_RAMP_WAITS : Fld := ⟨R.CLU_PWR, 2, 6⟩
abbrev CLU_PWR_BALLAST : Fld := ⟨R.CLU_PWR, 1, 1⟩
abbrev CLU_PWR_DEFERRED : Fld := ⟨R.CLU_PWR, 0, 1⟩
abbrev CLU_SLEEP_WAKES : Fld := ⟨R.CLU_SLEEP, 48, 16⟩
abbrev CLU_SLEEP_DEEP_WAKES : Fld := ⟨R.CLU_SLEEP, 32, 16⟩
abbrev CLU_SLEEP_RESUME_IDX : Fld := ⟨R.CLU_SLEEP, 16, 13⟩
abbrev CLU_SLEEP_MAX_LVL : Fld := ⟨R.CLU_SLEEP, 2, 2⟩
abbrev CLU_SLEEP_RESUME_EN : Fld := ⟨R.CLU_SLEEP, 0, 1⟩
abbrev CLU_RING_CFG_OPEN : Fld := ⟨R.CLU_RING_CFG, 63, 1⟩
abbrev CLU_RING_CFG_CLOSE : Fld := ⟨R.CLU_RING_CFG, 62, 1⟩
abbrev CLU_RING_CFG_RESET : Fld := ⟨R.CLU_RING_CFG, 61, 1⟩
abbrev CLU_RING_CFG_POP : Fld := ⟨R.CLU_RING_CFG, 60, 1⟩
abbrev CLU_RING_CFG_GEN : Fld := ⟨R.CLU_RING_CFG, 48, 8⟩
abbrev CLU_RING_CFG_SIZE : Fld := ⟨R.CLU_RING_CFG, 44, 4⟩
abbrev CLU_RING_CFG_BASE : Fld := ⟨R.CLU_RING_CFG, 24, 11⟩
abbrev CLU_RING_HEAD_WRAP : Fld := ⟨R.CLU_RING_HEAD, 20, 1⟩
abbrev CLU_RING_HEAD_OFFSET : Fld := ⟨R.CLU_RING_HEAD, 0, 20⟩
abbrev CLU_RING_TAIL_WRAP : Fld := ⟨R.CLU_RING_TAIL, 20, 1⟩
abbrev CLU_RING_TAIL_OFFSET : Fld := ⟨R.CLU_RING_TAIL, 0, 20⟩
abbrev CLU_RING_STATUS_MSGS : Fld := ⟨R.CLU_RING_STATUS, 48, 16⟩
abbrev CLU_RING_STATUS_WAITS : Fld := ⟨R.CLU_RING_STATUS, 32, 16⟩
abbrev CLU_RING_STATUS_REJECTED : Fld := ⟨R.CLU_RING_STATUS, 16, 16⟩
abbrev CLU_RING_STATUS_DROPPED : Fld := ⟨R.CLU_RING_STATUS, 0, 16⟩
abbrev CLU_SEM_V : Fld := ⟨R.CLU_SEM, 0, 16⟩
abbrev CLU_CST0_IFMT : Fld := ⟨R.CLU_CST0, 62, 2⟩
abbrev CLU_CST0_OFMT : Fld := ⟨R.CLU_CST0, 60, 2⟩
abbrev CLU_CST0_AUTO : Fld := ⟨R.CLU_CST0, 59, 1⟩
abbrev CLU_CST0_LM1 : Fld := ⟨R.CLU_CST0, 47, 12⟩
abbrev CLU_CST0_BUF : Fld := ⟨R.CLU_CST0, 30, 17⟩
abbrev CLU_CST1_ARMED : Fld := ⟨R.CLU_CST1, 63, 1⟩
abbrev CLU_CST1_COUNT : Fld := ⟨R.CLU_CST1, 48, 12⟩
abbrev CLU_CST1_RECEIVED : Fld := ⟨R.CLU_CST1, 32, 12⟩
abbrev CLU_CST1_CHAN : Fld := ⟨R.CLU_CST1, 24, 8⟩
abbrev CLU_CORE_MAP_MAP : Fld := ⟨R.CLU_CORE_MAP, 0, 64⟩
abbrev CLU_REDIRECT_EN : Fld := ⟨R.CLU_REDIRECT, 8, 1⟩
abbrev CLU_REDIRECT_SITE : Fld := ⟨R.CLU_REDIRECT, 0, 8⟩
abbrev CLU_CHAN0_VALID : Fld := ⟨R.CLU_CHAN0, 63, 1⟩
abbrev CLU_CHAN0_CIRC : Fld := ⟨R.CLU_CHAN0, 62, 1⟩
abbrev CLU_CHAN0_LAND : Fld := ⟨R.CLU_CHAN0, 59, 3⟩
abbrev CLU_CHAN0_LOG : Fld := ⟨R.CLU_CHAN0, 58, 1⟩
abbrev CLU_CHAN0_DST : Fld := ⟨R.CLU_CHAN0, 50, 8⟩
abbrev CLU_CHAN0_DST_CORE : Fld := ⟨R.CLU_CHAN0, 44, 6⟩
abbrev CLU_CHAN0_TGT : Fld := ⟨R.CLU_CHAN0, 36, 8⟩
abbrev CLU_CHAN0_SIG_SCOPE : Fld := ⟨R.CLU_CHAN0, 35, 1⟩
abbrev CLU_CHAN0_SIG_IDX : Fld := ⟨R.CLU_CHAN0, 27, 8⟩
abbrev CLU_CHAN0_BASE : Fld := ⟨R.CLU_CHAN0, 0, 24⟩
abbrev CLU_CHAN1_GEN : Fld := ⟨R.CLU_CHAN1, 56, 8⟩
abbrev CLU_CHAN1_SLOTS : Fld := ⟨R.CLU_CHAN1, 48, 8⟩
abbrev CLU_CHAN1_CRED_MAX : Fld := ⟨R.CLU_CHAN1, 38, 5⟩
abbrev CLU_CHAN1_CRED : Fld := ⟨R.CLU_CHAN1, 28, 5⟩
abbrev CLU_CHAN1_SENT : Fld := ⟨R.CLU_CHAN1, 0, 16⟩
abbrev TRN_CTRL_HOLD : Fld := ⟨R.TRN_CTRL, 32, 16⟩
abbrev TRN_CTRL_LEAD : Fld := ⟨R.TRN_CTRL, 16, 16⟩
abbrev TRN_CTRL_DEEP_OK : Fld := ⟨R.TRN_CTRL, 3, 1⟩
abbrev TRN_CTRL_DL_WAKE : Fld := ⟨R.TRN_CTRL, 2, 1⟩
abbrev TRN_CTRL_PREFETCH : Fld := ⟨R.TRN_CTRL, 1, 1⟩
abbrev TRN_CTRL_EN : Fld := ⟨R.TRN_CTRL, 0, 1⟩
abbrev TRN_STATUS_GUEST_N : Fld := ⟨R.TRN_STATUS, 16, 8⟩
abbrev TRN_STATUS_PINNED : Fld := ⟨R.TRN_STATUS, 8, 8⟩
abbrev TRN_STATUS_FREE : Fld := ⟨R.TRN_STATUS, 0, 8⟩
abbrev TRN_COUNT0_PRED : Fld := ⟨R.TRN_COUNT0, 32, 32⟩
abbrev TRN_COUNT0_HIT : Fld := ⟨R.TRN_COUNT0, 0, 32⟩
abbrev TRN_COUNT1_MISS : Fld := ⟨R.TRN_COUNT1, 32, 32⟩
abbrev TRN_COUNT1_LATE : Fld := ⟨R.TRN_COUNT1, 16, 16⟩
abbrev TRN_COUNT1_UNUSED : Fld := ⟨R.TRN_COUNT1, 0, 16⟩
abbrev TRN_STALL_MISS_STALL : Fld := ⟨R.TRN_STALL, 32, 32⟩
abbrev TRN_STALL_SLOT_WAIT : Fld := ⟨R.TRN_STALL, 0, 32⟩
abbrev TRN_TBL_SEL_TABLE : Fld := ⟨R.TRN_TBL_SEL, 15, 1⟩
abbrev TRN_TBL_SEL_INDEX : Fld := ⟨R.TRN_TBL_SEL, 0, 14⟩
abbrev TRN_TBL_DATA_ENTRY : Fld := ⟨R.TRN_TBL_DATA, 0, 32⟩
abbrev FAB_CTRL_STALL_LIMIT : Fld := ⟨R.FAB_CTRL, 16, 16⟩
abbrev FAB_CTRL_VC1_EN : Fld := ⟨R.FAB_CTRL, 7, 1⟩
abbrev FAB_CTRL_VALID_B : Fld := ⟨R.FAB_CTRL, 2, 1⟩
abbrev FAB_CTRL_VALID_A : Fld := ⟨R.FAB_CTRL, 1, 1⟩
abbrev FAB_CTRL_INJ_EPOCH : Fld := ⟨R.FAB_CTRL, 0, 1⟩
abbrev FAB_STATUS_STALE : Fld := ⟨R.FAB_STATUS, 48, 16⟩
abbrev FAB_STATUS_NOROUTE : Fld := ⟨R.FAB_STATUS, 32, 16⟩
abbrev FAB_STATUS_LATE : Fld := ⟨R.FAB_STATUS, 16, 16⟩
abbrev FAB_STATUS_TIMEOUTS : Fld := ⟨R.FAB_STATUS, 8, 8⟩
abbrev FAB_STATUS_CONFLICT : Fld := ⟨R.FAB_STATUS, 1, 1⟩
abbrev FAB_STATUS_WR_REJ : Fld := ⟨R.FAB_STATUS, 0, 1⟩
abbrev FAB_TMO_TMO_US : Fld := ⟨R.FAB_TMO, 0, 16⟩
abbrev FAB_TBL_SEL_TABLE : Fld := ⟨R.FAB_TBL_SEL, 13, 3⟩
abbrev FAB_TBL_SEL_INDEX : Fld := ⟨R.FAB_TBL_SEL, 0, 8⟩
abbrev FAB_TBL_DATA_ENTRY : Fld := ⟨R.FAB_TBL_DATA, 0, 32⟩
abbrev FAB_DRAIN_CTRL_MAX_WAVES : Fld := ⟨R.FAB_DRAIN_CTRL, 16, 8⟩
abbrev FAB_DRAIN_CTRL_GAP : Fld := ⟨R.FAB_DRAIN_CTRL, 4, 12⟩
abbrev FAB_DRAIN_CTRL_AUTO_RETIRE : Fld := ⟨R.FAB_DRAIN_CTRL, 3, 1⟩
abbrev FAB_DRAIN_CTRL_EPOCH : Fld := ⟨R.FAB_DRAIN_CTRL, 1, 1⟩
abbrev FAB_DRAIN_CTRL_START : Fld := ⟨R.FAB_DRAIN_CTRL, 0, 1⟩
abbrev FAB_DRAIN_STATUS_WAVES : Fld := ⟨R.FAB_DRAIN_STATUS, 56, 8⟩
abbrev FAB_DRAIN_STATUS_DONE : Fld := ⟨R.FAB_DRAIN_STATUS, 3, 1⟩
abbrev FAB_DRAIN_STATUS_STATUS : Fld := ⟨R.FAB_DRAIN_STATUS, 0, 3⟩
abbrev FAB_DRAIN_SUM_INJ : Fld := ⟨R.FAB_DRAIN_SUM, 32, 32⟩
abbrev FAB_DRAIN_SUM_EJ : Fld := ⟨R.FAB_DRAIN_SUM, 0, 32⟩
abbrev FAB_DRAIN_MASK_SITES : Fld := ⟨R.FAB_DRAIN_MASK, 0, 64⟩
abbrev FAB_ECNT_INJ : Fld := ⟨R.FAB_ECNT, 32, 32⟩
abbrev FAB_ECNT_EJ : Fld := ⟨R.FAB_ECNT, 0, 32⟩
abbrev FAB_UNATTR_UNATTR : Fld := ⟨R.FAB_UNATTR, 0, 32⟩
abbrev FAB_PORT_FLITS_CIRC : Fld := ⟨R.FAB_PORT_FLITS, 32, 32⟩
abbrev FAB_PORT_FLITS_ROUTED : Fld := ⟨R.FAB_PORT_FLITS, 0, 32⟩
abbrev FAB_PORT_STALL_STALL_VC0 : Fld := ⟨R.FAB_PORT_STALL, 32, 32⟩
abbrev FAB_PORT_STALL_STALL_VC1 : Fld := ⟨R.FAB_PORT_STALL, 0, 32⟩
abbrev FAB_PORT_ERR_CRC : Fld := ⟨R.FAB_PORT_ERR, 48, 16⟩
abbrev FAB_PORT_ERR_CTRL_CE : Fld := ⟨R.FAB_PORT_ERR, 32, 16⟩
abbrev FAB_PORT_ERR_CTRL_UE : Fld := ⟨R.FAB_PORT_ERR, 16, 16⟩
abbrev FAB_PORT_ERR_UNCLAIMED : Fld := ⟨R.FAB_PORT_ERR, 0, 16⟩
abbrev FAB_PORT_OCC_MAX_VC0 : Fld := ⟨R.FAB_PORT_OCC, 56, 8⟩
abbrev FAB_PORT_OCC_MAX_VC1 : Fld := ⟨R.FAB_PORT_OCC, 48, 8⟩
abbrev FAB_PORT_OCC_OCC_VC0 : Fld := ⟨R.FAB_PORT_OCC, 8, 8⟩
abbrev FAB_PORT_OCC_OCC_VC1 : Fld := ⟨R.FAB_PORT_OCC, 0, 8⟩
abbrev HBM_CTRL_STEP_GAP : Fld := ⟨R.HBM_CTRL, 16, 16⟩
abbrev HBM_CTRL_SOLE_FACE : Fld := ⟨R.HBM_CTRL, 5, 2⟩
abbrev HBM_CTRL_OFFLINE : Fld := ⟨R.HBM_CTRL, 4, 1⟩
abbrev HBM_CTRL_RETRAIN : Fld := ⟨R.HBM_CTRL, 3, 1⟩
abbrev HBM_CTRL_SCRUB_EN : Fld := ⟨R.HBM_CTRL, 2, 1⟩
abbrev HBM_CTRL_STEP_EN : Fld := ⟨R.HBM_CTRL, 1, 1⟩
abbrev HBM_CTRL_STRM_EN : Fld := ⟨R.HBM_CTRL, 0, 1⟩
abbrev HBM_STATUS_TEMP : Fld := ⟨R.HBM_STATUS, 56, 8⟩
abbrev HBM_STATUS_FACE_OUT1 : Fld := ⟨R.HBM_STATUS, 6, 1⟩
abbrev HBM_STATUS_FACE_OUT0 : Fld := ⟨R.HBM_STATUS, 5, 1⟩
abbrev HBM_STATUS_REFRESH_2X : Fld := ⟨R.HBM_STATUS, 4, 1⟩
abbrev HBM_STATUS_SPARE_USED : Fld := ⟨R.HBM_STATUS, 3, 1⟩
abbrev HBM_STATUS_STATE : Fld := ⟨R.HBM_STATUS, 0, 3⟩
abbrev HBM_CHMAP_MAP : Fld := ⟨R.HBM_CHMAP, 0, 64⟩
abbrev HBM_ECC_CE : Fld := ⟨R.HBM_ECC, 48, 16⟩
abbrev HBM_ECC_UE : Fld := ⟨R.HBM_ECC, 40, 8⟩
abbrev HBM_ECC_CH : Fld := ⟨R.HBM_ECC, 33, 5⟩
abbrev HBM_ECC_ADDR : Fld := ⟨R.HBM_ECC, 0, 33⟩
abbrev HBM_STG_CFG_RING_GEN : Fld := ⟨R.HBM_STG_CFG, 56, 8⟩
abbrev HBM_STG_CFG_RING : Fld := ⟨R.HBM_STG_CFG, 51, 5⟩
abbrev HBM_STG_CFG_SEM : Fld := ⟨R.HBM_STG_CFG, 43, 8⟩
abbrev HBM_STG_CFG_STG_N : Fld := ⟨R.HBM_STG_CFG, 39, 4⟩
abbrev HBM_STG_CFG_BUF : Fld := ⟨R.HBM_STG_CFG, 22, 17⟩
abbrev HBM_STG_CFG_BASE : Fld := ⟨R.HBM_STG_CFG, 0, 17⟩
abbrev HBM_STG_FREE_FACE : Fld := ⟨R.HBM_STG_FREE, 4, 1⟩
abbrev HBM_STG_FREE_BUF : Fld := ⟨R.HBM_STG_FREE, 0, 4⟩
abbrev HBM_STRM_STATUS_STREAMS : Fld := ⟨R.HBM_STRM_STATUS, 32, 32⟩
abbrev HBM_STRM_STATUS_STG_WAIT : Fld := ⟨R.HBM_STRM_STATUS, 16, 16⟩
abbrev HBM_STRM_STATUS_QUEUED : Fld := ⟨R.HBM_STRM_STATUS, 8, 8⟩
abbrev HBM_STRM_STATUS_BAD_FREE : Fld := ⟨R.HBM_STRM_STATUS, 4, 4⟩
abbrev HBM_STRM_STATUS_FAILED : Fld := ⟨R.HBM_STRM_STATUS, 0, 4⟩
abbrev HBM_DESC_SEL_INDEX : Fld := ⟨R.HBM_DESC_SEL, 0, 14⟩
abbrev HBM_DESC_DATA_ENTRY : Fld := ⟨R.HBM_DESC_DATA, 0, 64⟩
abbrev HBM_SPARE_CTRL_LCH : Fld := ⟨R.HBM_SPARE_CTRL, 8, 5⟩
abbrev HBM_SPARE_CTRL_SHARE : Fld := ⟨R.HBM_SPARE_CTRL, 5, 3⟩
abbrev HBM_SPARE_CTRL_RESULT : Fld := ⟨R.HBM_SPARE_CTRL, 2, 2⟩
abbrev HBM_SPARE_CTRL_BUSY : Fld := ⟨R.HBM_SPARE_CTRL, 1, 1⟩
abbrev HBM_SPARE_CTRL_START : Fld := ⟨R.HBM_SPARE_CTRL, 0, 1⟩
abbrev CEL_CTRL_HPPR : Fld := ⟨R.CEL_CTRL, 3, 1⟩
abbrev CEL_CTRL_RETRAIN : Fld := ⟨R.CEL_CTRL, 2, 1⟩
abbrev CEL_CTRL_SCRUB_EN : Fld := ⟨R.CEL_CTRL, 1, 1⟩
abbrev CEL_CTRL_OFFLINE : Fld := ⟨R.CEL_CTRL, 0, 1⟩
abbrev CEL_STATUS_N : Fld := ⟨R.CEL_STATUS, 56, 8⟩
abbrev CEL_STATUS_SIZE : Fld := ⟨R.CEL_STATUS, 48, 8⟩
abbrev CEL_STATUS_SPPR : Fld := ⟨R.CEL_STATUS, 40, 8⟩
abbrev CEL_STATUS_SPEED : Fld := ⟨R.CEL_STATUS, 8, 2⟩
abbrev CEL_STATUS_IN_ILV : Fld := ⟨R.CEL_STATUS, 3, 1⟩
abbrev CEL_STATUS_STATE : Fld := ⟨R.CEL_STATUS, 0, 3⟩
abbrev CEL_ECC_CE : Fld := ⟨R.CEL_ECC, 48, 16⟩
abbrev CEL_ECC_UE : Fld := ⟨R.CEL_ECC, 40, 8⟩
abbrev CEL_ECC_CH : Fld := ⟨R.CEL_ECC, 33, 5⟩
abbrev CEL_ECC_ADDR : Fld := ⟨R.CEL_ECC, 0, 33⟩
abbrev CMD_CTRL_RING_RESET : Fld := ⟨R.CMD_CTRL, 3, 1⟩
abbrev CMD_CTRL_NTF_EN : Fld := ⟨R.CMD_CTRL, 2, 1⟩
abbrev CMD_CTRL_PAUSE : Fld := ⟨R.CMD_CTRL, 1, 1⟩
abbrev CMD_CTRL_EN : Fld := ⟨R.CMD_CTRL, 0, 1⟩
abbrev CMD_STATUS_INFLIGHT : Fld := ⟨R.CMD_STATUS, 48, 16⟩
abbrev CMD_STATUS_ACC_WAITS : Fld := ⟨R.CMD_STATUS, 32, 16⟩
abbrev CMD_STATUS_LATE : Fld := ⟨R.CMD_STATUS, 16, 16⟩
abbrev CMD_STATUS_RESETTING : Fld := ⟨R.CMD_STATUS, 8, 1⟩
abbrev CMD_STATUS_ACTIVE_VALID : Fld := ⟨R.CMD_STATUS, 7, 1⟩
abbrev CMD_STATUS_ACTIVE : Fld := ⟨R.CMD_STATUS, 0, 4⟩
abbrev CMD_RING_CFG_SIZE : Fld := ⟨R.CMD_RING_CFG, 8, 4⟩
abbrev CMD_RING_CFG_BASE : Fld := ⟨R.CMD_RING_CFG, 0, 8⟩
abbrev CMD_RING_HEAD_PHASE : Fld := ⟨R.CMD_RING_HEAD, 14, 1⟩
abbrev CMD_RING_HEAD_INDEX : Fld := ⟨R.CMD_RING_HEAD, 0, 14⟩
abbrev CMD_COUNT_ACCEPTED : Fld := ⟨R.CMD_COUNT, 32, 32⟩
abbrev CMD_COUNT_COMPLETED : Fld := ⟨R.CMD_COUNT, 0, 32⟩
abbrev CMD_HRING_BASE_ADDR : Fld := ⟨R.CMD_HRING_BASE, 12, 44⟩
abbrev CMD_HRING_CFG_DROPS : Fld := ⟨R.CMD_HRING_CFG, 32, 32⟩
abbrev CMD_HRING_CFG_HEAD_REJ : Fld := ⟨R.CMD_HRING_CFG, 8, 1⟩
abbrev CMD_HRING_CFG_EN : Fld := ⟨R.CMD_HRING_CFG, 7, 1⟩
abbrev CMD_HRING_CFG_RESET : Fld := ⟨R.CMD_HRING_CFG, 6, 1⟩
abbrev CMD_HRING_CFG_SIZE : Fld := ⟨R.CMD_HRING_CFG, 0, 4⟩
abbrev CMD_HRING_HEAD_WRAP : Fld := ⟨R.CMD_HRING_HEAD, 22, 1⟩
abbrev CMD_HRING_HEAD_OFFSET : Fld := ⟨R.CMD_HRING_HEAD, 0, 22⟩
abbrev CMD_HRING_TAIL_WRAP : Fld := ⟨R.CMD_HRING_TAIL, 22, 1⟩
abbrev CMD_HRING_TAIL_OFFSET : Fld := ⟨R.CMD_HRING_TAIL, 0, 22⟩
abbrev CMD_PAIR_CTRL_MLINK_TMO : Fld := ⟨R.CMD_PAIR_CTRL, 48, 16⟩
abbrev CMD_PAIR_CTRL_JOIN_WAIT : Fld := ⟨R.CMD_PAIR_CTRL, 32, 16⟩
abbrev CMD_PAIR_CTRL_IMAGE_ROLE : Fld := ⟨R.CMD_PAIR_CTRL, 8, 2⟩
abbrev CMD_PAIR_CTRL_FENCE : Fld := ⟨R.CMD_PAIR_CTRL, 2, 1⟩
abbrev CMD_PAIR_CTRL_JOIN : Fld := ⟨R.CMD_PAIR_CTRL, 1, 1⟩
abbrev CMD_PAIR_CTRL_SOLO : Fld := ⟨R.CMD_PAIR_CTRL, 0, 1⟩
abbrev CMD_PAIR_STATUS_TERM : Fld := ⟨R.CMD_PAIR_STATUS, 32, 32⟩
abbrev CMD_PAIR_STATUS_LAG : Fld := ⟨R.CMD_PAIR_STATUS, 16, 16⟩
abbrev CMD_PAIR_STATUS_SYNC : Fld := ⟨R.CMD_PAIR_STATUS, 12, 2⟩
abbrev CMD_PAIR_STATUS_FAR_ROLE : Fld := ⟨R.CMD_PAIR_STATUS, 8, 3⟩
abbrev CMD_PAIR_STATUS_ROLE : Fld := ⟨R.CMD_PAIR_STATUS, 0, 3⟩
abbrev CMD_PAIR_AGE_LINK : Fld := ⟨R.CMD_PAIR_AGE, 32, 32⟩
abbrev CMD_PAIR_AGE_WIRE : Fld := ⟨R.CMD_PAIR_AGE, 0, 32⟩
abbrev CMD_PAIR_MSEQ_MSEQ : Fld := ⟨R.CMD_PAIR_MSEQ, 0, 64⟩
abbrev CMD_PAIR_IGN_PULSES : Fld := ⟨R.CMD_PAIR_IGN, 48, 16⟩
abbrev CMD_PAIR_IGN_BEATS : Fld := ⟨R.CMD_PAIR_IGN, 32, 16⟩
abbrev CMD_STEP_TIME_MAX_NS : Fld := ⟨R.CMD_STEP_TIME, 40, 24⟩
abbrev CMD_STEP_TIME_FIRST_NS : Fld := ⟨R.CMD_STEP_TIME, 16, 24⟩
abbrev CMD_STEP_TIME_LAST_16NS : Fld := ⟨R.CMD_STEP_TIME, 0, 16⟩
abbrev CMD_DL_MARGIN_MIN_MARGIN : Fld := ⟨R.CMD_DL_MARGIN, 32, 32⟩
abbrev CMD_DL_MARGIN_LATE_RUN : Fld := ⟨R.CMD_DL_MARGIN, 16, 16⟩
abbrev CMD_DL_MARGIN_DL_TOKENS : Fld := ⟨R.CMD_DL_MARGIN, 0, 16⟩
abbrev CMD_STEP_CFG_BAD_RECORDS : Fld := ⟨R.CMD_STEP_CFG, 48, 16⟩
abbrev CMD_STEP_CFG_PERMIT_LCLU : Fld := ⟨R.CMD_STEP_CFG, 40, 8⟩
abbrev CMD_STEP_CFG_PERMIT_SEM : Fld := ⟨R.CMD_STEP_CFG, 32, 8⟩
abbrev CMD_STEP_CFG_PERMIT_CSM : Fld := ⟨R.CMD_STEP_CFG, 0, 23⟩
abbrev JNL_STATUS_LAG : Fld := ⟨R.JNL_STATUS, 32, 16⟩
abbrev JNL_STATUS_MIRROR : Fld := ⟨R.JNL_STATUS, 0, 1⟩
abbrev JNL_NEXT_SEQ_SEQ : Fld := ⟨R.JNL_NEXT_SEQ, 0, 64⟩
abbrev JNL_MIRROR_SEQ_SEQ : Fld := ⟨R.JNL_MIRROR_SEQ, 0, 64⟩
abbrev UCI_CTRL_DISABLE : Fld := ⟨R.UCI_CTRL, 2, 1⟩
abbrev UCI_CTRL_RETRAIN : Fld := ⟨R.UCI_CTRL, 1, 1⟩
abbrev UCI_STATUS_REPLAYS : Fld := ⟨R.UCI_STATUS, 48, 16⟩
abbrev UCI_STATUS_CRC_ERR : Fld := ⟨R.UCI_STATUS, 32, 16⟩
abbrev UCI_STATUS_MALFORMED : Fld := ⟨R.UCI_STATUS, 20, 12⟩
abbrev UCI_STATUS_LANES_REPAIRED : Fld := ⟨R.UCI_STATUS, 16, 4⟩
abbrev UCI_STATUS_RATE : Fld := ⟨R.UCI_STATUS, 8, 2⟩
abbrev UCI_STATUS_MODULES : Fld := ⟨R.UCI_STATUS, 4, 4⟩
abbrev UCI_STATUS_IN_SILL : Fld := ⟨R.UCI_STATUS, 3, 1⟩
abbrev UCI_STATUS_STATE : Fld := ⟨R.UCI_STATUS, 0, 3⟩
abbrev LNK_CTRL_SWAP_LIM : Fld := ⟨R.LNK_CTRL, 16, 8⟩
abbrev LNK_CTRL_LANE : Fld := ⟨R.LNK_CTRL, 8, 4⟩
abbrev LNK_CTRL_RETRAIN_LANE : Fld := ⟨R.LNK_CTRL, 7, 1⟩
abbrev LNK_CTRL_RETRAIN : Fld := ⟨R.LNK_CTRL, 6, 1⟩
abbrev LNK_CTRL_ROLE : Fld := ⟨R.LNK_CTRL, 4, 2⟩
abbrev LNK_CTRL_FWD_EN : Fld := ⟨R.LNK_CTRL, 3, 1⟩
abbrev LNK_CTRL_EN : Fld := ⟨R.LNK_CTRL, 0, 1⟩
abbrev LNK_STATUS_WAKES_IGN : Fld := ⟨R.LNK_STATUS, 48, 16⟩
abbrev LNK_STATUS_FAR_ROLE : Fld := ⟨R.LNK_STATUS, 44, 3⟩
abbrev LNK_STATUS_CREDITS : Fld := ⟨R.LNK_STATUS, 23, 9⟩
abbrev LNK_STATUS_HALF : Fld := ⟨R.LNK_STATUS, 16, 1⟩
abbrev LNK_STATUS_GOOD_LANES : Fld := ⟨R.LNK_STATUS, 12, 4⟩
abbrev LNK_STATUS_SPARE_OK : Fld := ⟨R.LNK_STATUS, 3, 1⟩
abbrev LNK_STATUS_STATE : Fld := ⟨R.LNK_STATUS, 0, 3⟩
abbrev LNK_LANE_SPARE : Fld := ⟨R.LNK_LANE, 36, 4⟩
abbrev LNK_LANE_MAP : Fld := ⟨R.LNK_LANE, 0, 32⟩
abbrev LNK_ERR_CORR_SYM : Fld := ⟨R.LNK_ERR, 32, 32⟩
abbrev LNK_ERR_UNCORR : Fld := ⟨R.LNK_ERR, 24, 8⟩
abbrev LNK_ERR_NAKS : Fld := ⟨R.LNK_ERR, 16, 8⟩
abbrev LNK_ERR_RETRAINS : Fld := ⟨R.LNK_ERR, 8, 8⟩
abbrev LNK_ERR_SWAPS : Fld := ⟨R.LNK_ERR, 4, 4⟩
abbrev LNK_ERR_WORST_LANE : Fld := ⟨R.LNK_ERR, 0, 4⟩
abbrev LNK_FWD_SEL_INDEX : Fld := ⟨R.LNK_FWD_SEL, 0, 8⟩
abbrev LNK_FWD_DATA_VALID : Fld := ⟨R.LNK_FWD_DATA, 31, 1⟩
abbrev LNK_FWD_DATA_LOG : Fld := ⟨R.LNK_FWD_DATA, 30, 1⟩
abbrev LNK_FWD_DATA_DST : Fld := ⟨R.LNK_FWD_DATA, 22, 8⟩
abbrev LNK_FWD_DATA_DST_CORE : Fld := ⟨R.LNK_FWD_DATA, 16, 6⟩
abbrev FLD_RAIL_STATUS_VSET : Fld := ⟨R.FLD_RAIL_STATUS, 40, 8⟩
abbrev FLD_RAIL_STATUS_VTGT : Fld := ⟨R.FLD_RAIL_STATUS, 28, 10⟩
abbrev FLD_RAIL_STATUS_VMIN : Fld := ⟨R.FLD_RAIL_STATUS, 18, 10⟩
abbrev FLD_RAIL_STATUS_PHASES : Fld := ⟨R.FLD_RAIL_STATUS, 8, 5⟩
abbrev FLD_RAIL_STATUS_HOLD : Fld := ⟨R.FLD_RAIL_STATUS, 1, 1⟩
abbrev FLD_RAIL_STATUS_FAB_PG : Fld := ⟨R.FLD_RAIL_STATUS, 0, 1⟩
abbrev FLD_RAIL_LIMIT_ILIM_CONT : Fld := ⟨R.FLD_RAIL_LIMIT, 16, 8⟩
abbrev FLD_RAIL_LIMIT_ILIM_PEAK : Fld := ⟨R.FLD_RAIL_LIMIT, 8, 8⟩
abbrev FLD_RAIL_LIMIT_EST : Fld := ⟨R.FLD_RAIL_LIMIT, 0, 8⟩
abbrev FLD_FSC_STATUS_AVS_FAIL : Fld := ⟨R.FLD_FSC_STATUS, 48, 16⟩
abbrev FLD_FSC_STATUS_LAST_WORD : Fld := ⟨R.FLD_FSC_STATUS, 0, 32⟩
abbrev FLD_FABLDO_LOAD : Fld := ⟨R.FLD_FABLDO, 8, 8⟩
abbrev FLD_FABLDO_STATE1 : Fld := ⟨R.FLD_FABLDO, 4, 2⟩
abbrev FLD_FABLDO_STATE0 : Fld := ⟨R.FLD_FABLDO, 0, 2⟩
abbrev FLD_LDO_OC : Fld := ⟨R.FLD_LDO, 42, 1⟩
abbrev FLD_LDO_UV : Fld := ⟨R.FLD_LDO, 41, 1⟩
abbrev FLD_LDO_OV : Fld := ⟨R.FLD_LDO, 40, 1⟩
abbrev FLD_LDO_IOUT : Fld := ⟨R.FLD_LDO, 32, 8⟩
abbrev FLD_LDO_VOUT : Fld := ⟨R.FLD_LDO, 16, 8⟩
abbrev FLD_LDO_VSET : Fld := ⟨R.FLD_LDO, 8, 8⟩
abbrev FLD_LDO_STATE : Fld := ⟨R.FLD_LDO, 0, 3⟩
abbrev FLD_CLK_TB_ERR : Fld := ⟨R.FLD_CLK, 48, 16⟩
abbrev FLD_CLK_TB_LOST : Fld := ⟨R.FLD_CLK, 7, 1⟩
abbrev FLD_CLK_REF : Fld := ⟨R.FLD_CLK, 6, 1⟩
abbrev FLD_CLK_PLL1 : Fld := ⟨R.FLD_CLK, 4, 2⟩
abbrev FLD_CLK_PLL0 : Fld := ⟨R.FLD_CLK, 2, 2⟩
abbrev FLD_CLK_ACTIVE : Fld := ⟨R.FLD_CLK, 0, 1⟩
abbrev PWR_CTRL_LEARN : Fld := ⟨R.PWR_CTRL, 2, 1⟩
abbrev PWR_CTRL_BALLAST_EN : Fld := ⟨R.PWR_CTRL, 1, 1⟩
abbrev PWR_EST_P_AVG : Fld := ⟨R.PWR_EST, 48, 16⟩
abbrev PWR_EST_P_TICK : Fld := ⟨R.PWR_EST, 32, 16⟩
abbrev PWR_EST_CEILING : Fld := ⟨R.PWR_EST, 16, 16⟩
abbrev PWR_EST_FLOOR : Fld := ⟨R.PWR_EST, 0, 16⟩
abbrev PWR_CAP_EFFECTIVE : Fld := ⟨R.PWR_CAP, 48, 16⟩
abbrev PWR_CAP_PENDING_VALID : Fld := ⟨R.PWR_CAP, 43, 1⟩
abbrev PWR_CAP_PENDING_SEL : Fld := ⟨R.PWR_CAP, 40, 3⟩
abbrev PWR_CAP_SEL : Fld := ⟨R.PWR_CAP, 32, 3⟩
abbrev PWR_CAP_SW_CAP : Fld := ⟨R.PWR_CAP, 0, 16⟩
abbrev PWR_SLOPE_RATE : Fld := ⟨R.PWR_SLOPE, 0, 9⟩
abbrev PWR_SLOT_CAMPUS : Fld := ⟨R.PWR_SLOT, 48, 16⟩
abbrev PWR_SLOT_NEXT : Fld := ⟨R.PWR_SLOT, 0, 48⟩
abbrev PWR_CURTAIL_LEVEL : Fld := ⟨R.PWR_CURTAIL, 48, 16⟩
abbrev PWR_CURTAIL_DESC : Fld := ⟨R.PWR_CURTAIL, 38, 10⟩
abbrev PWR_CURTAIL_GUARD : Fld := ⟨R.PWR_CURTAIL, 32, 6⟩
abbrev PWR_CURTAIL_ASSERTS : Fld := ⟨R.PWR_CURTAIL, 8, 24⟩
abbrev PWR_CURTAIL_CHATTER : Fld := ⟨R.PWR_CURTAIL, 1, 1⟩
abbrev PWR_CURTAIL_ACTIVE : Fld := ⟨R.PWR_CURTAIL, 0, 1⟩
abbrev PWR_FLOOR_SHORT : Fld := ⟨R.PWR_FLOOR, 32, 32⟩
abbrev PWR_FLOOR_BALLAST_US : Fld := ⟨R.PWR_FLOOR, 0, 32⟩
abbrev PWR_CONFLICT_CURTAIL : Fld := ⟨R.PWR_CONFLICT, 48, 16⟩
abbrev PWR_CONFLICT_CAP : Fld := ⟨R.PWR_CONFLICT, 32, 16⟩
abbrev PWR_CONFLICT_SLOPE : Fld := ⟨R.PWR_CONFLICT, 16, 16⟩
abbrev PWR_CONFLICT_PREF : Fld := ⟨R.PWR_CONFLICT, 0, 16⟩
abbrev PWR_PREF_SEL_PHASE : Fld := ⟨R.PWR_PREF_SEL, 0, 6⟩
abbrev PWR_PREF_DATA_FCODE : Fld := ⟨R.PWR_PREF_DATA, 8, 6⟩
abbrev PWR_PREF_DATA_FVALID : Fld := ⟨R.PWR_PREF_DATA, 2, 1⟩
abbrev PWR_PREF_DATA_PREF : Fld := ⟨R.PWR_PREF_DATA, 0, 2⟩
abbrev PWR_CAPTBL_W : Fld := ⟨R.PWR_CAPTBL, 0, 12⟩
abbrev PWR_RAIL_STATUS_RAIL_PG : Fld := ⟨R.PWR_RAIL_STATUS, 32, 20⟩
abbrev PWR_RAIL_STATUS_ISOLATED : Fld := ⟨R.PWR_RAIL_STATUS, 16, 16⟩
abbrev PWR_RAIL_STATUS_FIELD_PG : Fld := ⟨R.PWR_RAIL_STATUS, 0, 16⟩
abbrev PWR_FIELD_LOSS_SECOND : Fld := ⟨R.PWR_FIELD_LOSS, 12, 4⟩
abbrev PWR_FIELD_LOSS_FIRST : Fld := ⟨R.PWR_FIELD_LOSS, 8, 4⟩
abbrev PWR_FIELD_LOSS_COUNT : Fld := ⟨R.PWR_FIELD_LOSS, 0, 2⟩
abbrev THM_STATUS_THROTTLED : Fld := ⟨R.THM_STATUS, 32, 16⟩
abbrev THM_STATUS_SHUTDOWN : Fld := ⟨R.THM_STATUS, 16, 16⟩
abbrev THM_STATUS_TRIP : Fld := ⟨R.THM_STATUS, 8, 1⟩
abbrev THM_STATUS_HOTTEST : Fld := ⟨R.THM_STATUS, 0, 8⟩
abbrev THM_CLU_GOOD : Fld := ⟨R.THM_CLU, 36, 4⟩
abbrev THM_CLU_DUTY : Fld := ⟨R.THM_CLU, 32, 4⟩
abbrev THM_CLU_THM_CAP : Fld := ⟨R.THM_CLU, 24, 6⟩
abbrev THM_CLU_TEMP : Fld := ⟨R.THM_CLU, 16, 8⟩
abbrev THM_CLU_THROTTLE_MS : Fld := ⟨R.THM_CLU, 0, 16⟩
abbrev PCH_PSTATE_CTRL_TARGET : Fld := ⟨R.PCH_PSTATE_CTRL, 0, 3⟩
abbrev PCH_PSTATE_STATUS_SOURCE : Fld := ⟨R.PCH_PSTATE_STATUS, 56, 8⟩
abbrev PCH_PSTATE_STATUS_WAKE_US : Fld := ⟨R.PCH_PSTATE_STATUS, 32, 24⟩
abbrev PCH_PSTATE_STATUS_WAKES : Fld := ⟨R.PCH_PSTATE_STATUS, 16, 16⟩
abbrev PCH_PSTATE_STATUS_REASON : Fld := ⟨R.PCH_PSTATE_STATUS, 8, 2⟩
abbrev PCH_PSTATE_STATUS_REJ : Fld := ⟨R.PCH_PSTATE_STATUS, 7, 1⟩
abbrev PCH_PSTATE_STATUS_CHANGING : Fld := ⟨R.PCH_PSTATE_STATUS, 3, 1⟩
abbrev PCH_PSTATE_STATUS_STATE : Fld := ⟨R.PCH_PSTATE_STATUS, 0, 3⟩
abbrev PCH_WAKE_CTRL_ALARM_EN : Fld := ⟨R.PCH_WAKE_CTRL, 2, 1⟩
abbrev PCH_WAKE_CTRL_SB_EN : Fld := ⟨R.PCH_WAKE_CTRL, 1, 1⟩
abbrev PCH_WAKE_CTRL_PIN_EN : Fld := ⟨R.PCH_WAKE_CTRL, 0, 1⟩
abbrev PCH_WAKE_AT_NT : Fld := ⟨R.PCH_WAKE_AT, 0, 64⟩
abbrev PCH_DOM_STATE_DOMS : Fld := ⟨R.PCH_DOM_STATE, 0, 64⟩
abbrev TIM_CTRL_DOMAIN : Fld := ⟨R.TIM_CTRL, 56, 8⟩
abbrev TIM_CTRL_ANN_TMO : Fld := ⟨R.TIM_CTRL, 52, 4⟩
abbrev TIM_CTRL_PPS_OUT_MODE : Fld := ⟨R.TIM_CTRL, 6, 2⟩
abbrev TIM_CTRL_SRC : Fld := ⟨R.TIM_CTRL, 4, 2⟩
abbrev TIM_CTRL_TRANSPORT : Fld := ⟨R.TIM_CTRL, 3, 1⟩
abbrev TIM_CTRL_STEP_EN : Fld := ⟨R.TIM_CTRL, 2, 1⟩
abbrev TIM_CTRL_EN : Fld := ⟨R.TIM_CTRL, 0, 1⟩
abbrev TIM_STATUS_STEPS : Fld := ⟨R.TIM_STATUS, 48, 16⟩
abbrev TIM_STATUS_IGNORED : Fld := ⟨R.TIM_STATUS, 32, 16⟩
abbrev TIM_STATUS_PPS_VALID : Fld := ⟨R.TIM_STATUS, 11, 1⟩
abbrev TIM_STATUS_REF : Fld := ⟨R.TIM_STATUS, 10, 1⟩
abbrev TIM_STATUS_EVER_LOCKED : Fld := ⟨R.TIM_STATUS, 9, 1⟩
abbrev TIM_STATUS_STATE : Fld := ⟨R.TIM_STATUS, 0, 3⟩
abbrev TIM_NT_NT : Fld := ⟨R.TIM_NT, 0, 64⟩
abbrev TIM_NT_FRAC_FRAC : Fld := ⟨R.TIM_NT_FRAC, 0, 16⟩
abbrev TIM_SERVO_FREQ_ADJ : Fld := ⟨R.TIM_SERVO, 32, 32⟩
abbrev TIM_SERVO_LOCK_THR : Fld := ⟨R.TIM_SERVO, 16, 16⟩
abbrev TIM_SERVO_KI_SH : Fld := ⟨R.TIM_SERVO, 8, 4⟩
abbrev TIM_SERVO_KP_SH : Fld := ⟨R.TIM_SERVO, 0, 4⟩
abbrev TIM_PATH_OFFSET : Fld := ⟨R.TIM_PATH, 32, 32⟩
abbrev TIM_PATH_DELAY : Fld := ⟨R.TIM_PATH, 0, 32⟩
abbrev TIM_MASTER_ID : Fld := ⟨R.TIM_MASTER, 0, 64⟩
abbrev TIM_MAC_MAC : Fld := ⟨R.TIM_MAC, 0, 48⟩
abbrev TIM_IPV4_ADDR : Fld := ⟨R.TIM_IPV4, 0, 32⟩
abbrev TIM_ASYM_INGRESS : Fld := ⟨R.TIM_ASYM, 32, 32⟩
abbrev TIM_ASYM_EGRESS : Fld := ⟨R.TIM_ASYM, 0, 32⟩
abbrev TIM_PPS_IN_IGN : Fld := ⟨R.TIM_PPS, 48, 16⟩
abbrev TIM_PPS_IN_ACC : Fld := ⟨R.TIM_PPS, 32, 16⟩
abbrev TIM_PPS_WIDTH : Fld := ⟨R.TIM_PPS, 0, 9⟩
abbrev BSQ_CTRL_WARM : Fld := ⟨R.BSQ_CTRL, 3, 1⟩
abbrev BSQ_CTRL_AUTO_VARIANT : Fld := ⟨R.BSQ_CTRL, 2, 1⟩
abbrev BSQ_CTRL_PREFER_B : Fld := ⟨R.BSQ_CTRL, 1, 1⟩
abbrev BSQ_STATUS_NO_WEIGHTS : Fld := ⟨R.BSQ_STATUS, 16, 1⟩
abbrev BSQ_STATUS_FAIL_CODE : Fld := ⟨R.BSQ_STATUS, 12, 4⟩
abbrev BSQ_STATUS_COPY : Fld := ⟨R.BSQ_STATUS, 8, 1⟩
abbrev BSQ_STATUS_FALLBACK : Fld := ⟨R.BSQ_STATUS, 7, 1⟩
abbrev BSQ_STATUS_PATH : Fld := ⟨R.BSQ_STATUS, 4, 3⟩
abbrev BSQ_STATUS_STATE : Fld := ⟨R.BSQ_STATUS, 0, 4⟩
abbrev BSQ_GRADE_GOOD : Fld := ⟨R.BSQ_GRADE, 56, 8⟩
abbrev BSQ_GRADE_ACTIVE : Fld := ⟨R.BSQ_GRADE, 48, 8⟩
abbrev BSQ_GRADE_SPARE : Fld := ⟨R.BSQ_GRADE, 40, 8⟩
abbrev BSQ_GRADE_MIN_CORES : Fld := ⟨R.BSQ_GRADE, 32, 8⟩
abbrev BSQ_GRADE_REQ : Fld := ⟨R.BSQ_GRADE, 24, 8⟩
abbrev BSQ_GRADE_LOST : Fld := ⟨R.BSQ_GRADE, 20, 4⟩
abbrev BSQ_GRADE_GRADE : Fld := ⟨R.BSQ_GRADE, 0, 3⟩
abbrev BSQ_DEFECTS_N : Fld := ⟨R.BSQ_DEFECTS, 0, 64⟩
abbrev BSQ_DIGEST_D : Fld := ⟨R.BSQ_DIGEST, 0, 64⟩
abbrev BSQ_NVM_CTRL_ADDR : Fld := ⟨R.BSQ_NVM_CTRL, 32, 32⟩
abbrev BSQ_NVM_CTRL_BUSY : Fld := ⟨R.BSQ_NVM_CTRL, 5, 1⟩
abbrev BSQ_NVM_CTRL_ERR : Fld := ⟨R.BSQ_NVM_CTRL, 4, 1⟩
abbrev BSQ_NVM_CTRL_DEV : Fld := ⟨R.BSQ_NVM_CTRL, 3, 1⟩
abbrev BSQ_NVM_CTRL_OP : Fld := ⟨R.BSQ_NVM_CTRL, 1, 2⟩
abbrev BSQ_NVM_CTRL_GO : Fld := ⟨R.BSQ_NVM_CTRL, 0, 1⟩
abbrev BSQ_FLASH_BUF_B : Fld := ⟨R.BSQ_FLASH_BUF, 0, 64⟩
abbrev SEC_SVN_IMAGE : Fld := ⟨R.SEC_SVN, 16, 8⟩
abbrev SEC_SVN_FUSED : Fld := ⟨R.SEC_SVN, 8, 8⟩
abbrev SEC_SVN_COMMIT_ERR : Fld := ⟨R.SEC_SVN, 2, 1⟩
abbrev SEC_SVN_BUSY : Fld := ⟨R.SEC_SVN, 1, 1⟩
abbrev SEC_SVN_COMMIT : Fld := ⟨R.SEC_SVN, 0, 1⟩
abbrev SEC_ATT_CTRL_DEST : Fld := ⟨R.SEC_ATT_CTRL, 32, 24⟩
abbrev SEC_ATT_CTRL_ERR : Fld := ⟨R.SEC_ATT_CTRL, 3, 1⟩
abbrev SEC_ATT_CTRL_DONE : Fld := ⟨R.SEC_ATT_CTRL, 2, 1⟩
abbrev SEC_ATT_CTRL_BUSY : Fld := ⟨R.SEC_ATT_CTRL, 1, 1⟩
abbrev SEC_ATT_CTRL_GO : Fld := ⟨R.SEC_ATT_CTRL, 0, 1⟩
abbrev SEC_ATT_NONCE_N : Fld := ⟨R.SEC_ATT_NONCE, 0, 64⟩
abbrev SEC_IDREC_B : Fld := ⟨R.SEC_IDREC, 0, 64⟩
abbrev NWT_CTRL_HALT_WAIT : Fld := ⟨R.NWT_CTRL, 8, 8⟩
abbrev NWT_CTRL_PRE_SHARE : Fld := ⟨R.NWT_CTRL, 3, 2⟩
abbrev NWT_CTRL_DEAD_EN : Fld := ⟨R.NWT_CTRL, 2, 1⟩
abbrev NWT_CTRL_LIVE_EN : Fld := ⟨R.NWT_CTRL, 1, 1⟩
abbrev NWT_CTRL_CORE_EN : Fld := ⟨R.NWT_CTRL, 0, 1⟩
abbrev NWT_STATUS_SPARE_CLU : Fld := ⟨R.NWT_STATUS, 56, 8⟩
abbrev NWT_STATUS_LAST_LCLU : Fld := ⟨R.NWT_STATUS, 48, 8⟩
abbrev NWT_STATUS_LAST_LCORE : Fld := ⟨R.NWT_STATUS, 43, 5⟩
abbrev NWT_STATUS_DIRTY_WORDS : Fld := ⟨R.NWT_STATUS, 24, 19⟩
abbrev NWT_STATUS_RESULT : Fld := ⟨R.NWT_STATUS, 4, 4⟩
abbrev NWT_STATUS_FUSE_FULL : Fld := ⟨R.NWT_STATUS, 3, 1⟩
abbrev NWT_STATUS_STATE : Fld := ⟨R.NWT_STATUS, 0, 3⟩
abbrev NWT_REQ_NOFUSE : Fld := ⟨R.NWT_REQ, 18, 1⟩
abbrev NWT_REQ_GO : Fld := ⟨R.NWT_REQ, 17, 1⟩
abbrev NWT_REQ_KIND : Fld := ⟨R.NWT_REQ, 16, 1⟩
abbrev NWT_REQ_LCLU : Fld := ⟨R.NWT_REQ, 8, 8⟩
abbrev NWT_REQ_LCORE : Fld := ⟨R.NWT_REQ, 0, 5⟩
abbrev NWT_MAP_SEL_LCLU : Fld := ⟨R.NWT_MAP_SEL, 0, 8⟩
abbrev NWT_MAP_DATA_VALID : Fld := ⟨R.NWT_MAP_DATA, 63, 1⟩
abbrev NWT_MAP_DATA_REDIRECT : Fld := ⟨R.NWT_MAP_DATA, 62, 1⟩
abbrev NWT_MAP_DATA_SITE : Fld := ⟨R.NWT_MAP_DATA, 48, 8⟩
abbrev NWT_MAP_DATA_OLD_SITE : Fld := ⟨R.NWT_MAP_DATA, 40, 8⟩
abbrev NWT_MAP_DATA_SPARE_CORES : Fld := ⟨R.NWT_MAP_DATA, 32, 4⟩
abbrev NWT_COUNT_CORE_SWAPS : Fld := ⟨R.NWT_COUNT, 48, 16⟩
abbrev NWT_COUNT_CLU_SWAPS : Fld := ⟨R.NWT_COUNT, 32, 16⟩
abbrev NWT_COUNT_ROW_REPAIRS : Fld := ⟨R.NWT_COUNT, 16, 16⟩
abbrev NWT_COUNT_LAST_WIN_US : Fld := ⟨R.NWT_COUNT, 0, 16⟩
abbrev SKK_CTRL_PERIOD : Fld := ⟨R.SKK_CTRL, 48, 16⟩
abbrev SKK_CTRL_OBS_PERIOD : Fld := ⟨R.SKK_CTRL, 40, 8⟩
abbrev SKK_CTRL_PAR : Fld := ⟨R.SKK_CTRL, 32, 8⟩
abbrev SKK_CTRL_RELEASE : Fld := ⟨R.SKK_CTRL, 16, 16⟩
abbrev SKK_CTRL_BALLAST_EN : Fld := ⟨R.SKK_CTRL, 3, 1⟩
abbrev SKK_CTRL_SCRUB_EN : Fld := ⟨R.SKK_CTRL, 2, 1⟩
abbrev SKK_CTRL_LDO_EN : Fld := ⟨R.SKK_CTRL, 1, 1⟩
abbrev SKK_CTRL_EN : Fld := ⟨R.SKK_CTRL, 0, 1⟩
abbrev SKK_STATUS_OBS_N : Fld := ⟨R.SKK_STATUS, 48, 16⟩
abbrev SKK_STATUS_OLDEST_S : Fld := ⟨R.SKK_STATUS, 32, 16⟩
abbrev SKK_STATUS_YIELDS : Fld := ⟨R.SKK_STATUS, 16, 16⟩
abbrev SKK_STATUS_YIELD_MAX_NS : Fld := ⟨R.SKK_STATUS, 0, 16⟩
abbrev SKK_COUNT_PASSES : Fld := ⟨R.SKK_COUNT, 32, 32⟩
abbrev SKK_COUNT_FAILS : Fld := ⟨R.SKK_COUNT, 16, 16⟩
abbrev SKK_COUNT_UNCONFIRMED : Fld := ⟨R.SKK_COUNT, 0, 16⟩
abbrev SKK_OBS_SEL_INDEX : Fld := ⟨R.SKK_OBS_SEL, 0, 8⟩
abbrev SKK_OBS_DATA_VALID : Fld := ⟨R.SKK_OBS_DATA, 63, 1⟩
abbrev SKK_OBS_DATA_SITE : Fld := ⟨R.SKK_OBS_DATA, 40, 8⟩
abbrev SKK_OBS_DATA_CORE : Fld := ⟨R.SKK_OBS_DATA, 32, 6⟩
abbrev SKK_OBS_DATA_PASSES : Fld := ⟨R.SKK_OBS_DATA, 16, 16⟩
abbrev SKK_OBS_DATA_CAUSE : Fld := ⟨R.SKK_OBS_DATA, 8, 8⟩

end F

end Sys2Proof.Machine
end

