-- ==== Sys2Proof/Machine/Ops.lean ====
section
/-! DEFINITION. The named operations over sparse maps, registers, memory and addresses, and the injection of packets. -/

namespace Sys2Proof.Machine

/-! Sparse maps and memory in canonical form. -/

/-- The value at key k; an unlisted key reads as the default z. The scan ends at the first key above k. -/
def sget {β : Type} (m : SMap β) (z : β) (k : Nat) : β :=
  match m with
  | [] => z
  | (a, v) :: r => if a = k then v else if k < a then z else sget r z k

/-- Write v at key k, keeping the canonical form: keys strictly rising, no entry equal to the default z. -/
def sset {β : Type} [DecidableEq β] (m : SMap β) (z : β) (k : Nat) (v : β) : SMap β :=
  match m with
  | [] => if v = z then [] else [(k, v)]
  | (a, w) :: r =>
    if k < a then (if v = z then (a, w) :: r else (k, v) :: (a, w) :: r)
    else if k = a then (if v = z then r.dropWhile (fun x => decide (x.1 ≤ k)) else (k, v) :: r)
    else (a, w) :: sset r z k v

/-- The canonical form of a sparse map: keys strictly rising above `lo`, no value equal to the default. -/
def swfFrom {β : Type} [DecidableEq β] (z : β) (lo : Nat) : SMap β → Bool
  | [] => true
  | (a, v) :: r => decide (lo ≤ a) && decide (v ≠ z) && swfFrom z (a + 1) r

/-- The canonical form of a sparse map. -/
def swf {β : Type} [DecidableEq β] (z : β) (m : SMap β) : Bool := swfFrom z 0 m

/-- The canonical form of a memory: addresses strictly rising, no byte equal to the 0 that an unlisted address reads
as (assumption 13). -/
def Memory.wf (m : List Host.Cell) : Bool := swf (0 : Byte) m

/-- A map in canonical form that reads as the given one at every key: it changes no canonical map. -/
def canon {β : Type} [DecidableEq β] (z : β) (m : SMap β) : SMap β :=
  match m with
  | [] => []
  | (a, v) :: r =>
    let t := (canon z r).dropWhile (fun x => decide (x.1 ≤ a))
    if v = z then t else (a, v) :: t

/-- The byte at an address. -/
def peek (m : List Host.Cell) (a : Nat) : Byte := sget m 0 a

/-- Write a byte. -/
def poke (m : List Host.Cell) (a : Nat) (b : Byte) : List Host.Cell := sset m 0 a b

/-- The n bytes from address a. -/
def peekN (m : List Host.Cell) (a : Nat) : Nat → List Byte
  | 0 => []
  | n + 1 => peek m a :: peekN m (a + 1) n

/-- Write bytes from address a. -/
def pokeN (m : List Host.Cell) (a : Nat) : List Byte → List Host.Cell
  | [] => m
  | b :: bs => pokeN (poke m a b) (a + 1) bs

/-- The number that bytes spell, least significant first (R4). -/
def leNat : List Byte → Nat
  | [] => 0
  | b :: bs => b.toNat + 256 * leNat bs

/-- The n bytes of a number, least significant first (R4). -/
def leBytes : Nat → Nat → List Byte
  | 0, _ => []
  | n + 1, v => BitVec.ofNat 8 v :: leBytes n (v / 256)

/-- The number in n bytes of a list from offset o. Bytes past the end read 0. -/
def leAt (bs : List Byte) (o n : Nat) : Nat := leNat ((bs.drop o).take n)

/-- n zero bytes. -/
def zeros (n : Nat) : List Byte := List.replicate n 0

/-- Exactly n bytes of a list, filled with zeros. -/
def takeZ (n : Nat) (bs : List Byte) : List Byte := bs.take n ++ zeros (n - bs.length)

/-! Bits of numbers. -/

/-- Bits lo to lo + w − 1 of a number. -/
def bitsOf (x lo w : Nat) : Nat := x / 2 ^ lo % 2 ^ w

/-- Bit i of a number. -/
def bitOf (x i : Nat) : Bool := x / 2 ^ i % 2 == 1

/-- A number with bits lo to lo + w − 1 replaced by v. -/
def putBits (x lo w v : Nat) : Nat := x / 2 ^ (lo + w) * 2 ^ (lo + w) + v % 2 ^ w * 2 ^ lo + x % 2 ^ lo

/-- A number with bit i set to b. -/
def putBit (x i : Nat) (b : Bool) : Nat := putBits x i 1 (if b then 1 else 0)

/-- 1 for true. -/
def b2n (b : Bool) : Nat := if b then 1 else 0

/-- The number of set bits among the low w bits. -/
def popCount (x : Nat) : Nat → Nat
  | 0 => 0
  | w + 1 => b2n (bitOf x w) + popCount x w

/-- The lowest set bit below w, if any. -/
def lowestBit (x w : Nat) : Option Nat := (List.range w).find? (bitOf x ·)

/-! Registers. -/

/-- The key of word i of a register in unit u. -/
def Reg.key (r : Reg) (u i : Nat) : Nat := (r.code * 4194304 + u) * 4096 + i

/-- The reset word of a register. -/
def Reg.word (r : Reg) : Word := BitVec.ofNat 64 r.reset

/-- The word of a register in unit u (instance; for the common registers the block code * 65,536 + instance). -/
def Dev.getR (d : Dev) (r : Reg) (u : Nat) (i : Nat := 0) : Word := sget d.regs r.word (r.key u i)

/-- Store a register word. -/
def Dev.setR (d : Dev) (r : Reg) (u : Nat) (w : Word) (i : Nat := 0) : Dev :=
  { d with regs := sset d.regs r.word (r.key u i) w }

/-- The value of a field. -/
def Dev.fld (d : Dev) (f : Fld) (u : Nat) (i : Nat := 0) : Nat := bitsOf (d.getR f.reg u i).toNat f.lo f.width

/-- Whether a one-bit field is 1. -/
def Dev.flag (d : Dev) (f : Fld) (u : Nat) (i : Nat := 0) : Bool := d.fld f u i == 1

/-- Store a field, leaving the register's other bits. -/
def Dev.setF (d : Dev) (f : Fld) (u v : Nat) (i : Nat := 0) : Dev :=
  d.setR f.reg u (BitVec.ofNat 64 (putBits (d.getR f.reg u i).toNat f.lo f.width v)) i

/-- Add to a field that saturates. -/
def Dev.addSat (d : Dev) (f : Fld) (u n : Nat) (i : Nat := 0) : Dev :=
  d.setF f u (min (2 ^ f.width - 1) (d.fld f u i + n)) i

/-- Add to a field that wraps. -/
def Dev.addWrap (d : Dev) (f : Fld) (u n : Nat) (i : Nat := 0) : Dev := d.setF f u (d.fld f u i + n) i

/-- Set a one-bit field. -/
def Dev.setB (d : Dev) (f : Fld) (u : Nat) (b : Bool) (i : Nat := 0) : Dev := d.setF f u (b2n b) i

/-- Set one bit of a field. -/
def Dev.setFbit (d : Dev) (f : Fld) (u k : Nat) (b : Bool) (i : Nat := 0) : Dev :=
  d.setF f u (putBit (d.fld f u i) k b) i

/-- Put back the reset word of a register. -/
def Dev.resetR (d : Dev) (r : Reg) (u : Nat) (i : Nat := 0) : Dev := d.setR r u r.word i

/-- Apply a change for each number of a list. -/
def Dev.each {α : Type} (d : Dev) (xs : List α) (f : Dev → α → Dev) : Dev := xs.foldl f d

/-- Apply a change when a condition holds. -/
def Dev.when (d : Dev) (b : Bool) (f : Dev → Dev) : Dev := if b then f d else d

/-! Finishing a command. -/

/-- The outcome of a command that changes only the device, not the memories. -/
def State.upd (s : State) (f : Dev → Dev) : Host.Outcome State Fault Refusal := .next { s with dev := f s.dev }

/-- The outcome of a command that works on memories too: the queue is as it was, the memories are in canonical form. -/
def State.done (s t : State) : Host.Outcome State Fault Refusal :=
  .next { pending := s.pending, mem := canon 0 t.mem, abuf := canon 0 t.abuf, flash := canon 0 t.flash,
          ecc := canon 0 t.ecc, dev := t.dev }

/-- The state with its device changed. -/
def State.onDev (s : State) (f : Dev → Dev) : State := { s with dev := f s.dev }

/-- Apply a change for each element of a list. -/
def State.each {α : Type} (s : State) (xs : List α) (f : State → α → State) : State := xs.foldl f s

/-! Units. -/

/-- The register unit of a core site. -/
def cu (site core : Nat) : Nat := site * 256 + core

/-- What a core holds. -/
def Dev.core (d : Dev) (u : Nat) : CoreS := sget d.cores CoreS.init u

/-- Change what a core holds. -/
def Dev.modCore (d : Dev) (u : Nat) (f : CoreS → CoreS) : Dev :=
  { d with cores := sset d.cores CoreS.init u (f (d.core u)) }

/-- What a cluster holds. -/
def Dev.clu (d : Dev) (u : Nat) : CluS := sget d.clus CluS.init u

/-- Change what a cluster holds. -/
def Dev.modClu (d : Dev) (u : Nat) (f : CluS → CluS) : Dev := { d with clus := sset d.clus CluS.init u (f (d.clu u)) }

/-- Count an estimator event of a cluster (R448). -/
def Dev.countEv (d : Dev) (u k n : Nat) : Dev :=
  if n = 0 then d else d.modClu u fun c => { c with evs := sset c.evs 0 k (sget c.evs 0 k + n) }

/-! The estimator's events of Table 12-1, by the index of their weights (assumption 20): a k-step of the cube at 3 · class + sparsity, a
dot group at 9 or 10, a vector lane-cycle at 11 binary32, 12 binary16, 13 E8M7, 14 special functions. -/

/-- A 128 B transfer of the move engine. -/
def evMove : Nat := 15
/-- A 128 B read of a WM element or metadata port. -/
def evWm : Nat := 16
/-- A 64 B access of CSM. -/
def evCsm : Nat := 17
/-- A router flit sent. -/
def evFlit : Nat := 18
/-- A ballast k-step. -/
def evBallast : Nat := 19

/-- The 64 B accesses that n bytes at an offset take. -/
def csmLines (a n : Nat) : Nat := if n = 0 then 0 else (a % 64 + n + 63) / 64

/-- What a router holds. -/
def Dev.rtr (d : Dev) (u : Nat) : RtrS := sget d.rtrs RtrS.init u

/-- Change what a router holds. -/
def Dev.modRtr (d : Dev) (u : Nat) (f : RtrS → RtrS) : Dev := { d with rtrs := sset d.rtrs RtrS.init u (f (d.rtr u)) }

/-- What an HBM block holds. -/
def Dev.hbm (d : Dev) (u : Nat) : HbmS := sget d.hbms HbmS.init u

/-- Change what an HBM block holds. -/
def Dev.modHbm (d : Dev) (u : Nat) (f : HbmS → HbmS) : Dev := { d with hbms := sset d.hbms HbmS.init u (f (d.hbm u)) }

/-- What a Cellar channel holds. -/
def Dev.cel (d : Dev) (u : Nat) : CelS := sget d.cels CelS.init u

/-- Change what a Cellar channel holds. -/
def Dev.modCel (d : Dev) (u : Nat) (f : CelS → CelS) : Dev := { d with cels := sset d.cels CelS.init u (f (d.cel u)) }

/-- What a link holds. -/
def Dev.lnk (d : Dev) (u : Nat) : LnkS := sget d.lnks LnkS.init u

/-- Change what a link holds. -/
def Dev.modLnk (d : Dev) (u : Nat) (f : LnkS → LnkS) : Dev := { d with lnks := sset d.lnks LnkS.init u (f (d.lnk u)) }

/-- A power domain. -/
def Dev.dom (d : Dev) (u : Nat) : DomS := sget d.doms DomS.init u

/-- Change a power domain. -/
def Dev.modDom (d : Dev) (u : Nat) (f : DomS → DomS) : Dev := { d with doms := sset d.doms DomS.init u (f (d.dom u)) }

/-- Change power control's state. -/
def Dev.modPwr (d : Dev) (f : PwrS → PwrS) : Dev := { d with pwr := f d.pwr }

/-- A session. -/
def Dev.sess (d : Dev) (u : Nat) : SessS := sget d.sessions SessS.init u

/-- Change a session. -/
def Dev.modSess (d : Dev) (u : Nat) (f : SessS → SessS) : Dev :=
  { d with sessions := sset d.sessions SessS.init u (f (d.sess u)) }

/-- NT in ns (R503). -/
def Dev.nt (d : Dev) : Nat := d.tim.sub / 40000000000

/-- NT without its steps: what a rule that measures an elapsed interval reads, so that a step does not change the interval (R508).
-/
def Dev.now (d : Dev) : Nat := (((d.tim.sub : Int) - d.tim.skew) / 40000000000).toNat

/-- One cycle of the 400 MHz master counter: NT advances by 2.5 ns times 1 + FREQ_ADJ, which is in 0.01 ppb (R504), and each field
timebase by 4 fabric cycles of 0.625 ns (R505). In Off nothing runs (R503). -/
def Dev.tick (d : Dev) : Dev :=
  let a := d.fld F.TIM_SERVO_FREQ_ADJ 0
  let adj : Int := if a < 0x80000000 then a else (a : Int) - 0x100000000
  { d with tim := if d.fld F.PCH_PSTATE_STATUS_STATE 0 = 4 then d.tim
      else { d.tim with sub := d.tim.sub + (100000000000 + adj).toNat, lag := d.tim.lag - adj } }

/-- Send something out of the block. -/
def Dev.emit (d : Dev) (o : Output) : Dev := { d with out := d.out ++ [o] }

/-- The next free 64-bit value (assumption 3). -/
def Dev.free (d : Dev) : Word := Config.freeWord d.fresh

/-- The state after a free value was taken. -/
def Dev.took (d : Dev) : Dev := { d with fresh := d.fresh + 1 }

/-! Geometry (R5, R19, R20, R23, R25). -/

/-- The field of a site (R5). -/
def fieldOf (site : Nat) : Nat := site / 64 * 4 + site % 16 / 4

/-- The local index of a site (R19). -/
def localIx (site : Nat) : Nat := site / 16 % 4 * 4 + site % 4

/-- The site of local index k in a field. -/
def siteOf (f k : Nat) : Nat := (f / 4 * 4 + k / 4) * 16 + f % 4 * 4 + k % 4

/-- The sites of a field. -/
def fieldSites (f : Nat) : List Nat := (List.range 16).map (siteOf f)

/-- The router next to a site through port 0 N, 1 E, 2 S, 3 W (Table 6-2). -/
def neighbour (site port : Nat) : Option Nat :=
  if port = 0 then (if site < 16 then none else some (site - 16))
  else if port = 1 then (if site % 16 = 15 then none else some (site + 1))
  else if port = 2 then (if site ≥ 240 then none else some (site + 16))
  else if port = 3 then (if site % 16 = 0 then none else some (site - 1))
  else none

/-- The port at the far end of a link. -/
def backPort (port : Nat) : Nat := (port + 2) % 4

/-- Whether a router has a port (Table 6-2). -/
def hasPort (site port : Nat) : Bool :=
  if port < 4 then (neighbour site port).isSome
  else if port = 4 then true
  else if port = 5 then site < 16 || site ≥ 240
  else if port = 6 then site % 16 = 0 || site % 16 = 15
  else false

/-- The Hallway a hop from a site through a port crosses, as (owning field, Hallway) (R25). -/
def hallwayOf (site port : Nat) : Option (Nat × Nat) :=
  match neighbour site port with
  | none => none
  | some t =>
    if fieldOf site = fieldOf t then none
    else if port = 1 then some (fieldOf site, site / 16 % 4)
    else if port = 3 then some (fieldOf t, site / 16 % 4)
    else if port = 2 then some (fieldOf site, 4 + site % 4)
    else some (fieldOf t, 4 + site % 4)

/-- Whether a field owns Hallway h (R25). -/
def ownsHw (f h : Nat) : Bool := if h < 4 then f % 4 < 3 else f / 4 < 3

/-- The field on the other side of an owned Hallway. -/
def hwFar (f h : Nat) : Nat := if h < 4 then f + 1 else f + 4

/-- The two face sites of an HBM stack, lower-numbered first (Table 1-3). -/
def hbmFace (h face : Nat) : Nat :=
  if h < 6 then [0, 2, 6, 8, 12, 14].getD h 0 + face
  else if h < 11 then ([0, 4, 7, 10, 14].getD (h - 6) 0 + face) * 16 + 15
  else ([0, 4, 7, 10, 14].getD (h - 11) 0 + face) * 16

/-- The face site of a Cellar channel (Table 1-3). -/
def celFace (c : Nat) : Nat := 240 + [2, 3, 12, 13].getD (c / 3) 0

/-- The face site of a link (Table 1-3). -/
def lnkFace (l : Nat) : Nat :=
  if l < 8 then [4, 5, 10, 11].getD (l / 2) 0
  else if l < 24 then
    (if l < 11 then 2 else if l < 14 then 3 else if l < 17 then 6 else if l < 20 then 9 else if l < 22 then 12 else 13) * 16 + 15
  else if l < 40 then
    (if l < 27 then 2 else if l < 30 then 3 else if l < 33 then 6 else if l < 36 then 9 else if l < 38 then 12 else 13) * 16
  else 240 + [0, 1, 14, 15].getD ((l - 40) / 2) 0

/-- The edge port of a face: EDGE0 on the north and south edges, EDGE1 on the east and west (Table 6-2). -/
def hbmPort (h : Nat) : Nat := if h < 6 then 5 else 6

/-- The edge port of a link's face. -/
def lnkPort (l : Nat) : Nat := if l < 8 || l ≥ 40 then 5 else 6

/-- DST_CORE of an edge port (Table 6-4). -/
def edgeCore (port : Nat) : Nat := if port = 5 then 61 else 62

/-- The face site of an edge block by block code and instance (Table 1-3, R241). -/
def blockFace (blk inst : Nat) : Nat × Nat :=
  if blk = 5 then (hbmFace inst 0, hbmPort inst)
  else if blk = 6 then (celFace inst, 5)
  else if blk = 7 then (lnkFace inst, lnkPort inst)
  else if blk = 8 then (246 + inst % 4, 5)
  else if blk = 9 then (245, 5)
  else if blk = 10 then (244, 5)
  else if blk = 12 || blk = 13 then (250, 5)
  else (251, 5)

/-- The field whose timebase a block reads: its own, an edge block that of its face site (R505). -/
def blockField (blk inst : Nat) : Nat :=
  if blk = 1 then fieldOf (inst / 256) else if blk = 2 || blk = 3 then fieldOf inst else if blk = 4 || blk = 18 then inst
  else fieldOf (blockFace blk inst).1

/-- The timebase of a field less NT, in the units of `sub` (R505). -/
def Dev.tbErr (d : Dev) (f : Nat) : Int := d.tim.lag + sget d.tim.tb 0 f

/-- NT as a block reads it, in ns: from the timebase of its field, and the time block from its master counter (R505). -/
def Dev.ntAt (d : Dev) (blk inst : Nat) : Nat :=
  if blk = 14 then d.nt else (((d.tim.sub : Int) + d.tbErr (blockField blk inst)) / 40000000000).toNat

/-- Block codes of Table 0-7. -/
def bCOR : Nat := 1
/-- CLU of Table 0-7. -/
def bCLU : Nat := 2
/-- FAB of Table 0-7. -/
def bFAB : Nat := 3
/-- FLD of Table 0-7. -/
def bFLD : Nat := 4
/-- HBM of Table 0-7. -/
def bHBM : Nat := 5
/-- CEL of Table 0-7. -/
def bCEL : Nat := 6
/-- LNK of Table 0-7. -/
def bLNK : Nat := 7
/-- UCI of Table 0-7. -/
def bUCI : Nat := 8
/-- CMD of Table 0-7. -/
def bCMD : Nat := 9
/-- JNL of Table 0-7. -/
def bJNL : Nat := 10
/-- PCH of Table 0-7. -/
def bPCH : Nat := 11
/-- BSQ of Table 0-7. -/
def bBSQ : Nat := 12
/-- SEC of Table 0-7. -/
def bSEC : Nat := 13
/-- TIM of Table 0-7. -/
def bTIM : Nat := 14
/-- NWT of Table 0-7. -/
def bNWT : Nat := 15
/-- SKK of Table 0-7. -/
def bSKK : Nat := 16
/-- PWR of Table 0-7. -/
def bPWR : Nat := 17
/-- THM of Table 0-7. -/
def bTHM : Nat := 18
/-- TRN of Table 0-7. -/
def bTRN : Nat := 19

/-- NT as the command engine reads it (R505). -/
def Dev.cmdNt (d : Dev) : Nat := d.ntAt bCMD 0

/-- The unit of the common registers of a block instance (R14). -/
def evU (blk inst : Nat) : Nat := blk * 65536 + inst

/-! Presence (R10, R79, R247, R439). -/

/-- Device state of PCH_PSTATE_STATUS: 0 Run to 4 Off. -/
def Dev.pstate (d : Dev) : Nat := d.fld F.PCH_PSTATE_STATUS_STATE 0

/-- Whether the device is in FAILSAFE (R532). -/
def Dev.failsafed (d : Dev) : Bool := d.fld F.BSQ_STATUS_STATE 0 == 3

/-- A field is isolated or lost (R439). -/
def Dev.fieldLost (d : Dev) (f : Nat) : Bool := bitOf (d.fld F.PWR_RAIL_STATUS_ISOLATED 0) f

/-- A cluster site's compute domain is retired, or off because of a fault (R247, R434, R470, R558). -/
def Dev.siteOut (d : Dev) (site : Nat) : Bool :=
  d.boot.siteBad.contains site || d.fieldLost (fieldOf site) ||
  d.fld F.FLD_LDO_STATE (fieldOf site) (localIx site) == 4 || bitOf (d.fld F.THM_STATUS_SHUTDOWN (fieldOf site)) (localIx site)

/-- A core site is absent: bad in the fuse map or under BIST (R79). -/
def Dev.coreAbsent (d : Dev) (u : Nat) : Bool := sget d.boot.coreBad 0 u == 1

/-- A core's STATE (Table 2-10): 0 HALTED, 1 RUNNING, 2 WAITING, 3 STOPPED, 4 RETIRED. -/
def Dev.coreState (d : Dev) (u : Nat) : Nat := d.fld F.COR_STATUS_STATE u

/-! The clocks of cores (R85, R86). -/

/-- The limit of a core at an LDO setpoint, as a frequency code (R85). -/
def Dev.coreLim (d : Dev) (u v : Nat) : Int :=
  min 36 ((d.fld F.COR_FMAX_FMAX_CUR u : Int) + ((v : Int) - 50) / 2)

/-- The cores of a site that are neither absent nor RETIRED. -/
def Dev.activeCores (d : Dev) (site : Nat) : List Nat :=
  (List.range 36).filterMap fun c =>
    let u := cu site c
    if d.coreAbsent u || d.coreState u == 4 then none else some u

/-- Show a cluster's clocks: EFFECTIVE and the code of each core, the lower of the cluster's frequency and the core's limit
(R85, Table 14-13). -/
def Dev.showClk (d : Dev) (site : Nat) : Dev :=
  let v := d.fld F.CLU_PWR_VSET site
  let f := d.fld F.CLU_PWR_FREQ site
  d.each (d.activeCores site) fun d u =>
    let lim := d.coreLim u v
    let eff := if lim < 0 then 0 else lim.toNat
    let d := if d.fld F.COR_FMAX_EFFECTIVE u = eff then d else d.setF F.COR_FMAX_EFFECTIVE u eff
    let code := min f eff
    if d.fld F.COR_CLK_CODE u = code then d else d.setF F.COR_CLK_CODE u code

/-! Operating points (R83 to R86, R461). -/

/-- FMAX_CUR of the slowest active core of a cluster. -/
def Dev.slowest (d : Dev) (site : Nat) : Nat :=
  (d.activeCores site).foldl (fun m u => min m (d.fld F.COR_FMAX_FMAX_CUR u)) 36

/-- The lowest setpoint at which the slowest active core reaches a frequency code (R461), unbounded above. -/
def vFor (slow f : Nat) : Nat := 50 + 2 * f - 2 * slow

/-- Set the LDO setpoint of a cluster: FLD_LDO and CLU_PWR show it. -/
def Dev.setVset (d : Dev) (site v : Nat) : Dev :=
  ((d.setF F.FLD_LDO_VSET (fieldOf site) v (localIx site)).setF F.FLD_LDO_VOUT (fieldOf site) v (localIx site)).setF
    F.CLU_PWR_VSET site v

/-! The core map (R573). -/

/-- The core site that logical core n of a cluster site resolves to (R573). -/
def Dev.coreMap (d : Dev) (site n : Nat) : Option Nat :=
  let b := bitsOf (d.getR R.CLU_CORE_MAP site (n / 8)).toNat (n % 8 * 8) 8
  if n < 32 && b ≥ 128 then some (b % 64) else none

/-- A place in the address map (R6 to R11): device memory by physical address, host window memory by offset, a register
offset of a block instance, a reserved range (R13), or unmapped (R10). -/
inductive Place where
  | unmapped
  | mem (a : Nat)
  | host (off : Nat)
  | reg (blk inst off : Nat)
  | resv
deriving DecidableEq, Repr

/-- A place inside the window of a physical cluster site. `lg` says that the window is logical (R7, R79, R573). The core map and
the redirect lie in the gateway and answer while the compute domain is off (R574). The cluster register space ends at +0x810000,
the 64 KiB that edge block instances have; the rest up to the core windows is unmapped, not reserved: the spec gives no size for
it (R7, R9; assumption 93). -/
def Dev.placeClu (d : Dev) (site : Nat) (lg : Bool) (o : Nat) : Place :=
  let base := 0x1000000000 + site * 0x8000000
  if 0x802400 ≤ o && o < 0x802428 && !d.fieldLost (fieldOf site) then .reg 2 site (o - 0x800000)
  else if d.siteOut site then .unmapped
  else if o < 0x600000 then .mem (base + o)
  else if o < 0x800000 then .unmapped
  else if o < 0x810000 then .reg 2 site (o - 0x800000)
  else if o < 0x1000000 then .unmapped
  else
    let n := (o - 0x1000000) / 0x200000
    let x := (o - 0x1000000) % 0x200000
    let c? := if lg then d.coreMap site n else if n < 36 then some n else none
    match c? with
    | none => .unmapped
    | some c =>
      if d.coreAbsent (cu site c) then .unmapped
      else if x ≥ 0x1F0000 then .reg 1 (cu site c) (x - 0x1F0000)
      else if x < 0x150000 && d.coreState (cu site c) ≠ 4 then .mem (base + 0x1000000 + c * 0x200000 + x)
      else .unmapped

/-- Whether an edge block is stranded: each of its faces lies in a lost field (Table 1-3). What F13 and F14 carry stays reachable
(R547; assumption 119). -/
def Dev.stranded (d : Dev) (blk inst : Nat) : Bool :=
  if blk = 5 then d.fieldLost (fieldOf (hbmFace inst 0)) && d.fieldLost (fieldOf (hbmFace inst 1))
  else if blk = 6 then d.fieldLost (fieldOf (celFace inst))
  else blk = 7 && d.fieldLost (fieldOf (lnkFace inst))

/-- The number of Cellar channels in the interleave and the DIMM capacity in bytes (R326). -/
def Dev.celN (d : Dev) : Nat := d.fld F.CEL_STATUS_N 0

/-- DIMM capacity in bytes (R326). -/
def Dev.celS (d : Dev) : Nat := d.fld F.CEL_STATUS_SIZE 0 * 0x200000000

/-- The Cellar channel that holds an offset of the Cellar window (R327). -/
def Dev.celChan (d : Dev) (a : Nat) : Nat :=
  ((List.range 12).filter fun c => d.flag F.CEL_STATUS_IN_ILV c).getD (a / 4096 % max 1 d.celN) 0

/-- Whether an HBM stack serves accesses: neither FAILED nor OFFLINE (R315, R317). -/
def Dev.hbmServes (d : Dev) (h : Nat) : Bool :=
  d.fld F.HBM_STATUS_STATE h ≠ 4 && !d.flag F.HBM_CTRL_OFFLINE h && !d.stranded 5 h

/-- Whether a Cellar channel serves accesses (R330, R331). -/
def Dev.celServes (d : Dev) (c : Nat) : Bool :=
  d.fld F.CEL_STATUS_STATE c ≠ 4 && !d.flag F.CEL_CTRL_OFFLINE c && !d.stranded 6 c

/-- Whether the edge region has an instance of a block (Table 0-7). -/
def edgePresent (blk inst : Nat) : Bool :=
  if blk = 5 then inst < 16 else if blk = 6 then inst < 12 else if blk = 7 then inst < 48
  else if blk = 8 then inst < 4 else (9 ≤ blk && blk ≤ 17 || blk = 19) && inst = 0

/-! Power domains (Table 11-5). -/

/-- The domain of a field's fabric (Table 11-5). -/
def domFab (f : Nat) : Nat := 256 + f
/-- The domain of an HBM edge. -/
def domHbm (h : Nat) : Nat := 272 + h
/-- The domain of a link's quad. -/
def domQuad (l : Nat) : Nat := 288 + l / 4
/-- The domain of a Cellar channel's pair. -/
def domCel (c : Nat) : Nat := 300 + c / 2
/-- The UCIe domain. -/
def domUci : Nat := 306
/-- The host window domain. -/
def domHost : Nat := 307
/-- The boot and security domain. -/
def domBoot : Nat := 310

/-- The domain whose sleep holds up an access to a block's registers (R482); the Porch, time and boot domains never do. -/
def regDomain (blk inst : Nat) : Option Nat :=
  if blk = 1 then some (inst / 256) else if blk = 2 then some inst
  else if blk = 3 then some (256 + fieldOf inst) else if blk = 4 || blk = 18 then some (256 + inst)
  else if blk = 5 then some (domHbm inst) else if blk = 6 then some (domCel inst) else if blk = 7 then some (domQuad inst)
  else if blk = 9 || blk = 10 then some domHost else none

/-- The place of a global address, with the site of each logical cluster given by `lsite` (R6 to R10, R241). -/
def Dev.place (d : Dev) (lsite : Nat → Option Nat) (a : Nat) : Place :=
  if a < 0x1000000 then (if d.pwr.lost.contains domHost then .unmapped else .host a)
  else if a < 0x10000000 then .unmapped
  else if a < 0x20000000 then
    let blk := (a - 0x10000000) / 0x800000
    let inst := (a - 0x10000000) % 0x800000 / 0x10000
    -- a block whose domain lost its rail serves no access (R441), a stranded one is out of reach
    if edgePresent blk inst && !d.stranded blk inst && !((regDomain blk inst).any d.pwr.lost.contains) then .reg blk inst (a % 0x10000) else .unmapped
  else if a < 0x21000000 then
    let f := (a - 0x20000000) / 0x100000
    let o := a % 0x100000
    if d.fieldLost f then .unmapped
    else if o < 0x10000 then .reg 4 f o
    else if o < 0x20000 then .reg 18 f (o - 0x10000)
    else if 0x40000 ≤ o && o < 0x80000 then .reg 3 (siteOf f ((o - 0x40000) / 0x4000)) (o % 0x4000)
    else .resv
  else if 0x1000000000 ≤ a && a < 0x1800000000 then
    -- the gateway of a redirecting site sends on what is for the cluster, but answers for itself (R574, R583)
    let s := (a - 0x1000000000) / 0x8000000
    let o := a % 0x8000000
    let own := 0x802400 ≤ o && o < 0x802428
    d.placeClu (if d.flag F.CLU_REDIRECT_EN s && !own then d.fld F.CLU_REDIRECT_SITE s else s) false o
  else if 0x1800000000 ≤ a && a < 0x1F80000000 then
    let l := (a - 0x1800000000) / 0x8000000
    if l < d.boot.n then
      match lsite l with
      | some s => d.placeClu s true (a % 0x8000000)
      | none => .unmapped
    else .unmapped
  else if 0x100000000000 ≤ a && a < 0x110000000000 then
    let h := (a - 0x100000000000) / 0x1000000000
    if a % 0x1000000000 < 0xBA0000000 && d.hbmServes h then .mem a else .unmapped
  else if 0x200000000000 ≤ a && a < 0x240000000000 then
    let o := a - 0x200000000000
    if d.celN ≥ 6 && o < d.celN * d.celS && d.celServes (d.celChan o) then .mem a else .unmapped
  else .unmapped

/-- The site of a logical cluster in Newt's map (R39). -/
def Dev.newtSite (d : Dev) (l : Nat) : Option Nat :=
  let v := sget d.nwt.map 0 l
  if v = 0 then none else some (v - 1)

/-- The site of a logical cluster in a gateway's logical-map copy for an epoch (R242). -/
def Dev.mapSite (d : Dev) (site ep l : Nat) : Option Nat :=
  let v := sget (if ep = 1 then (d.rtr site).lmB else (d.rtr site).lmA) 0 l
  if v / 256 % 2 = 1 then some (v % 256) else none

/-- The site of a logical cluster for the edge port of the command engine's face, (5,15), by the copy of the logical map that its
injection epoch names (R241, R242): how host accesses and those of commands decode (assumption 49). -/
def Dev.edgeSite (d : Dev) (l : Nat) : Option Nat := d.mapSite 245 (d.fld F.FAB_CTRL_INJ_EPOCH 245) l

/-- The site of the edge port where the host's accesses enter: that of the lowest UCIe module in Sill (Table 1-3, R241). -/
def Dev.hostSite (d : Dev) : Nat := 246 + ((List.range 4).find? fun m => d.flag F.UCI_STATUS_IN_SILL m).getD 0

/-- The logical map at an edge port, by its router's INJ_EPOCH (R241). -/
def Dev.portMap (d : Dev) (site l : Nat) : Option Nat := d.mapSite site (d.fld F.FAB_CTRL_INJ_EPOCH site) l

/-- The logical map of the host's accesses (R241). -/
def Dev.hostMap (d : Dev) (l : Nat) : Option Nat := d.portMap d.hostSite l

/-- The injection epoch of a router (Table 6-10). -/
def Dev.injEpoch (d : Dev) (site : Nat) : Nat := d.fld F.FAB_CTRL_INJ_EPOCH site

/-- The start of a local address of a core in the address map (R7, R8). -/
def coreBase (site core : Nat) : Nat := 0x1000000000 + site * 0x8000000 + 0x1000000 + core * 0x200000

/-- The start of the CSM of a site. -/
def csmBase (site : Nat) : Nat := 0x1000000000 + site * 0x8000000

/-! Memory of the state. -/

/-- The ECC granule of an address: 8 B words on the die (R65, R556), 32 B sectors in HBM (R309), 64 B bursts in the
Cellar (R328). -/
def eccWord (a : Nat) : Nat :=
  if a < 0x100000000000 then a / 8 * 8 else if a < 0x200000000000 then a / 32 * 32 else a / 64 * 64

/-- Write bytes to device memory: a write replaces the word's code (R310). -/
def State.put (s : State) (a : Nat) (bs : List Byte) : State :=
  { s with mem := pokeN s.mem a bs,
           ecc := (List.range bs.length).foldl (fun e i => sset e 0 (eccWord (a + i)) 0) s.ecc }

/-- Read bytes of device memory. -/
def State.get (s : State) (a n : Nat) : List Byte := peekN s.mem a n

/-- Whether a range holds a word marked uncorrectable. -/
def State.ue (s : State) (a n : Nat) : Bool :=
  (List.range n).any fun i => sget s.ecc 0 (eccWord (a + i)) == 2

/-- Mark the words of a range. -/
def State.mark (s : State) (a n v : Nat) : State :=
  { s with ecc := (List.range n).foldl (fun e i => sset e 0 (eccWord (a + i)) v) s.ecc }

/-- Write bytes to host window memory. -/
def Dev.putJ (d : Dev) (o : Nat) (bs : List Byte) : Dev := { d with jmem := pokeN d.jmem o bs }

/-- Read bytes of host window memory. -/
def Dev.getJ (d : Dev) (o n : Nat) : List Byte := peekN d.jmem o n

/-! Packets and their injection (R238 to R243, R257, R262). -/

/-- A packet with every field 0. -/
def pkt0 : Packet := ⟨0, 0, 0, 0, 0, false, false, 0, 0, 0, 0, 0, false, [], false, false⟩

/-- LEN for a payload of n bytes: flits − 1 (R238). -/
def lenOf (n : Nat) : Nat := if n ≤ 112 then 0 else (n - 112 + 127) / 128

/-- A packet of a type from (site, core) to (site, core) with AUX, ADDR and payload. -/
def mkPkt (ty ss sc ds dc : Nat) (ep : Bool) (aux addr : Nat) (lg : Bool) (body : List Byte) : Packet :=
  { pkt0 with
    dstSite := BitVec.ofNat 8 ds, dstCore := BitVec.ofNat 6 dc, srcSite := BitVec.ofNat 8 ss, srcCore := BitVec.ofNat 6 sc,
    ty := BitVec.ofNat 4 ty, epoch := ep, len := BitVec.ofNat 4 (lenOf body.length), aux := BitVec.ofNat 24 aux,
    addr := BitVec.ofNat 48 addr, log := lg, payload := body }

/-- Whether tag t of an injection point is free (R262). -/
def Dev.tagIsFree (d : Dev) (site port t : Nat) : Bool :=
  !(d.reqs.any fun r => r.site == site && r.port == port && r.tag == t) &&
  !(d.deadTags.any fun r => r.site == site && r.port == port && r.tag == t)

/-- The lowest free tag of an injection point. -/
def Dev.freeTag (d : Dev) (site port : Nat) : Option Nat := (List.range 256).find? (d.tagIsFree site port)

/-- The ECNT index of an epoch. -/
def epN (e : Bool) : Nat := if e then 1 else 0

/-- Flits of a packet. -/
def pktFlits (p : Packet) : Nat := p.len.toNat + 1

/-- Flits that the input buffer of a port holds per VC (Table 6-2). -/
def bufDepth (port : Nat) : Nat := if port = 5 || port = 6 then 64 else 32

/-- Flits in an input buffer (Table 6-24). -/
def Dev.occ (d : Dev) (site port : Nat) (vc : Bool) : Nat :=
  d.fld (if vc then F.FAB_PORT_OCC_OCC_VC1 else F.FAB_PORT_OCC_OCC_VC0) site port

/-- Put a packet into the input buffer of a port, with its occupancy and the maximum of that (Table 6-24), or at its sink
(port 15). -/
def Dev.arrive (d : Dev) (site port : Nat) (p : Packet) : Dev :=
  let d := { d with net := d.net ++ [⟨site, port, p⟩] }
  if port ≥ 7 then d
  else
    let o := d.occ site port p.vc + pktFlits p
    let m := if p.vc then F.FAB_PORT_OCC_MAX_VC1 else F.FAB_PORT_OCC_MAX_VC0
    (d.setF (if p.vc then F.FAB_PORT_OCC_OCC_VC1 else F.FAB_PORT_OCC_OCC_VC0) site o port).setF m site
      (max o (d.fld m site port)) port

/-- Whether an input takes a packet: its link is not paused (R260) and its buffer has room for the whole packet (R235). -/
def Dev.takes (d : Dev) (site port : Nat) (p : Packet) : Bool :=
  !(d.rtr site).paused.contains port && d.occ site port p.vc + pktFlits p ≤ bufDepth port

/-- A packet of a gateway or an edge port enters its router: INJ counts it (R257), but for a DRAIN packet, which the router
itself sends (R258). -/
def Dev.inPort (d : Dev) (site port : Nat) (p : Packet) : Dev :=
  (if p.ty = 6 then d else d.addWrap F.FAB_ECNT_INJ site 1 (epN p.epoch)).arrive site port p

/-- Whether packets wait at an injection port for room in its input buffer. -/
def Dev.staged (d : Dev) (site port : Nat) (vc : Bool) : Option Flight :=
  d.stage.find? fun x => x.site == site && x.port == port && x.pkt.vc == vc

/-- Inject one packet: it waits at the port while the input buffer has no room (R233, R235). -/
def Dev.send1 (d : Dev) (site port : Nat) (p : Packet) : Dev :=
  if (d.staged site port p.vc).isNone && d.takes site port p then d.inPort site port p
  else { d with stage := d.stage ++ [⟨site, port, p⟩] }

/-- What waits at an injection port goes in, in order, while there is room: at most n packets of one VC. -/
def Dev.unstage (d : Dev) (site port : Nat) (vc : Bool) : Nat → Dev
  | 0 => d
  | n + 1 =>
    match d.staged site port vc with
    | some x =>
      if d.takes site port x.pkt then
        (Dev.inPort { d with stage := d.stage.erase x } site port x.pkt).unstage site port vc n
      else d
    | none => d

/-- Inject packets in order. -/
def Dev.sendAll (d : Dev) (site port : Nat) (ps : List Packet) : Dev := d.each ps fun d p => d.send1 site port p

/-- Whether an injection point holds requests back (R262). -/
def Dev.injBlocked (d : Dev) (site port : Nat) : Bool := d.injw.any fun w => w.site == site && w.port == port

/-- Inject the packets of one request: with a kind it takes a tag, which its packets share; it waits behind earlier
requests and for a free tag (R262). -/
def Dev.inject (d : Dev) (site port : Nat) (ps : List Packet) (kind : Option ReqKind) : Dev :=
  if d.injBlocked site port then { d with injw := d.injw ++ [⟨site, port, ps, kind⟩] }
  else match kind with
    | none => d.sendAll site port ps
    | some k =>
      match d.freeTag site port with
      | none => { d with injw := d.injw ++ [⟨site, port, ps, kind⟩] }
      | some t =>
        Dev.sendAll { d with reqs := d.reqs ++ [Req.mk site port t k] } site port
          (ps.map fun p => { p with tag := BitVec.ofNat 8 t })

/-- Inject a response or a credit message, which need no tag and wait behind nothing (R262). -/
def Dev.reply (d : Dev) (site port : Nat) (p : Packet) : Dev := d.send1 site port p

/-- Inject what waits at a point for as long as tags are free (R262), at most n requests. -/
def Dev.release (d : Dev) (site port : Nat) : Nat → Dev
  | 0 => d
  | n + 1 =>
    match d.injw.find? fun w => w.site == site && w.port == port with
    | none => d
    | some w =>
      let d' := { d with injw := d.injw.erase w }
      match w.kind with
      | none => (d'.sendAll site port w.pkts).release site port n
      | some k =>
        match d.freeTag site port with
        | none => d
        | some t =>
          (Dev.sendAll { d' with reqs := d'.reqs ++ [Req.mk site port t k] } site port
            (w.pkts.map fun p => { p with tag := BitVec.ofNat 8 t })).release site port n

/-- The injection port of a source, by its SRC_CORE code (Table 6-4). -/
def portOfCore (core : Nat) : Nat := if core = 61 then 5 else if core = 62 then 6 else 4

end Sys2Proof.Machine
end

