-- ==== Sys2Proof/Machine/Sha3.lean ====
section
/-! DEFINITION. SHA3-256 under FIPS 202, which the manual names for digests (R374, R528, R530, Table 9-30). -/

namespace Sys2Proof.Machine

/-- Lane i of a state of 25 lanes. -/
def lane (a : List Word) (i : Nat) : Word := a.getD i 0

/-- Rotation offsets of the rho step, lane x + 5 y. -/
def keccakRot : List Nat :=
  [0, 1, 62, 28, 27, 36, 44, 6, 55, 20, 3, 10, 43, 25, 39, 41, 45, 15, 21, 8, 18, 2, 61, 56, 14]

/-- Round constants of the iota step. -/
def keccakRc : List Nat :=
  [0x1, 0x8082, 0x800000000000808a, 0x8000000080008000, 0x808b, 0x80000001, 0x8000000080008081, 0x8000000000008009, 0x8a, 0x88, 0x80008009, 0x8000000a] ++
  [0x8000808b, 0x800000000000008b, 0x8000000000008089, 0x8000000000008003, 0x8000000000008002, 0x8000000000000080, 0x800a, 0x800000008000000a, 0x8000000080008081, 0x8000000000008080, 0x80000001, 0x8000000080008008]

/-- One round of Keccak-f[1600]: theta, rho, pi, chi, iota. -/
def keccakRound (a : List Word) (rc : Nat) : List Word :=
  let c := (List.range 5).map fun x => (List.range 5).foldl (fun w y => w ^^^ lane a (x + 5 * y)) 0
  let dd := (List.range 5).map fun x => lane c ((x + 4) % 5) ^^^ (lane c ((x + 1) % 5)).rotateLeft 1
  let b := (List.range 25).map fun i =>
    let x := i % 5
    let y := i / 5
    let j := (x + 3 * y) % 5 + 5 * x
    (lane a j ^^^ lane dd (j % 5)).rotateLeft (keccakRot.getD j 0)
  (List.range 25).map fun i =>
    let x := i % 5
    let y := i / 5
    let v := lane b i ^^^ (~~~ lane b ((x + 1) % 5 + 5 * y) &&& lane b ((x + 2) % 5 + 5 * y))
    if i = 0 then v ^^^ BitVec.ofNat 64 rc else v

/-- Keccak-f[1600]. -/
def keccakF (a : List Word) : List Word := keccakRc.foldl keccakRound a

/-- Absorb n blocks of 136 bytes. -/
def absorb : Nat → List Word → List Byte → List Word
  | 0, a, _ => a
  | n + 1, a, bs =>
    absorb n (keccakF ((List.range 25).map fun i =>
      if i < 17 then lane a i ^^^ BitVec.ofNat 64 (leAt bs (8 * i) 8) else lane a i)) (bs.drop 136)

/-- The SHA3-256 digest of bytes. -/
def sha3 (m : List Byte) : List Byte :=
  let q := 136 - m.length % 136
  let pad := if q = 1 then [(0x86 : Byte)] else (0x06 : Byte) :: (zeros (q - 2) ++ [0x80])
  let a := absorb (m.length / 136 + 1) (List.replicate 25 0) (m ++ pad)
  (List.range 4).flatMap fun i => leBytes 8 (lane a i).toNat

end Sys2Proof.Machine
end

