-- ==== Sys2Proof/Machine/Manifest.lean ====
section
/-! DEFINITION. The manifest of a Floman image as the flash holds it, and its checks (spec/16_start_and_configuration.md R527 to
R530). What a signature verifies to and whether a flash read succeeds are operands (assumption 142). -/

namespace Sys2Proof.Machine

/-- n bytes from address a of a memory in rising order that lists nothing below a: one pass over its entries. -/
def dense : Nat → List Host.Cell → Nat → List Byte
  | 0, _, _ => []
  | n + 1, m, a => match m with
    | [] => zeros (n + 1)
    | c :: r => if c.1 = a then c.2 :: dense n r (a + 1) else 0 :: dense n m (a + 1)

/-- n bytes from an offset of copy 0 (A) or 1 (B), each in a device of 128 MiB (R527). -/
def flashBytes (m : List Host.Cell) (copy off n : Nat) : List Byte :=
  let a := copy * 0x8000000 + off
  dense n (m.dropWhile fun x => decide (x.1 < a)) a

/-- A section table entry (Table 16-4). -/
def sectEnt (b : List Byte) : SectEnt := ⟨leAt b 0 2, leAt b 2 1, leAt b 4 4, leAt b 8 4, leAt b 12 4, leAt b 16 32⟩

/-- The entries of a section table. -/
def sectTable : Nat → List Byte → List SectEnt
  | 0, _ => []
  | n + 1, b => sectEnt (b.take 64) :: sectTable n (b.drop 64)

/-- The manifest of a copy (R528, Tables 16-2 to 16-4). -/
def manifestOf (m : List Host.Cell) (copy : Nat) : Manifest :=
  let h := flashBytes m copy 0 256
  let n := leAt h 6 2
  { magic := leAt h 0 4, format := leAt h 4 2, nsect := n, imageId := leAt h 8 8, imageLen := leAt h 16 4, svn := leAt h 20 4,
    reqGrade := leAt h 24 1, role := leAt h 25 1, flags := leAt h 26 1,
    sects := sectTable (min n 960) (flashBytes m copy 0x1000 (64 * min n 960)),
    rootDigest := leNat (sha3 (flashBytes m copy 0x10000 1312)), digest := leNat (sha3 (flashBytes m copy 0 0x12000)) }

/-- Whether an entry is a SCHEDULE or CLUSTER section of a logical cluster. -/
def SectEnt.scoped (e : SectEnt) (l : Nat) : Bool :=
  decide (bitsOf e.scope 0 8 ≤ l) && decide (l ≤ bitsOf e.scope 0 8 + bitsOf e.scope 8 8)

/-- N_req of a manifest (Table 16-3). -/
def Manifest.nReq (m : Manifest) : Nat := [240, 224, 208].getD m.reqGrade 240

/-- Whether the header holds legal values (R529); REQ_GRADE, IMAGE_ROLE and SVN have the values of Table 16-3. -/
def Manifest.legal (m : Manifest) : Bool :=
  m.magic = 0x4E4D4C46 && m.format = 1 && 1 ≤ m.nsect && m.nsect ≤ 960 && m.imageLen ≤ 0x7000000 &&
    m.reqGrade ≤ 2 && m.role ≤ 2 && m.svn ≤ 64

/-- Whether no two sections overlap (R529). -/
def apart : List SectEnt → Bool
  | [] => true
  | e :: r => (r.all fun x => decide (e.off + e.len ≤ x.off) || decide (x.off + x.len ≤ e.off)) && apart r

/-- The sections of a variant and a type. -/
def Manifest.ofType (m : Manifest) (v t : Nat) : List SectEnt := m.sects.filter fun e => e.variant == v && e.typ == t

/-- Whether the SCOPEs of sections cover logical clusters 0 to n − 1 without overlap. -/
def covers (es : List SectEnt) (n : Nat) : Bool :=
  (List.range 256).all fun l => decide ((es.filter fun e => e.scoped l).length ≤ 1) && (decide (l ≥ n) || es.any fun e => e.scoped l)

/-- Whether the section table keeps the rules of R529: sections within IMAGE_LEN and apart, the base sections, the variants of every
field but F13 and F14. -/
def Manifest.tableOk (m : Manifest) : Bool :=
  (m.sects.all fun e => decide (e.off + e.len ≤ m.imageLen)) && apart m.sects &&
  ([1, 2, 3, 4, 7, 8, 9].all fun t => (m.ofType 255 t).length == 1) &&
  covers (m.ofType 255 5) m.nReq && covers (m.ofType 255 6) m.nReq &&
  ((List.range 16).all fun f =>
    if f = 13 || f = 14 then !m.sects.any fun e => e.variant == f
    else ([3, 4, 7, 8, 10].all fun t => !(m.ofType f t).isEmpty) && covers (m.ofType f 5) (m.nReq - 16) &&
      covers (m.ofType f 6) (m.nReq - 16))

/-- The failure code of a manifest under R530 items 1 to 4 (Table 16-20), 0 when they hold: 1 flash read, 2 format, 3 root key,
4 owner certificate, 5 signature, 6 SVN. -/
def Manifest.verify (m : Manifest) (rootHash count : Nat) (k : CopyCheck) : Nat :=
  if !k.readOk then 1
  else if !m.legal then 2
  else if m.rootDigest ≠ rootHash then 3
  else if !k.certOk then 4
  else if !k.sigOk then 5
  else if m.svn < count then 6
  else 0

/-- Whether a section of a copy has the digest of its entry (R530 item 5). -/
def sectGood (m : List Host.Cell) (copy : Nat) (e : SectEnt) : Bool :=
  leNat (sha3 (flashBytes m copy e.off e.len)) == e.digest

/-! The fuses (R533, R534). -/

/-- The anti-rollback count: the bits set in the OR of the two banks (R533). -/
def FuseS.count (x : FuseS) : Nat := ((List.range 64).filter fun i => (x.svnA ||| x.svnB).getLsbD i).length

/-- The thermometer code of a count. -/
def thermo (n : Nat) : Word := BitVec.ofNat 64 (2 ^ (min 64 n) - 1)

/-- Program both banks to a count: `a` and `b` are the bits that each bank takes (R533). -/
def FuseS.program (x : FuseS) (n : Nat) (a b : Word) : FuseS :=
  { x with svnA := x.svnA ||| (thermo n &&& a), svnB := x.svnB ||| (thermo n &&& b) }

/-- The factory record of a site that has no unit bad and every core at FMAX code 36 (assumption 143). -/
def goodRecord : Nat := ((List.range 36).map fun n => 36 * 2 ^ (152 + 6 * n)).sum

/-- The factory record of a site, from the spare bank where the primary copy failed its check bits (R534). -/
def FuseS.record (x : FuseS) (site : Nat) : Nat := sget (if x.bad.contains site then x.factB else x.factA) goodRecord site

/-- The update records, each region of 64 from the spare bank where its primary copy failed its check bits (R534). -/
def FuseS.updates (x : FuseS) : List Nat :=
  (List.range x.updA.length).map fun i => if x.bad.contains (256 + i / 64) then x.updB.getD i 0 else x.updA.getD i 0

/-- Append an update record, to both banks. -/
def FuseS.append (x : FuseS) (r : Nat) : FuseS := { x with updA := x.updA ++ [r], updB := x.updB ++ [r] }

/-- SITE_BAD, LDO_BAD, CORE_BAD, CUBE_RET and FMAX of a core site in a factory record (Table 16-7). -/
def recSiteBad (r : Nat) : Bool := bitOf r 0
/-- LDO_BAD. -/
def recLdoBad (r : Nat) : Bool := bitOf r 1
/-- CORE_BAD. -/
def recCores (r : Nat) : Nat := bitsOf r 44 36
/-- CUBE_RET. -/
def recCubes (r : Nat) : Nat := bitsOf r 116 36
/-- FMAX of core site n. -/
def recFmax (r n : Nat) : Nat := bitsOf r (152 + 6 * n) 6

/-- The update records as read. -/
def Dev.fuses (d : Dev) : List Nat := d.boot.fuse.updates

/-- The manifest of the loaded image; an empty one where none is loaded. -/
def Dev.man (d : Dev) : Manifest := d.boot.man.getD Manifest.empty

end Sys2Proof.Machine
end

