-- ==== Sys2Proof/Machine/Flit.lean ====
section
/-! DEFINITION. The flits of a packet on a link: header, sideband, CRC, and what a receiver finds in them (spec/06_fabric.md
R236 to R238, R260). -/

namespace Sys2Proof.Machine

/-- The CRC-32 register of IEEE 802.3 after a run of bits, least significant bit first (R236). -/
def crcRun : List Bool → Nat → Nat
  | [], c => c
  | b :: bs, c => if bitOf c 0 != b then crcRun bs (c / 2 ^^^ 0xEDB88320) else crcRun bs (c / 2)

/-- CRC-32 of bits in the order of their positions: initial value 0xFFFF_FFFF, result inverted (Table 6-3). -/
def crc32 (bs : List Bool) : Nat := crcRun bs 0xFFFFFFFF ^^^ 0xFFFFFFFF

/-- The low n bits of a number. -/
def natBits (v n : Nat) : List Bool := (List.range n).map (bitOf v)

/-- The header of a packet (Table 6-4). -/
def pktHeader (p : Packet) : Nat :=
  p.dstSite.toNat * 2 ^ 120 + p.dstCore.toNat * 2 ^ 114 + p.srcSite.toNat * 2 ^ 106 + p.srcCore.toNat * 2 ^ 100 +
  p.ty.toNat * 2 ^ 96 + b2n p.epoch * 2 ^ 95 + b2n p.vc * 2 ^ 94 + p.len.toNat * 2 ^ 90 + p.tag.toNat * 2 ^ 82 +
  p.chan.toNat * 2 ^ 74 + p.aux.toNat * 2 ^ 48 + p.addr.toNat

/-- The data of flit i of a packet: header and payload in 128 B pieces (R238). -/
def flitData (p : Packet) (i : Nat) : Nat := leNat (takeZ 128 ((leBytes 16 (pktHeader p) ++ p.payload).drop (128 * i)))

/-- A flit on its 1,088 signal positions: the data at 0 to 1,023 and the sideband above (R236). -/
abbrev Flit := Nat

/-- FTYPE of flit i of n (Table 6-3). -/
def ftype (i n : Nat) : Nat := if n = 1 then 3 else if i = 0 then 1 else if i + 1 = n then 2 else 0

/-- A flit with given data and the fields of Table 6-3; `crd0` and `crd1` are the credits that it returns. -/
def mkFlit (data : Nat) (circ : Bool) (ft : Nat) (vc ep kill : Bool) (crd0 crd1 cseq : Nat) : Flit :=
  let hi := 2 ^ 10 + b2n circ * 2 ^ 9 + ft * 2 ^ 7 + b2n vc * 2 ^ 6 + b2n ep * 2 ^ 5 + b2n kill * 2 ^ 4 + crd0 % 4 * 4 + crd1 % 4
  let low := cseq % 256 * 256
  data + (crc32 (natBits data 1024 ++ natBits low 16) * 2 ^ 32 + hi * 2 ^ 21 + Config.sidebandCheck hi % 32 * 2 ^ 16 + low) * 2 ^ 1024

/-- Flit i of a routed packet. -/
def pktFlit (p : Packet) (crd0 crd1 i : Nat) : Flit :=
  let n := pktFlits p
  mkFlit (flitData p i) false (ftype i n) p.vc p.epoch (p.kill && i + 1 == n) crd0 crd1 0

/-- Flit i of a circuit message: CIRC and CSEQ are set, and the header is in its head flit (R238, R252). -/
def circFlitOf (f : CircFlit) : Flit :=
  mkFlit (flitData f.pkt f.num) true (if f.last then (if f.num = 0 then 3 else 2) else if f.num = 0 then 1 else 0)
    false false false 0 0 f.num

/-- Invert signal positions of a flit. -/
def flipAll (x : Flit) (ps : List Nat) : Flit := ps.foldl (fun x i => putBit x i (!bitOf x i)) x

/-- What a receiver found in a flit (R237, R260): a corrected sideband error, an uncorrectable one, a CRC that fails. -/
structure FlitFind where
  ce : Bool
  ue : Bool
  crc : Bool
deriving DecidableEq, Repr

/-- A flit without an error. -/
def FlitFind.good : FlitFind := ⟨false, false, false⟩

/-- Judge a flit that was sent as x and arrives with positions inverted. SECDED over bits [31:21] and CCHK corrects one
of the sixteen and finds two; more than two count as uncorrectable (assumption 102). The CRC is over the data and bits
[15:0]. -/
def judgeFlit (x : Flit) (ps : List Nat) : FlitFind :=
  if ps.isEmpty then FlitFind.good
  else
    let y := flipAll x ps
    let n := ((List.range 16).filter fun i => bitOf x (1040 + i) != bitOf y (1040 + i)).length
    ⟨n == 1, n ≥ 2, crc32 (natBits y 1024 ++ natBits (bitsOf y 1024 16) 16) != bitsOf y 1056 32⟩

/-- What the receiver of a packet finds in each of its flits. -/
def judgePkt (p : Packet) (flips : Flips) : List FlitFind :=
  (List.range (pktFlits p)).map fun i =>
    judgeFlit (pktFlit p 0 0 i) ((flips.filter fun x => x.1.val == i).map fun x => x.2.val)

end Sys2Proof.Machine
end

