-- ==== Sys2Proof/Machine/LinkCells.lean ====
section
/-! DEFINITION. Blocks of a link in bits (spec/10_links_and_pairs.md R381 to R385, R403): items, cells, blocks, and what packets and
mirror records occupy. -/

namespace Sys2Proof.Machine

/-- The 32 bytes of an item (Table 10-2). -/
def itemBytes (i : LinkItem) : List Byte :=
  takeZ 32 (match i with
    | .none => [0]
    | .ack nak bsn cr => leBytes 1 1 ++ leBytes 1 (b2n nak) ++ leBytes 2 bsn.toNat ++ leBytes 2 cr.toNat
    | .beat role echo sync term num ans power nt image =>
      leBytes 1 2 ++ leBytes 1 role.toNat ++ leBytes 1 (b2n echo) ++ leBytes 1 sync.toNat ++ leBytes 4 term.toNat ++
        leBytes 4 num.toNat ++ leBytes 4 ans.toNat ++ leBytes 4 power.toNat ++ leBytes 8 nt.toNat ++ leBytes 1 image.toNat
    | .mack m => leBytes 8 3 ++ leBytes 8 m.toNat
    | .lane grant pos phys bsn => leBytes 1 4 ++ leBytes 1 (b2n grant) ++ leBytes 1 pos.toNat ++ leBytes 1 phys.toNat ++ leBytes 2 bsn.toNat
    | .sleep => [5]
    | .resync op term => leBytes 1 6 ++ leBytes 1 op.toNat ++ zeros 2 ++ leBytes 4 term.toNat
    | .reserved => [7])

/-- The item that 32 bytes hold (Table 10-2); a type above 6 is reserved. -/
def itemOf (bs : List Byte) : LinkItem :=
  let b (w o n : Nat) : BitVec w := BitVec.ofNat w (leAt bs o n)
  match leAt bs 0 1 with
  | 0 => .none
  | 1 => .ack (bitOf (leAt bs 1 1) 0) (b 10 2 2) (b 16 4 2)
  | 2 => .beat (b 8 1 1) (bitOf (leAt bs 2 1) 0) (b 8 3 1) (b 32 4 4) (b 32 8 4) (b 32 12 4) (b 32 16 4) (b 64 20 8) (b 8 28 1)
  | 3 => .mack (b 64 8 8)
  | 4 => .lane (leAt bs 1 1 == 1) (b 8 2 1) (b 8 3 1) (b 16 4 2)
  | 5 => .sleep
  | 6 => .resync (b 8 1 1) (b 32 4 4)
  | _ => .reserved

/-- The kind of a cell (R382). -/
def cellKind : LinkCell → Nat
  | .idle => 0
  | .data _ => 1
  | .ctrl _ => 2
  | .reserved => 3

/-- The 1,024 bits of a cell (R384, R385). -/
def cellBody : LinkCell → Nat
  | .data b => b.toNat
  | .ctrl is => leNat ((List.range 4).flatMap fun k => itemBytes (is.getD k .none))
  | _ => 0

/-- The cell of a kind with given bits. -/
def cellOf (kind body : Nat) : LinkCell :=
  if kind = 0 then .idle
  else if kind = 1 then .data (BitVec.ofNat 1024 body)
  else if kind = 2 then .ctrl ((List.range 4).map fun k => itemOf (leBytes 32 (bitsOf body (256 * k) 256)))
  else .reserved

/-- The message bits of a block with a BSN and five cells (R382). -/
def blockMsg (bsn : Nat) (cells : List LinkCell) : BitVec 5140 :=
  let cs := (List.range 5).map fun c => (c, cells.getD c .idle)
  BitVec.ofNat 5140 (bsn % 1024 + (cs.map fun x => cellKind x.2 * 2 ^ (2 * x.1 + 10) + cellBody x.2 * 2 ^ (1024 * x.1 + 20)).sum)

/-- BSN of a block. -/
def blockBsn (m : BitVec 5140) : Nat := bitsOf m.toNat 0 10

/-- The cells of a block. -/
def blockCells (m : BitVec 5140) : List LinkCell :=
  (List.range 5).map fun c => cellOf (bitsOf m.toNat (2 * c + 10) 2) (bitsOf m.toNat (1024 * c + 20) 1024)

/-- The DATA cells of a packet: its flits' data bits, in order (R384). -/
def dataCells (p : Packet) : List LinkCell := (List.range (p.len.toNat + 1)).map fun i => .data (BitVec.ofNat 1024 (flitData p i))

/-- The header in a head cell: its low 128 bits (R238, Table 10-5). LEN has one place in both kinds of header. -/
def headOf (b : BitVec 1024) : Nat := bitsOf b.toNat 0 128

/-- The bytes of a packet's cells after its header. -/
def cellBytes (bs : List (BitVec 1024)) : List Byte := (bs.flatMap fun b => leBytes 128 b.toNat).drop 16

/-- The packet of a header (Table 6-4) and the bytes behind it. -/
def pktOf (h : Nat) (body : List Byte) : Packet :=
  { pkt0 with
    dstSite := BitVec.ofNat 8 (bitsOf h 120 8), dstCore := BitVec.ofNat 6 (bitsOf h 114 6), srcSite := BitVec.ofNat 8 (bitsOf h 106 8),
    srcCore := BitVec.ofNat 6 (bitsOf h 100 6), ty := BitVec.ofNat 4 (bitsOf h 96 4), epoch := bitOf h 95, vc := bitOf h 94,
    len := BitVec.ofNat 4 (bitsOf h 90 4), tag := BitVec.ofNat 8 (bitsOf h 82 8), chan := BitVec.ofNat 8 (bitsOf h 74 8),
    aux := BitVec.ofNat 24 (bitsOf h 48 24), addr := BitVec.ofNat 48 (bitsOf h 0 48), payload := body }

/-- The header of a mirror packet (Table 10-5) with n bytes of body. -/
def mirHeader (mseq kind session n : Nat) : Nat :=
  session % 16 * 2 ^ 100 + 8 * 2 ^ 96 + ((16 + n + 127) / 128 - 1) * 2 ^ 90 + kind % 64 * 2 ^ 84 + ((n + 7) / 8 - 1) * 2 ^ 72 + mseq % 2 ^ 64

/-- The DATA cells of a mirror record: its header, then its body from byte 16 on (R403). -/
def mirCells (mseq kind session : Nat) (body : List Byte) : List LinkCell :=
  let bs := leBytes 16 (mirHeader mseq kind session body.length) ++ body
  (List.range ((bs.length + 127) / 128)).map fun i => .data (BitVec.ofNat 1024 (leNat (takeZ 128 (bs.drop (128 * i)))))

end Sys2Proof.Machine
end

