-- ==== Sys2Proof/Machine/Recorder.lean ====
section
/-! DEFINITION. The event recorder of a block instance (R559 to R571), the closing of core queues (R279), and the low-level
changes of a unit's service that events call for. -/

namespace Sys2Proof.Machine

/-- The BLOCK_ID of a unit of the common registers (R15). -/
def blockId (eu : Nat) : Nat := eu / 65536 * 2 ^ 32 + eu % 65536 * 65536 + 1

/-- Bring PENDING, ANY and LEVEL of EVT_STATUS in line with the pending classes (Table 17-7). -/
def Dev.showPend (d : Dev) (eu : Nat) : Dev :=
  let p (c : Nat) := sget d.evtPend 0 (eu * 32 + c)
  let bits := (List.range 31).foldl (fun a i => putBit a i (decide (p (i + 1) ≠ 0))) 0
  let lvl := (List.range 32).foldl (fun a c => if p c = 0 then a else max a ((p c - 1) / 2)) 0
  ((d.setF F.EVT_STATUS_PENDING eu bits).setB F.EVT_STATUS_ANY eu (decide (bits ≠ 0))).setF F.EVT_STATUS_LEVEL eu lvl

/-- Set the pending state of a class: 0 not pending, else 1 + 2 * level + ESC. -/
def Dev.setPend (d : Dev) (eu c v : Nat) : Dev :=
  ({ d with evtPend := sset d.evtPend 0 (eu * 32 + c) v }).showPend eu

/-- The ALERT sideband message of an event of level 4 or 5 (R566, Table 9-2): one that follows another of its block within 2 µs is
sent with that one (assumption 110). The in-band interrupt comes with every occurrence (Table 20-5). -/
def Dev.alert (d : Dev) (eu lvl : Nat) : Dev :=
  let t := sget d.alertAt 0 eu
  let d : Dev := if t ≠ 0 && decide (d.now + 1 < t + 2000) then d
    else { (d.emit (.sideband 0x11 (eu % 65536 + eu / 65536 * 65536 + lvl * 16777216))) with alertAt := sset d.alertAt 0 eu (d.now + 1) }
  if d.i3c.ibi && d.i3c.addr.isSome then d.emit (.ibi [BitVec.ofNat 8 (0xA0 + lvl)]) else d

/-- The bits of DETAIL that a class of a block uses (R562, Table 17-4). -/
def detailOf (blk c detail : Nat) : Nat :=
  if blk = bCOR then (if [1, 3, 4, 5, 10, 12].contains c then detail % 0x200000 else 0)
  else if blk = bCLU then (if c = 11 || c = 12 then detail % 0x20000 else detail % 256)
  else if blk = 3 then detail % 8
  else if blk = 4 || blk = 18 then detail % 256
  else if blk = bPWR then (if c ≤ 2 then detail % 256 else 0)
  else if blk = bHBM then detail % 32
  else if blk = 7 then detail % 16
  else 0

/-- Write the next history entry (R561, Table 17-10). -/
def Dev.history (d : Dev) (eu c lvl : Nat) (esc skink rep : Bool) (detail : Nat) : Dev :=
  let n := sget d.evtCount 0 eu
  let i := n % 8
  let w := n * 2 ^ 56 + c * 2 ^ 48 + lvl * 2 ^ 45 + b2n esc * 2 ^ 44 + b2n skink * 2 ^ 43 + b2n rep * 2 ^ 42 + 2 ^ 40 +
    detailOf (eu / 65536) c detail
  let d := { d with evtCount := sset d.evtCount 0 eu ((n + 1) % 256) }
  ((d.setR R.EVT_HIST0 eu (BitVec.ofNat 64 (d.ntAt (eu / 65536) (eu % 65536))) i).setR R.EVT_HIST1 eu (BitVec.ofNat 64 w) i).setF
    F.EVT_STATUS_NEWEST eu i

/-- What R559 makes of an occurrence: whether it is raised, at which level, and whether escalated. -/
def Dev.verdict (d : Dev) (eu c base : Nat) (skink : Bool) : Bool × Nat × Bool :=
  let p := sget d.evtPend 0 (eu * 32 + c)
  if skink || p = 0 then (true, base, false)
  else if (p - 1) % 2 = 1 then (false, min 5 (base + 1), false)
  else (true, min 5 (base + 1), true)

/-- Send the event message of the entry just written, with SEQ n (R563). -/
def Dev.sendEvt (d : Dev) (eu n : Nat) : Dev :=
  { d with evq := d.evq ++ [⟨eu, n, 1, (d.getR R.EVT_HIST0 eu (n % 8)).toNat, (d.getR R.EVT_HIST1 eu (n % 8)).toNat⟩] }

/-- DETAIL of an FLD or THM occurrence whose subject is the field (Table 17-4). -/
def detField : Nat := 48

/-- Record an occurrence: history, pending state, REPEATS, the event message and the alert (R559 to R567). -/
def Dev.record (d : Dev) (eu c base detail : Nat) (skink : Bool := false) : Dev :=
  let (ok, lvl, esc) := d.verdict eu c base skink
  let n := sget d.evtCount 0 eu
  let d := d.history eu c lvl esc skink (!ok) detail
  if !ok then d.addSat F.EVT_STATUS_REPEATS eu 1
  else
    let d := if skink then d else d.setPend eu c (1 + 2 * lvl + b2n esc)
    let d := if bitOf (d.fld F.EVT_ENABLE_DELIVER eu) (c - 1) then d.sendEvt eu n else d
    if lvl ≥ 4 then d.alert eu lvl else d

/-! Power domains (R474, Table 13-13). -/

/-- Show a domain in PCH_DOM_STATE (Table 13-13). -/
def Dev.showDom (d : Dev) (n : Nat) : Dev :=
  let x := d.dom n
  let v := min 4 x.level + 8 * b2n (x.entering.isSome || x.exiting)
  d.setR R.PCH_DOM_STATE 0 (BitVec.ofNat 64 (putBits (d.getR R.PCH_DOM_STATE 0 (n / 16)).toNat (n % 16 * 4) 4 v)) (n / 16)

/-- Change a domain and show it. -/
def Dev.setDom (d : Dev) (n : Nat) (f : DomS → DomS) : Dev := (d.modDom n f).showDom n

/-! Core queues (R272, R278, R279). -/

/-- The 64 B entries that n bytes take (R278). -/
def entriesOf (n : Nat) : Nat := (n + 63) / 64

/-- A credit message (R272): KIND 1 to the sender, with the queue's GEN and FREED. -/
def Dev.creditTo (d : Dev) (u site core chan gen freed : Nat) : Dev :=
  let aux := 3 * 4194304 + 65536 + gen % 256 * 256
  let p := mkPkt 4 (u / 256) (u % 256) site core (d.injEpoch (u / 256) = 1) aux 0 false
    [BitVec.ofNat 8 (freed % 256), BitVec.ofNat 8 (freed / 256 % 256), 0]
  d.reply (u / 256) 4 { p with chan := BitVec.ofNat 8 chan }

/-- GEN of queue q. -/
def Dev.qGen (d : Dev) (u q : Nat) : Nat := bitsOf (d.fld F.COR_QGEN_GEN u) (q * 8) 8

/-- Count a message's entries as FREED and return its credit (R272), when its channel has an entry. -/
def Dev.freeCredit (d : Dev) (u q site core chan n : Nat) : Dev :=
  let hit (e : CredEnt) := e.q == q && e.site == site && e.core == core && e.chan == chan
  match (d.core u).creds.find? hit with
  | none => d
  | some e =>
    let fr := (e.freed + n) % 65536
    let d := d.modCore u fun x => { x with creds := x.creds.map fun y => if hit y then { y with freed := fr } else y }
    d.creditTo u site core chan (d.qGen u q) fr

/-- Close queue q of a core: it empties, and credit returns for each message it held (R279). -/
def Dev.closeQ (d : Dev) (u q : Nat) : Dev :=
  let ms := (d.core u).qs.filter fun m => m.q == q
  let d := d.modCore u fun x => { x with qs := x.qs.filter fun m => m.q != q, qhead := x.qhead.set q 0 }
  let d := d.each ms fun d m => d.freeCredit u q m.site m.core m.chan (entriesOf m.body.length)
  d.setFbit F.COR_QCTRL_OPEN u q false

/-- Close every queue of a core. -/
def Dev.closeAllQ (d : Dev) (u : Nat) : Dev := d.each (List.range 8) fun d q => d.closeQ u q

/-- Put a core into STATE 0 HALTED, 3 STOPPED or 4 RETIRED: its queues close (R279). -/
def Dev.coreOff (d : Dev) (u st : Nat) : Dev := (d.setF F.COR_STATUS_STATE u st).closeAllQ u

/-- The logical cluster of a physical site in Newt's map. -/
def Dev.logicalOf (d : Dev) (site : Nat) : Option Nat := (List.range 240).find? fun l => d.newtSite l == some site

/-- The logical core of a core site in the core map (R573). -/
def Dev.lcoreOf (d : Dev) (u : Nat) : Option Nat :=
  (List.range 32).find? fun n => d.coreMap (u / 256) n == some (u % 256)

/-- Newt takes up a swap (R577, R578): it asks for a window, after the pre-copy where a live cluster swap has one. -/
def Dev.nwtAsk (d : Dev) (r : SwapReq) : Dev :=
  if d.nwt.reqs.contains r then d
  else
    let d := { d with nwt := { d.nwt with reqs := d.nwt.reqs ++ [r] } }
    if d.fld F.NWT_STATUS_STATE 0 = 0 then d.setF F.NWT_STATUS_STATE 0 2 else d

/-- Newt replaces a core in the next window, when the core serves as a logical core (R577). -/
def Dev.askCore (d : Dev) (u : Nat) : Dev :=
  match d.logicalOf (u / 256), d.lcoreOf u with
  | some l, some c => d.nwtAsk ⟨false, l, c, false⟩
  | _, _ => d

/-- Newt replaces a cluster, when the site serves a logical cluster (R577). -/
def Dev.askCluster (d : Dev) (site : Nat) : Dev :=
  match d.logicalOf site with
  | some l => d.nwtAsk ⟨true, l, 0, false⟩
  | none => d

/-- Isolate a core (Table 17-3): STATE RETIRED, queues closed, replaced by Newt (R79). -/
def Dev.retireCore (d : Dev) (u : Nat) : Dev :=
  if d.coreState u = 4 then d
  else
    let d := (d.coreOff u 4).modCore u fun x => { CoreS.init with creds := x.creds }
    let d := { d with boot := { d.boot with coreBad := sset d.boot.coreBad 0 u 2 } }
    d.askCore u

/-- The HBM stacks and faces that a site serves. -/
def facesAt (site : Nat) : List (Nat × Nat) :=
  ((List.range 16).flatMap fun h => [(h, 0), (h, 1)]).filter fun x => hbmFace x.1 x.2 == site

/-- Isolate a router port: flits that reach it are discarded (Table 17-3). -/
def Dev.isolatePort (d : Dev) (site port : Nat) : Dev :=
  d.modRtr site fun r => if r.deadPorts.contains port then r else { r with deadPorts := port :: r.deadPorts }

/-- Take a Hallway DOWN (R33). -/
def Dev.hallwayDown (d : Dev) (f h : Nat) : Dev := d.setF F.FLD_HW_STATUS_STATE f 3 h

/-- Fail an HBM stack (R315): its region is unmapped, HBM raises HBM_STACK_FAIL. -/
def Dev.stackFail (d : Dev) (h : Nat) : Dev :=
  if d.fld F.HBM_STATUS_STATE h = 4 then d else (d.setF F.HBM_STATUS_STATE h 4).record (evU bHBM h) 4 2 0

/-- The physical channel of a logical channel, or of the spare at index 31 (Table 8-6): the map byte. -/
def Dev.hbmMap (d : Dev) (h l : Nat) : Nat := bitsOf (d.getR R.HBM_CHMAP h (l / 8)).toNat (l % 8 * 8) 8

/-- Write a byte of HBM_CHMAP. -/
def Dev.setHbmMap (d : Dev) (h l v : Nat) : Dev :=
  d.setR R.HBM_CHMAP h (BitVec.ofNat 64 (putBits (d.getR R.HBM_CHMAP h (l / 8)).toNat (l % 8 * 8) 8 v)) (l / 8)

/-- Whether a spare channel is left. -/
def Dev.hbmSpare (d : Dev) (h : Nat) : Bool := d.hbmMap h 31 ≥ 128 && !d.flag F.HBM_STATUS_SPARE_USED h

/-- A channel of a stack fails (R315): it moves to the spare at SHARE 7, or without a spare the stack fails. -/
def Dev.channelFail (d : Dev) (h ch : Nat) : Dev :=
  let d := d.modHbm h fun x => if x.badCh.contains ch then x else { x with badCh := ch :: x.badCh }
  match (List.range 31).find? fun l => d.hbmMap h l == 128 + ch with
  | none => d
  | some l =>
    if d.hbmSpare h && !d.flag F.HBM_SPARE_CTRL_BUSY h then
      (((d.setF F.HBM_SPARE_CTRL_LCH h l).setF F.HBM_SPARE_CTRL_SHARE h 7).setF F.HBM_SPARE_CTRL_BUSY h 1).modHbm h
        fun x => { x with move := some l }
    else d.stackFail h

/-- Show that a face of an HBM stack went out (R323): HBM raises HBM_FACE_OUT when it was not out. Escalated, it takes the
channel in DETAIL, or the stack, out as well (R558, Table 17-3). -/
def Dev.faceOut (d : Dev) (h face : Nat) : Dev :=
  let f := if face = 0 then F.HBM_STATUS_FACE_OUT0 else F.HBM_STATUS_FACE_OUT1
  if d.flag f h then d
  else
    let (ok, lvl, esc) := d.verdict (evU bHBM h) 6 1 false
    let d := (d.setF f h 1).record (evU bHBM h) 6 1 0
    if ok && esc then (if lvl = 2 then d.channelFail h 0 else d.stackFail h) else d

/-- The compute domain of a site goes dark because of a fault: its cores lose their state, its faces go out (R323). -/
def Dev.darken (d : Dev) (site : Nat) : Dev :=
  let d := d.each (List.range 36) fun d c =>
    let u := cu site c
    if d.coreState u = 4 then d else (d.setF F.COR_STATUS_STATE u 0).modCore u fun _ => CoreS.init
  let d := d.setDom site fun _ => DomS.off
  let d := if d.fld F.FLD_LDO_STATE (fieldOf site) (localIx site) = 4 then d
    else (d.setF F.FLD_LDO_STATE (fieldOf site) 0 (localIx site)).setF F.FLD_LDO_VOUT (fieldOf site) 0 (localIx site)
  d.each (facesAt site) fun d x => d.faceOut x.1 x.2

/-- Isolate a cluster (Table 17-3, level 2 or 3): its site leaves service and Newt replaces it. While a swap already runs
for it the swap continues (R570). -/
def Dev.isolateCluster (d : Dev) (site : Nat) : Dev :=
  if d.boot.siteBad.contains site then d
  else
    let d := d.askCluster site
    ({ d with boot := { d.boot with siteBad := site :: d.boot.siteBad } }).darken site

/-- A Cellar channel fails (R330). -/
def Dev.celFail (d : Dev) (c : Nat) : Dev := d.setF F.CEL_STATUS_STATE c 4

/-- Show the active modules in instance 0 (Table 9-29). -/
def Dev.showModules (d : Dev) : Dev :=
  d.setF F.UCI_STATUS_MODULES 0 ((List.range 4).filter fun m => d.flag F.UCI_STATUS_IN_SILL m).length

/-- A UCIe module is removed from Sill (R336). -/
def Dev.moduleOut (d : Dev) (m : Nat) : Dev := (d.setF F.UCI_STATUS_IN_SILL m 0).showModules

/-! Demands (R474 to R482). -/

/-- Whether a domain is off because of a fault, so that no demand wakes it. -/
def Dev.domOut (d : Dev) (n : Nat) : Bool :=
  if n < 256 then d.siteOut n else if n < 272 then d.fieldLost (n - 256) else d.pwr.lost.contains n

/-- A demand to leave a state (R479, R481, R490): during an entry it waits for the end of the entry; a compute domain
whose LDO is off waits for the admission of its power-up (R442); else the exit starts. `src` says that a wake source is
the cause (R487). -/
def Dev.demand (d : Dev) (n : Nat) (src : Bool) : Dev :=
  let x := d.dom n
  if d.domOut n || d.pstate = 4 then d
  else if x.entering.isSome then d.setDom n fun x => { x with demand := true, source := x.source || src, pre := false }
  else if x.level = 0 then d
  else if n < 256 && x.level ≥ 3 && !x.exiting then
    d.setDom n fun x => { x with demand := true, source := x.source || src, pre := false }
  else d.setDom n fun x => { x with exiting := true, source := x.source || src, pre := false }

/-- Demands on several domains, by a wake source of Table 13-4. -/
def Dev.demands (d : Dev) (ns : List Nat) : Dev := d.each ns fun d n => d.demand n true

/-- Whether a domain serves no access: below D0 or on its way there, and not off because of a fault (R481, R482). -/
def Dev.rests (d : Dev) (n : Nat) : Bool := ((d.dom n).level ≠ 0 || (d.dom n).entering.isSome) && !d.domOut n

/-- Whether the wake of a compute domain carries a deadline (R198, R442, R463). -/
def Dev.hasDeadline (d : Dev) (n : Nat) : Bool := (d.dom n).deadline.isSome

/-! The activity ramp limiter (R463). -/

/-- Start the ramps that wait in a field while its window has room, those with a deadline first, at most n. A deadline is spent by
the ramp. -/
def Dev.rampGo (d : Dev) (f : Nat) : Nat → Dev
  | 0 => d
  | n + 1 =>
    let mine := d.pwr.rampWait.filter fun x => fieldOf x.1 == f
    match (mine.filter fun x => x.2) ++ mine.filter fun x => !x.2 with
    | [] => d
    | x :: _ =>
      if sget d.pwr.rampIn 0 f ≥ 4 then d
      else
        let d := d.modPwr fun p => { p with rampWait := p.rampWait.erase x, rampIn := sset p.rampIn 0 f (sget p.rampIn 0 f + 1) }
        let d := d.modClu x.1 fun c => { c with macAt := some d.now }
        (d.setDom x.1 fun y => { y with deadline := none }).rampGo f n

/-- Whether a word takes cube k-steps or dot groups. -/
def isMac : WordBody → Bool
  | .cube .. => true
  | .dot .. => true
  | _ => false

/-- Whether a cluster is quiet: no core is in a CUBE or DOT word, and none took a step in the last 64 cycles of the allocated clock
(R463). -/
def Dev.quiet (d : Dev) (site : Nat) : Bool :=
  ((List.range 36).all fun c => !(d.core (cu site c)).cd.any fun w => w.started && isMac w.body) &&
  match (d.clu site).macAt with
  | none => true
  | some t => d.now ≥ t + 64000 / (1200 + 25 * d.fld F.CLU_PWR_FREQ site)

/-- Whether a cluster waits for the window of its field to ramp (R463). -/
def Dev.rampHeld (d : Dev) (site : Nat) : Bool := d.pwr.rampWait.any fun x => x.1 == site

/-- A core of a cluster takes steps now. -/
def Dev.macTook (d : Dev) (u : Nat) (b : WordBody) : Dev :=
  if isMac b then d.modClu (u / 256) fun c => { c with macAt := some d.now } else d

/-- A quiet cluster asks for a ramp: it starts at once or waits for the window (R463). -/
def Dev.rampAsk (d : Dev) (site : Nat) : Dev :=
  if !d.quiet site || d.rampHeld site then d
  else
    let d := if sget d.pwr.rampIn 0 (fieldOf site) ≥ 4 then d.addSat F.CLU_PWR_RAMP_WAITS site 1 else d
    (d.modPwr fun p => { p with rampWait := p.rampWait ++ [(site, d.hasDeadline site)] }).rampGo (fieldOf site) 1

end Sys2Proof.Machine
end

