-- ==== Sys2Proof/Machine/LinkBase.lean ====
section
/-! DEFINITION. What a link sends (spec/10_links_and_pairs.md R382 to R389): cells, blocks, the replay buffer, credit, and a
link that goes DOWN. -/

namespace Sys2Proof.Machine

/-- Cut cells into blocks of five, filled with IDLE cells (R382). -/
def blocksOf : Nat → List LinkCell → List (List LinkCell)
  | 0, _ => []
  | n + 1, cs =>
    if cs.isEmpty then [] else (cs.take 5 ++ List.replicate (5 - cs.length) LinkCell.idle) :: blocksOf n (cs.drop 5)

/-- Whether a cell is a DATA cell. -/
def isData (c : LinkCell) : Bool := cellKind c == 1

/-- Whether a link is UP. -/
def Dev.linkIsUp (d : Dev) (l : Nat) : Bool := d.fld F.LNK_STATUS_STATE l == 2

/-- Send a block with a BSN. -/
def Dev.blockOut (d : Dev) (l bsn : Nat) (cells : List LinkCell) : Dev := d.emit (.linkBlk l (blockMsg bsn cells))

/-- Send an item that leaves its block unnumbered, in a block of its own with the BSN of the next numbered block (R383). -/
def Dev.quietOut (d : Dev) (l : Nat) (i : LinkItem) : Dev := d.blockOut l (d.lnk l).nextBsn [.ctrl [i]]

/-- Send a numbered block under the next BSN and keep it in the replay buffer; the block that a GRANT names is the first on the new
map of the send direction (R383, R387, R391). -/
def Dev.putBlock (d : Dev) (l : Nat) (cells : List LinkCell) : Dev :=
  Dev.modLnk (u := l) (d.blockOut l (d.lnk l).nextBsn cells) fun x =>
    let n := (x.nextBsn + 1) % 1024
    let x := { x with replay := x.replay ++ [(x.nextBsn, cells)], nextBsn := n }
    match x.txGrant with
    | some (pos, phys, b) =>
      if n = b then { x with txMap := putBits x.txMap (4 * pos) 4 phys, txGrant := none } else x
    | none => x

/-- Whether the SLEEP item of a link still waits for a block (R398). -/
def LnkS.sleepWaits (x : LnkS) : Bool := x.txq.contains [LinkCell.ctrl [.sleep]]

/-- Send what waits on a link, in order, while it is UP, the replay buffer has room and credit covers each packet (R387,
R389), at most n entries. DATA cells go out only while the quad is in D0 (R477). -/
def Dev.linkPump (d : Dev) (l : Nat) : Nat → Dev
  | 0 => d
  | n + 1 =>
    match (d.lnk l).txq with
    | [] => d
    | cs :: rest =>
      let bs := blocksOf cs.length cs
      let need := (cs.filter isData).length
      let cr := d.fld F.LNK_STATUS_CREDITS l
      if d.linkIsUp l && (need = 0 || !d.rests (domQuad l)) && (!(d.lnk l).sleepSent || (d.lnk l).sleepWaits) && decide (need ≤ cr) && decide ((d.lnk l).replay.length + bs.length ≤ 512) then
        let d := d.modLnk l fun x => { x with txq := rest }
        ((d.each bs fun d c => d.putBlock l c).setF F.LNK_STATUS_CREDITS l (cr - need)).linkPump l n
      else d

/-- Send as much as the link can. -/
def Dev.linkGo (d : Dev) (l : Nat) : Dev := d.linkPump l (d.lnk l).txq.length

/-- Queue cells on a link. A link that is DOWN or FAILED discards them (R388); one that is ASLEEP sends the wake pattern
(R399); DATA cells wake the quad (R477, R482). -/
def Dev.linkQ (d : Dev) (l : Nat) (cs : List LinkCell) : Dev :=
  let st := d.fld F.LNK_STATUS_STATE l
  if st = 0 || st = 4 then d
  else
    let d := d.modLnk l fun x => { x with txq := x.txq ++ [cs] }
    let d := if cs.any isData then d.demand (domQuad l) true else d
    if st = 3 then d.emit (.wakePattern l) else d.linkGo l

/-- Send a control item in a numbered block, ahead of packets that wait for credit. -/
def Dev.linkItem (d : Dev) (l : Nat) (i : LinkItem) : Dev :=
  let st := d.fld F.LNK_STATUS_STATE l
  if st = 0 || st = 4 then d
  else (d.modLnk l fun x => { x with txq := [LinkCell.ctrl [i]] :: x.txq }).linkGo l

/-- The cells queued on a link: those that wait and those not yet acknowledged (R405). -/
def Dev.linkQueue (d : Dev) (l : Nat) : Nat :=
  ((d.lnk l).replay.map fun b => (b.2.filter fun c => c != .idle).length).sum + ((d.lnk l).txq.map fun b => b.length).sum

/-- A link goes DOWN, or to another state `st` without blocks: it discards what it holds (R388); mirror records that it
sent and no MACK covers wait to be sent again (R405). FAR_ROLE stays until 15 µs have passed without a BEAT (Table 10-12). -/
def Dev.linkDrop (d : Dev) (l st : Nat) : Dev :=
  let d := (d.setF F.LNK_STATUS_STATE l st).setF F.LNK_STATUS_CREDITS l 0
  let d := d.modLnk l fun x => { LnkS.init with table := x.table, badLanes := x.badLanes, txMap := x.txMap, txHalf := x.txHalf,
                                                spurious := x.spurious, ignoreUntil := x.ignoreUntil }
  let back := d.pair.held.filter fun r => r.link == l
  { d with pair := { d.pair with held := d.pair.held.filter fun r => r.link != l, pending := back ++ d.pair.pending } }

end Sys2Proof.Machine
end

