-- ==== Sys2Proof/Machine/SillLink.lean ====
section
/-! DEFINITION. Sill's flits (spec/09_host_and_commands.md R336 to R342): the slots of a request, credit, the order of what is sent,
and the modules that carry it. -/

namespace Sys2Proof.Machine

/-! Slots (R338, R339). -/

/-- The bytes that LEN of a request names (Table 9-4). -/
def sillLen (r : SillReq) : Nat := 4 * (r.len.toNat + 1)

/-- Whether a TYPE carries data: WR and CPL (Table 9-5). -/
def sillHasData (ty : BitVec 4) : Bool := ty == 1 || ty == 3

/-- The data slots of a request. -/
def sillSlots (r : SillReq) : Nat := if sillHasData r.ty then (sillLen r + 15) / 16 else 0

/-- The header slot of a request (Table 9-4). -/
def sillHead (r : SillReq) : BitVec 128 := r.ty ++ r.rsv ++ r.tag ++ r.len ++ r.status ++ r.rsv2 ++ r.addr

/-- The request that a header slot names, without its data (Table 9-4). -/
def sillOfHead (w : BitVec 128) : SillReq :=
  { ty := w.extractLsb' 124 4, rsv := w.extractLsb' 120 4, tag := w.extractLsb' 110 10, len := w.extractLsb' 104 6,
    status := w.extractLsb' 100 4, rsv2 := w.extractLsb' 56 44, addr := w.extractLsb' 0 56, data := [] }

/-- The data slot k of some bytes; byte 0 of a slot lies in bits [7:0], and what a slot has beyond the data is 0. -/
def sillData (bs : List Byte) (k : Nat) : BitVec 128 := BitVec.ofNat 128 (leAt (takeZ 16 (bs.drop (16 * k))) 0 16)

/-- The slots of a request: its header, then its data (R338). -/
def sillWords (r : SillReq) : List (BitVec 128) :=
  sillHead r :: (List.range (sillSlots r)).map fun k => sillData (takeZ (sillLen r) r.data) k

/-- The flit header: the credits returned, in the order of Table 9-3, and FSEQ. -/
def flitHead (cred : List Nat) (fseq : Nat) : BitVec 128 :=
  let c (i : Nat) : BitVec 16 := BitVec.ofNat 16 (cred.getD i 0)
  c 0 ++ c 1 ++ c 2 ++ c 3 ++ c 4 ++ (0 : BitVec 32) ++ BitVec.ofNat 16 fseq

/-- FSEQ of a flit header. -/
def flitSeq (w : BitVec 128) : Nat := (w.extractLsb' 0 16).toNat

/-- The credits that a flit header returns, in the order of Table 9-3. -/
def flitCred (w : BitVec 128) : List Nat := (List.range 5).map fun i => (w.extractLsb' (112 - 16 * i) 16).toNat

/-- Slots 1 to 14 of flits that carry some slots, an unused slot all zero. -/
def flitCut : Nat → List (BitVec 128) → List (List (BitVec 128))
  | 0, _ => []
  | n + 1, ws => if ws.isEmpty then [] else (ws.take 14 ++ List.replicate (14 - ws.length) 0) :: flitCut n (ws.drop 14)

/-! Sending (R336, R341, R342). -/

/-- Change Sill's state. -/
def Dev.modSill (d : Dev) (f : SillS → SillS) : Dev := { d with sill := f d.sill }

/-- The active module that takes the next flit: they take turns (R336). -/
def Dev.sillModule (d : Dev) : Option Nat :=
  ((List.range 4).map fun k => (d.sill.turn + k) % 4).find? fun m => d.flag F.UCI_STATUS_IN_SILL m

/-- Send a flit on the module whose turn it is, as it stands; the turn passes on. -/
def Dev.flitOut (d : Dev) (ws : List (BitVec 128)) : Dev :=
  match d.sillModule with
  | none => d
  | some m => (d.modSill fun x => { x with turn := (m + 1) % 4 }).emit (.sillFlit m ws)

/-- Send a flit with slots 1 to 14: its header returns the credits due, and FSEQ counts on. -/
def Dev.flitSend (d : Dev) (ws : List (BitVec 128)) : Dev :=
  let h := flitHead d.sill.ret d.sill.tx
  (d.modSill fun x => { x with tx := (x.tx + 1) % 65536, ret := [0, 0, 0, 0, 0] }).flitOut (h :: ws)

/-- The credits that a request takes, in the order of Table 9-3: one header of its class and its data slots (R341). -/
def sillNeed (r : SillReq) : List Nat :=
  if r.ty = 1 || r.ty = 5 then [1, sillSlots r, 0, 0, 0]
  else if r.ty = 2 then [0, 0, 1, 0, 0]
  else [0, 0, 0, 1, sillSlots r]

/-- Whether the host has given credit for a request. -/
def SillS.can (x : SillS) (r : SillReq) : Bool :=
  x.met && (List.range 5).all fun i => match x.cred.getD i (some 0) with
    | none => true
    | some c => decide ((sillNeed r).getD i 0 ≤ c)

/-- The credits left once a request has taken its own. -/
def SillS.spend (x : SillS) (r : SillReq) : SillS :=
  { x with cred := (List.range 5).map fun i => (x.cred.getD i (some 0)).map fun c => c - (sillNeed r).getD i 0 }

/-- Whether a request would pass an earlier one that must go before it (R342): WR and NTF keep their order, an RD passes neither,
a CPL or CPLE passes no WR. -/
def sillBehind (earlier r : SillReq) : Bool :=
  if r.ty = 3 || r.ty = 4 then earlier.ty == 1 else earlier.ty == 1 || earlier.ty == 5

/-- A request goes when it has credit, a module is active, UCIe is in D0, and nothing that waits must go before it; else it waits. A
UCIe domain that rests is woken (R482). It begins in slot 1 of a flit of its own (assumption 70). -/
def Dev.sillTry (d : Dev) (r : SillReq) : Dev :=
  if d.rests domUci then (d.modSill fun x => { x with outq := x.outq ++ [r] }).demand domUci true
  else if d.sillModule.isSome && d.sill.can r && !(d.sill.outq.any fun x => sillBehind x r) then
    (d.modSill fun x => x.spend r).each (flitCut 5 (sillWords r)) fun d ws => d.flitSend ws
  else d.modSill fun x => { x with outq := x.outq ++ [r] }

/-- Try the requests that wait once more, in order. -/
def Dev.sillPump (d : Dev) : Dev :=
  (d.modSill fun x => { x with outq := [] }).each d.sill.outq fun d r => d.sillTry r

/-- Send a request to the host (R339, R341, R342). -/
def Dev.sillPut (d : Dev) (r : SillReq) : Dev := d.sillTry r

/-- Credits that no request's flit has returned go in a flit without requests. -/
def Dev.sillIdle (d : Dev) : Dev :=
  if d.sill.ret.any (· ≠ 0) && d.sillModule.isSome && !d.rests domUci then d.flitSend (List.replicate 14 0) else d

/-- Sill comes up: its first flit after training advertises 64 P_HDR, 1,024 P_DAT, 256 N_HDR and completion credit without limit,
and nothing more is sent until the host has advertised its own (R341). -/
def Dev.sillUp (d : Dev) : Dev :=
  (d.modSill fun x => { SillS.init with inq := x.inq, outq := x.outq, ret := [64, 1024, 256, 0, 0] }).flitSend (List.replicate 14 0)

/-- The flits that a removed module had not delivered, by FSEQ, go again as they were on the modules that remain (R336). What the
adapter's retry buffer holds is what was sent on that module. -/
def Dev.sillReplay (d : Dev) (m : Nat) (fseqs : List Nat) : Dev :=
  let sent := d.out.filterMap fun o => match o with
    | .sillFlit k ws => if k = m then some ws else none
    | _ => none
  d.each (fseqs.filterMap fun n => (sent.reverse.find? fun ws => flitSeq (ws.headD 0) == n)) fun d ws => d.flitOut ws

end Sys2Proof.Machine
end

