-- ==== Sys2Proof/Machine/HostRings.lean ====
section
/-! DEFINITION. Host rings, journal, session status blocks, the mirror stream and the completion of commands (chapters 9
and 10): what the command engine writes. -/

namespace Sys2Proof.Machine

/-! Sill toward the host (R339, R345). -/

/-- A WR toward the host. -/
def sillWr (addr : Nat) (bs : List Byte) : SillReq :=
  ⟨1, 0, 0, BitVec.ofNat 6 (bs.length / 4 - 1), 0, 0, BitVec.ofNat 56 addr, bs⟩

/-- Write bytes to host memory in WRs of at most 256 B that cross no 4 KiB boundary (R340). -/
def Dev.hostWr (d : Dev) : Nat → Nat → List Byte → Dev
  | 0, _, _ => d
  | n + 1, addr, bs =>
    if bs.isEmpty then d
    else
      let k := min 256 (4096 - addr % 4096)
      (d.sillPut (sillWr addr (bs.take k))).hostWr n (addr + k) (bs.drop k)

/-- Size of host ring r in bytes (Table 9-24). -/
def Dev.hrSize (d : Dev) (r : Nat) : Nat := 4096 * 2 ^ min 10 (d.fld F.CMD_HRING_CFG_SIZE 0 r)

/-- Bytes of host ring r between HEAD and TAIL (R284). -/
def Dev.hrUsed (d : Dev) (r : Nat) : Nat :=
  let h := d.fld F.CMD_HRING_HEAD_OFFSET 0 r
  let t := d.fld F.CMD_HRING_TAIL_OFFSET 0 r
  if d.fld F.CMD_HRING_HEAD_WRAP 0 r = d.fld F.CMD_HRING_TAIL_WRAP 0 r then t - h else d.hrSize r - h + t

/-- Whether an enabled host ring has room for n records of 64 B. -/
def Dev.hrRoom (d : Dev) (r n : Nat) : Bool :=
  d.flag F.CMD_HRING_CFG_EN 0 r && decide (d.hrUsed r + 64 * n ≤ d.hrSize r)

/-- Send an NTF for a ring when NTF_EN is 1 and the host has written HEAD since the last one (R345). -/
def Dev.ntf (d : Dev) (r : Nat) : Dev :=
  if d.flag F.CMD_CTRL_NTF_EN 0 && !d.ntfOut.contains r then
    { (d.sillPut ⟨5, 0, 0, 0, 0, 0, BitVec.ofNat 56 r, []⟩) with ntfOut := r :: d.ntfOut }
  else d

/-- The record header of Table 9-11. -/
def recHdr (kind session len : Nat) : List Byte := leBytes 8 (kind * 2 ^ 56 + session % 16 * 2 ^ 52 + len)

/-- Write a 64 B record into a host ring, then its tail word, then the NTF (R364, R345). -/
def Dev.hrPut (d : Dev) (r : Nat) (bs : List Byte) : Dev :=
  let base := d.fld F.CMD_HRING_BASE_ADDR 0 r * 4096
  let t := d.fld F.CMD_HRING_TAIL_OFFSET 0 r
  let d := d.sillPut (sillWr (base + t) (takeZ 64 bs))
  let d := if t + 64 ≥ d.hrSize r then
      (d.setF F.CMD_HRING_TAIL_OFFSET 0 0 r).setF F.CMD_HRING_TAIL_WRAP 0 (1 - d.fld F.CMD_HRING_TAIL_WRAP 0 r) r
    else d.setF F.CMD_HRING_TAIL_OFFSET 0 (t + 64) r
  (d.sillPut (sillWr (base + d.hrSize r) (leBytes 8 (d.getR R.CMD_HRING_TAIL 0 r).toNat))).ntf r

/-! The pair and its mirror stream (R403 to R405). -/

/-- The pair role (Table 10-3): 0 WAITING, 1 SOLO, 2 LEAD, 3 MIRROR, 4 FENCED, 5 STALE. -/
def Dev.role (d : Dev) : Nat := d.fld F.CMD_PAIR_STATUS_ROLE 0

/-- SYNC (Table 10-17): 0 none, 1 syncing, 2 formed. -/
def Dev.syncSt (d : Dev) : Nat := d.fld F.CMD_PAIR_STATUS_SYNC 0

/-- The takeover count (Table 10-17). -/
def Dev.term (d : Dev) : Nat := d.fld F.CMD_PAIR_STATUS_TERM 0

/-- The MIRROR links that are UP. -/
def Dev.mirrorLinks (d : Dev) : List Nat :=
  (List.range 48).filter fun l => d.fld F.LNK_CTRL_ROLE l == 1 && d.fld F.LNK_STATUS_STATE l == 2

/-- The MIRROR link with the fewest cells queued, the lowest number among equals (R405). -/
def Dev.pickMirror (d : Dev) : Option Nat :=
  d.mirrorLinks.foldl (fun b l => match b with
    | none => some l
    | some x => if d.linkQueue l < d.linkQueue x then some l else b) none

/-- Bytes a mirror record takes in the 4 MiB mirror buffer. -/
def recBytes (r : MirRec) : Nat := 16 + r.body.length

/-- Send waiting mirror records while the mirror buffer has room and a link is UP (R405), at most n. -/
def Dev.mirrorPump (d : Dev) : Nat → Dev
  | 0 => d
  | n + 1 =>
    match d.pair.pending, d.pickMirror with
    | r :: rest, some l =>
      if (d.pair.held.map recBytes).sum + recBytes r ≤ 0x400000 then
        let r := { r with link := l }
        let d : Dev := { d with pair := { d.pair with pending := rest, held := d.pair.held ++ [r] } }
        (d.linkQ l (mirCells r.mseq r.kind r.session r.body)).mirrorPump n
      else d
    | _, _ => d

/-- A link goes DOWN or FAILED: its mirror records move to the remaining MIRROR links, and a lead notes when none is left
(R388, R405, R413). -/
def Dev.linkDown (d : Dev) (l st : Nat) : Dev :=
  let d := d.linkDrop l st
  let d : Dev := if d.mirrorLinks.isEmpty && d.pair.noLinkAt.isNone then
      { d with pair := { d.pair with noLinkAt := some d.now } } else d
  d.mirrorPump d.pair.pending.length

/-- In role LEAD, give a mirror record its MSEQ and send it (R403, R405). -/
def Dev.mirrorSend (d : Dev) (kind session : Nat) (body : List Byte) : Dev :=
  if d.role ≠ 2 then d
  else
    let r : MirRec := ⟨d.pair.nextMseq, 0, kind, session, body⟩
    let d := { d with pair := { d.pair with nextMseq := d.pair.nextMseq + 1, pending := d.pair.pending ++ [r] } }
    d.mirrorPump d.pair.pending.length

/-- The MSEQ that the last mirror record sent received. -/
def Dev.lastMseq (d : Dev) : Nat := d.pair.nextMseq - 1

/-! The journal (R374 to R376). -/

/-- Host window offset of the journal entry of SEQ n (R374). -/
def jnlOff (n : Nat) : Nat := 0x800000 + 64 * (n % 65536)

/-- Show the entry versions not yet acknowledged (Table 9-26). -/
def Dev.showLag (d : Dev) : Dev := d.setF F.JNL_STATUS_LAG 0 (min 65535 d.jwait.length)

/-- Write a version of a journal entry, and in role LEAD stream it to the mirror (R375, R376). -/
def Dev.jnlPut (d : Dev) (seq : Nat) (e : List Byte) (final : Bool) : Dev :=
  let d := d.putJ (jnlOff seq) e
  if d.role = 2 then
    let d := d.mirrorSend 2 0 e
    let d : Dev := { d with jwait := d.jwait ++ [JnlWait.mk d.lastMseq seq final false] }
    d.showLag
  else d

/-- Replace bytes of a list from offset o. -/
def patch (bs : List Byte) (o : Nat) (v : List Byte) : List Byte := bs.take o ++ v ++ bs.drop (o + v.length)

/-- The journal entry of SEQ n as it stands. -/
def Dev.jnlGet (d : Dev) (n : Nat) : List Byte := d.getJ (jnlOff n) 64

/-- Field of a 64 B command entry (Table 9-7): opcode. -/
def ceOp (e : List Byte) : Nat := leAt e 1 1
/-- SESSION of a command entry. -/
def ceSess (e : List Byte) : Nat := leAt e 2 1 % 16
/-- DL of a command entry. -/
def ceDl (e : List Byte) : Bool := bitOf (leAt e 3 1) 0
/-- BARRIER of a command entry. -/
def ceBarrier (e : List Byte) : Bool := bitOf (leAt e 3 1) 1
/-- CID of a command entry. -/
def ceCid (e : List Byte) : Nat := leAt e 4 4
/-- DEADLINE of a command entry. -/
def ceDeadline (e : List Byte) : Nat := leAt e 8 8
/-- Parameter word Pi of a command entry. -/
def ceP (e : List Byte) (i : Nat) : Nat := leAt e (16 + 8 * i) 8

/-- The journal entry written at acceptance (Table 9-15). -/
def jnlNew (seq : Nat) (e : List Byte) (nt term : Nat) : List Byte :=
  let dig := (sha3 (patch e 0 (leBytes 1 (leAt e 0 1 / 2 * 2)))).take 16
  leBytes 8 seq ++ leBytes 4 (ceCid e) ++ leBytes 1 (ceOp e) ++ leBytes 1 (ceSess e) ++ [0xFF, 0] ++ dig ++
    leBytes 8 nt ++ zeros 16 ++ leBytes 4 term ++ zeros 4

/-- A journal entry with a status, NT_DONE, RESULT0 and TERM, MIRRORED cleared (R375). -/
def jnlFinal (e : List Byte) (status nt r0 term : Nat) : List Byte :=
  patch (patch (patch e 14 (leBytes 1 status ++ leBytes 1 (leAt e 15 1 / 2 * 2))) 40 (leBytes 8 nt ++ leBytes 8 r0)) 56
    (leBytes 4 term)

/-! Session status blocks (R372). -/

/-- The status block of a session (Table 9-14). -/
def sessBlock (x : SessS) : List Byte :=
  leBytes 1 x.state ++ leBytes 1 (if x.state = 0 then 0 else x.fence) ++ zeros 6 ++ leBytes 8 x.pos ++ leBytes 8 x.cap ++
    leBytes 8 x.lastSeq ++ leBytes 8 x.lastNt ++ zeros 24

/-- Write a session's status block; in role LEAD mirror the change (R372, Table 10-6). -/
def Dev.showSess (d : Dev) (i : Nat) : Dev :=
  let x := d.sess i
  let b := sessBlock x
  if d.getJ (0xC00000 + 64 * i) 64 = b then d
  else (d.putJ (0xC00000 + 64 * i) b).mirrorSend 4 i (takeZ 96 (b ++ (x.params.flatMap (leBytes 8))))

/-- Show which session is ACTIVE (Table 9-19). -/
def Dev.showActive (d : Dev) : Dev :=
  match (List.range 16).find? fun i => (d.sess i).state == 2 with
  | some i => (d.setF F.CMD_STATUS_ACTIVE_VALID 0 1).setF F.CMD_STATUS_ACTIVE 0 i
  | none => (d.setF F.CMD_STATUS_ACTIVE_VALID 0 0).setF F.CMD_STATUS_ACTIVE 0 0

/-! Completion (R358, R367). -/

/-- Session-lane opcodes (Table 9-8). -/
def isSessOp (op : Nat) : Bool := decide (1 ≤ op ∧ op ≤ 7 ∧ op ≠ 5)

/-- The completion record (Table 9-12). -/
def compRec (session seq cid op status nt r0 r1 : Nat) : List Byte :=
  recHdr 1 session 40 ++ leBytes 8 seq ++ leBytes 4 cid ++ leBytes 1 op ++ leBytes 1 status ++ zeros 2 ++ leBytes 8 nt ++
    leBytes 8 r0 ++ leBytes 8 r1

/-- Change what is held of a command. -/
def Dev.modCmd (d : Dev) (seq : Nat) (f : CmdS → CmdS) : Dev :=
  { d with cmds := d.cmds.map fun x => if x.seq = seq then f x else x }

/-- Write the completion record of a command and forget it (R367, R372). -/
def Dev.completeOut (d : Dev) (c : CmdS) (status r0 r1 : Nat) : Dev :=
  let i := ceSess c.entry
  let d := { d with cmds := d.cmds.filter fun x => x.seq != c.seq }
  let d := if isSessOp (ceOp c.entry) then (d.modSess i fun x => { x with lastSeq := c.seq }).showSess i else d
  let d := (d.addWrap F.CMD_COUNT_COMPLETED 0 1).setF F.CMD_STATUS_INFLIGHT 0 d.cmds.length
  d.hrPut 0 (compRec i c.seq (ceCid c.entry) (ceOp c.entry) status (leAt (d.jnlGet c.seq) 40 8) r0 r1)

/-- Complete a command: the final journal entry, then the completion record, which in role LEAD waits for the mirror's
acknowledgement of that entry (R367, R375). A command completed already stays as it is. -/
def Dev.complete (d : Dev) (seq status r0 r1 : Nat) : Dev :=
  match d.cmds.find? fun c => c.seq == seq && c.ended.isNone with
  | none => d
  | some c =>
    let d := { d with dec := match d.dec with | some x => if x.seq = seq then none else d.dec | none => none }
    let d := d.jnlPut seq (jnlFinal (d.jnlGet seq) status d.cmdNt r0 d.term) true
    let d := { d with hostReads := d.hostReads.filter fun h => h.seq != seq }
    let d := if status = 5 then d.record (evU bCMD 0) 1 1 0 else d
    if d.role = 2 then d.modCmd seq fun x => { x with ended := some (status, r0, r1) }
    else d.completeOut c status r0 r1

/-! The boot and security domain (R475). -/

/-- Whether an operation of R475 runs: a flash operation, an SVN commit, an attestation, a start path, a region reload, or the window
of a dead cluster swap. -/
def Dev.bootBusy (d : Dev) : Bool :=
  d.boot.nvm.isSome || d.boot.commit.isSome || d.boot.report.isSome || d.fld F.BSQ_STATUS_STATE 0 = 1 ||
    (d.cmds.any fun c => c.started && c.ended.isNone && ceOp c.entry == 0x20) || (d.nwt.window && d.nwt.hold.any d.siteOut)

/-- Bring the domain into D0 for an operation, or back to D4 after the last one. -/
def Dev.bootDom (d : Dev) : Dev := d.setDom domBoot fun x => { x with level := if d.bootBusy then 0 else 4 }

/-- Set STARTED of a command's journal entry (R375). A region reload brings boot and security to D0 (R475). -/
def Dev.startCmd (d : Dev) (seq : Nat) : Dev :=
  let d := d.modCmd seq fun x => { x with started := true }
  let d := if d.cmds.any fun c => c.seq == seq && ceOp c.entry == 0x20 then d.bootDom else d
  let e := d.jnlGet seq
  d.jnlPut seq (patch e 15 (leBytes 1 (leAt e 15 1 / 4 * 4 + 2))) false

/-! Fencing (R412, R414). -/

/-- The actions of a device that becomes FENCED (R412): no permits, no token records, running session commands complete
with FENCED, PAIR_FENCED is raised. The DECODE's end reason is 0 (assumption 15). -/
def Dev.fence (d : Dev) : Dev :=
  let d := ((d.setF F.CMD_PAIR_STATUS_ROLE 0 4).setF F.CMD_PAIR_STATUS_SYNC 0 0).setF F.JNL_STATUS_MIRROR 0 0
  let d : Dev := { d with jwait := [], pair := { d.pair with held := [], pending := [] } }
  let done := d.cmds.filter fun c => c.ended.isSome
  let d := d.each done fun d c => match c.ended with
    | some (st, r0, r1) => d.completeOut c st r0 r1
    | none => d
  let run := d.cmds.filter fun c => c.started && isSessOp (ceOp c.entry)
  let em := match d.dec with | some x => x.emitted | none => 0
  let d := d.each run fun d c => d.complete c.seq 0x0A (if ceOp c.entry = 4 then em else 0) 0
  let d : Dev := { d with dec := none }
  d.showLag.record (evU bCMD 0) 4 5 0

/-- A mirror becomes STALE (R406, R411, R413, R414). -/
def Dev.stale (d : Dev) : Dev :=
  ((d.setF F.CMD_PAIR_STATUS_ROLE 0 5).setF F.CMD_PAIR_STATUS_SYNC 0 0).record (evU bCMD 0) 7 1 0

/-- An event of level 4 or 5: a LEAD becomes FENCED and a MIRROR becomes STALE (R414). -/
def Dev.pairFail (d : Dev) : Dev := if d.role = 2 then d.fence else if d.role = 3 then d.stale else d

end Sys2Proof.Machine
end

