-- ==== Sys2Proof/Machine/Words.lean ====
section
/-! DEFINITION. The 64-bit encoding of schedule words (Tables 3-2, 3-3, 3-10 to 3-16): `encodeWord`, `decodeWord` and
the legality of R101. -/

namespace Sys2Proof.Machine

/-- Bits [lo + len − 1 : lo] of a word. -/
def wFld (w : BitVec 64) (lo len : Nat) : BitVec len := w.extractLsb' lo len

/-- Bit lo of a word. -/
def wBool (w : BitVec 64) (lo : Nat) : Bool := w.getLsbD lo

/-- A field placed at bit lo. -/
def pFld {n : Nat} (v : BitVec n) (lo : Nat) : BitVec 64 := (v.setWidth 64) <<< lo

/-- A one-bit field placed at bit lo. -/
def pBool (b : Bool) (lo : Nat) : BitVec 64 := pFld (BitVec.ofBool b) lo

/-- The guard of a word (Table 3-2). -/
def wGuard (w : BitVec 64) : Guard := ⟨wBool w 57, wFld w 54 3⟩

/-- WAIT and POST of an engine word (Table 3-2). -/
def wSync (w : BitVec 64) : Sync := ⟨wBool w 53, wFld w 47 6, wBool w 46, wFld w 40 6⟩

/-- The bits of a guard. -/
def pGuard (g : Guard) : BitVec 64 := pBool g.pn 57 ||| pFld g.pred 54

/-- The bits of WAIT and POST. -/
def pSync (y : Sync) : BitVec 64 := pBool y.waitEn 53 ||| pFld y.waitSem 47 ||| pBool y.postEn 46 ||| pFld y.postSem 40

/-- The major opcode of a word body (Table 3-3). -/
def opcOf : WordBody → BitVec 6
  | .nop => 0x00
  | .end_ => 0x01
  | .br _ => 0x02
  | .loop _ _ => 0x03
  | .lset _ _ _ _ => 0x04
  | .pset _ _ _ _ _ _ => 0x05
  | .plog _ _ _ _ => 0x06
  | .salu _ _ _ _ => 0x08
  | .salui _ _ _ _ => 0x09
  | .sli _ _ => 0x0A
  | .qrd _ _ _ _ => 0x0D
  | .dadd _ _ _ _ => 0x11
  | .sem _ _ _ _ _ _ => 0x14
  | .fence _ _ => 0x15
  | .route _ => 0x16
  | .phase _ => 0x17
  | .sleep _ _ => 0x18
  | .mov _ _ _ => 0x20
  | .recv _ _ _ _ => 0x21
  | .send _ _ _ _ _ _ _ => 0x22
  | .cstArm _ _ _ _ => 0x23
  | .cstAdd _ _ _ _ => 0x24
  | .sld _ _ _ _ => 0x25
  | .sst _ _ _ _ => 0x26
  | .dld _ _ _ _ _ => 0x27
  | .cube _ _ _ _ _ => 0x28
  | .dot _ _ _ _ _ => 0x29
  | .vop _ _ _ _ _ _ _ => 0x30
  | .vred _ _ _ _ => 0x31
  | .cvt _ _ _ _ _ _ _ _ _ _ _ _ => 0x32
  | .chk _ _ _ _ _ _ => 0x33

/-- The class fields of a word body, and WAIT and POST for an engine word. -/
def pBody : WordBody → BitVec 64
  | .nop => 0
  | .end_ => 0
  | .br tgt => pFld tgt 41
  | .loop lc tgt => pFld lc 52 ||| pFld tgt 39
  | .lset lc src sa imm => pFld lc 52 ||| pBool src 51 ||| pFld sa 47 ||| pFld imm 0
  | .pset pd cmp sa imf sb imm => pFld pd 51 ||| pFld cmp 48 ||| pFld sa 44 ||| pBool imf 43 ||| pFld sb 39 ||| pFld imm 0
  | .plog pd pa pb op => pFld pd 51 ||| pFld pa 48 ||| pFld pb 45 ||| pFld op 43
  | .salu sd sa sb op => pFld sd 50 ||| pFld sa 46 ||| pFld sb 42 ||| pFld op 38
  | .salui sd sa op imm => pFld sd 50 ||| pFld sa 46 ||| pFld op 38 ||| pFld imm 0
  | .sli sd imm => pFld sd 50 ||| pFld imm 0
  | .qrd sd q w pop => pFld sd 50 ||| pFld q 47 ||| pFld w 43 ||| pBool pop 42
  | .dadd dd imf sa imm => pFld dd 49 ||| pBool imf 48 ||| pFld sa 44 ||| pFld imm 0
  | .sem op scope idx vs sv val => pFld op 52 ||| pBool scope 51 ||| pFld idx 43 ||| pBool vs 42 ||| pFld sv 38 ||| pFld val 0
  | .fence kind eng => pFld kind 52 ||| pFld eng 48
  | .route mode => pFld mode 52
  | .phase ph => pFld ph 48
  | .sleep lvl exp => pFld lvl 52 ||| pFld exp 36
  | .mov y ds dd => pSync y ||| pFld ds 35 ||| pFld dd 30
  | .recv y q dd drop => pSync y ||| pFld q 37 ||| pFld dd 32 ||| pBool drop 31
  | .send y ds chan sig sign sten sreg => pSync y ||| pFld ds 35 ||| pFld chan 27 ||| pBool sig 26 ||| pFld sign 22 ||| pBool sten 21 ||| pFld sreg 17
  | .cstArm y slot count chan => pSync y ||| pFld slot 32 ||| pFld count 20 ||| pFld chan 12
  | .cstAdd y ds clu slot => pSync y ||| pFld ds 35 ||| pFld clu 27 ||| pFld slot 19
  | .sld y sr sa off => pSync y ||| pFld sr 36 ||| pFld sa 32 ||| pFld off 0
  | .sst y sr sa off => pSync y ||| pFld sr 36 ||| pFld sa 32 ||| pFld off 0
  | .dld y sr sa dd off => pSync y ||| pFld sr 36 ||| pFld sa 32 ||| pFld dd 27 ||| pFld off 0
  | .cube y da dw dp acc => pSync y ||| pFld da 35 ||| pFld dw 30 ||| pFld dp 25 ||| pBool acc 24
  | .dot y da dw dp acc => pSync y ||| pFld da 35 ||| pFld dw 30 ||| pFld dp 25 ||| pBool acc 24
  | .vop y fn da db dc dd bs => pSync y ||| pFld fn 34 ||| pFld da 29 ||| pFld db 24 ||| pFld dc 19 ||| pFld dd 14 ||| pBool bs 13
  | .vred y rfn da sd => pSync y ||| pFld rfn 36 ||| pFld da 31 ||| pFld sd 27
  | .cvt y ds dd db ben ss sen sc cen rnd de een => pSync y ||| pFld ds 35 ||| pFld dd 30 ||| pFld db 25 ||| pBool ben 24 ||| pFld ss 20 ||| pBool sen 19 ||| pFld sc 15 ||| pBool cen 14 ||| pFld rnd 12 ||| pFld de 7 ||| pBool een 6
  | .chk y cfn da db pd sd => pSync y ||| pFld cfn 36 ||| pFld da 31 ||| pFld db 26 ||| pFld pd 23 ||| pFld sd 19

/-- The 64-bit word of a schedule word (R99). -/
def encodeWord (x : SWord) : BitVec 64 := pFld (opcOf x.b) 58 ||| pGuard x.g ||| pBody x.b

/-- The body that the fields of a word spell, reserved bits ignored; none for an opcode outside Table 3-3. -/
def parseBody (w : BitVec 64) : Option WordBody :=
  match (wFld w 58 6).toNat with
  | 0x00 => some .nop
  | 0x01 => some .end_
  | 0x02 => some (.br (wFld w 41 13))
  | 0x03 => some (.loop (wFld w 52 2) (wFld w 39 13))
  | 0x04 => some (.lset (wFld w 52 2) (wBool w 51) (wFld w 47 4) (wFld w 0 20))
  | 0x05 => some (.pset (wFld w 51 3) (wFld w 48 3) (wFld w 44 4) (wBool w 43) (wFld w 39 4) (wFld w 0 16))
  | 0x06 => some (.plog (wFld w 51 3) (wFld w 48 3) (wFld w 45 3) (wFld w 43 2))
  | 0x08 => some (.salu (wFld w 50 4) (wFld w 46 4) (wFld w 42 4) (wFld w 38 4))
  | 0x09 => some (.salui (wFld w 50 4) (wFld w 46 4) (wFld w 38 4) (wFld w 0 32))
  | 0x0A => some (.sli (wFld w 50 4) (wFld w 0 32))
  | 0x0D => some (.qrd (wFld w 50 4) (wFld w 47 3) (wFld w 43 4) (wBool w 42))
  | 0x11 => some (.dadd (wFld w 49 5) (wBool w 48) (wFld w 44 4) (wFld w 0 32))
  | 0x14 => some (.sem (wFld w 52 2) (wBool w 51) (wFld w 43 8) (wBool w 42) (wFld w 38 4) (wFld w 0 16))
  | 0x15 => some (.fence (wFld w 52 2) (wFld w 48 3))
  | 0x16 => some (.route (wFld w 52 2))
  | 0x17 => some (.phase (wFld w 48 6))
  | 0x18 => some (.sleep (wFld w 52 2) (wFld w 36 16))
  | 0x20 => some (.mov (wSync w) (wFld w 35 5) (wFld w 30 5))
  | 0x21 => some (.recv (wSync w) (wFld w 37 3) (wFld w 32 5) (wBool w 31))
  | 0x22 => some (.send (wSync w) (wFld w 35 5) (wFld w 27 8) (wBool w 26) (wFld w 22 4) (wBool w 21) (wFld w 17 4))
  | 0x23 => some (.cstArm (wSync w) (wFld w 32 8) (wFld w 20 12) (wFld w 12 8))
  | 0x24 => some (.cstAdd (wSync w) (wFld w 35 5) (wFld w 27 8) (wFld w 19 8))
  | 0x25 => some (.sld (wSync w) (wFld w 36 4) (wFld w 32 4) (wFld w 0 21))
  | 0x26 => some (.sst (wSync w) (wFld w 36 4) (wFld w 32 4) (wFld w 0 21))
  | 0x27 => some (.dld (wSync w) (wFld w 36 4) (wFld w 32 4) (wFld w 27 5) (wFld w 0 21))
  | 0x28 => some (.cube (wSync w) (wFld w 35 5) (wFld w 30 5) (wFld w 25 5) (wBool w 24))
  | 0x29 => some (.dot (wSync w) (wFld w 35 5) (wFld w 30 5) (wFld w 25 5) (wBool w 24))
  | 0x30 => some (.vop (wSync w) (wFld w 34 6) (wFld w 29 5) (wFld w 24 5) (wFld w 19 5) (wFld w 14 5) (wBool w 13))
  | 0x31 => some (.vred (wSync w) (wFld w 36 4) (wFld w 31 5) (wFld w 27 4))
  | 0x32 => some (.cvt (wSync w) (wFld w 35 5) (wFld w 30 5) (wFld w 25 5) (wBool w 24) (wFld w 20 4) (wBool w 19) (wFld w 15 4) (wBool w 14) (wFld w 12 2) (wFld w 7 5) (wBool w 6))
  | 0x33 => some (.chk (wSync w) (wFld w 36 4) (wFld w 31 5) (wFld w 26 5) (wFld w 23 3) (wFld w 19 4))
  | _ => none

/-- A word read by the encodings of the manual: none for an undefined opcode or a non-zero reserved field (R101). -/
def decodeWord (w : BitVec 64) : Option SWord :=
  match parseBody w with
  | some b =>
    if encodeWord ⟨wGuard w, b⟩ = w then some ⟨wGuard w, b⟩ else none
  | none => none

/-- Whether every field of a body holds a value to which the manual gives a meaning (R101, R129, Tables 3-12, 3-13,
3-14). -/
def legalBody : WordBody → Bool
  | .pset _ cmp _ _ _ _ => cmp != 7
  | .salu _ _ _ op => op.toNat < 13
  | .salui _ _ op _ => op.toNat < 13
  | .sem op scope idx _ _ _ => op != 3 && (scope || idx.toNat < 64)
  | .fence kind _ => kind != 3
  | .route mode => mode != 3
  | .sleep lvl _ => lvl != 0
  | .cstArm _ _ count _ => count != 0
  | .vop _ fn _ _ _ _ _ => fn.toNat ≤ 0x13
  | .vred _ rfn _ _ => rfn.toNat ≤ 5
  | .cvt _ _ _ _ _ _ _ sc cen rnd _ _ => rnd != 3 && (!cen || sc.toNat % 2 == 0)
  | .chk _ cfn _ _ _ _ => cfn.toNat ≤ 2
  | _ => true

/-- The queue of an engine word (Table 3-1); none for a sequencer word. -/
def queueOf : WordBody → Option EngQ
  | .mov .. | .recv .. | .send .. | .cstArm .. | .cstAdd .. | .sld .. | .sst .. | .dld .. => some .m
  | .cube .. | .dot .. => some .cd
  | .vop .. | .vred .. | .cvt .. | .chk .. => some .v
  | _ => none

/-- WAIT and POST of an engine word. -/
def syncOf : WordBody → Sync
  | .mov y .. | .recv y .. | .send y .. | .cstArm y .. | .cstAdd y .. | .sld y .. | .sst y .. | .dld y ..
  | .cube y .. | .dot y .. | .vop y .. | .vred y .. | .cvt y .. | .chk y .. => y
  | _ => ⟨false, 0, false, 0⟩

end Sys2Proof.Machine
end

