-- ==== Sys2Proof/Machine/Events.lean ====
section
/-! DEFINITION. Raising an event: the recorder, then the effect of an escalated level on the scope of Table 17-3, the
isolation of a field, and the commands of chapter 17. -/

namespace Sys2Proof.Machine

/-- Put the device out of service (R538, R545, R546, R547): the command engine stops, and OUT_OF_SERVICE, a level 5 event, has the
pair fail over (R414). -/
def Dev.outOfService (d : Dev) : Dev :=
  if d.fld F.BSQ_STATUS_STATE 0 = 4 then d
  else
    let d := (d.setF F.BSQ_STATUS_STATE 0 4).setF F.CMD_CTRL_EN 0 0
    let d : Dev := { d with boot := { d.boot with restart := none } }
    (d.record (evU bBSQ 0) 7 5 0).pairFail.bootDom

/-- End a swap into or out of a field (R444): its RESULT is 4 abandoned. -/
def Dev.dropSwaps (d : Dev) (f : Nat) : Dev :=
  let bad (r : SwapReq) : Bool := match d.newtSite r.lclu with
    | some s => fieldOf s == f
    | none => false
  let preBad := match d.nwt.pre with
    | some (r, s, _) => bad r || fieldOf s == f
    | none => false
  if d.nwt.reqs.any bad || preBad then
    let left := d.nwt.reqs.filter fun r => !(bad r)
    let d : Dev := { d with nwt := { d.nwt with reqs := left, pre := if preBad then none else d.nwt.pre } }
    let d := d.setF F.NWT_STATUS_RESULT 0 4
    if d.nwt.reqs.isEmpty && d.nwt.pre.isNone && !d.nwt.window then d.setF F.NWT_STATUS_STATE 0 0 else d
  else d

/-- The four Hallways of a field's side 0 N, 1 E, 2 S, 3 W, as (owner, Hallway) (R25). -/
def sideHws (f side : Nat) : List (Nat × Nat) :=
  if side = 1 then (if f % 4 < 3 then [(f, 0), (f, 1), (f, 2), (f, 3)] else [])
  else if side = 2 then (if f / 4 < 3 then [(f, 4), (f, 5), (f, 6), (f, 7)] else [])
  else if side = 3 then (if f % 4 > 0 then [(f - 1, 0), (f - 1, 1), (f - 1, 2), (f - 1, 3)] else [])
  else (if f / 4 > 0 then [(f - 4, 4), (f - 4, 5), (f - 4, 6), (f - 4, 7)] else [])

/-- STATE of a Hallway (Table 1-8): 0 OPEN, 1 CLAMPED, 2 QUIESCED, 3 DOWN. -/
def Dev.hwState (d : Dev) (f h : Nat) : Nat := d.fld F.FLD_HW_STATUS_STATE f h

/-- Bring CLAMP of a field in line with its Hallways: a side is clamped while one of its Hallways is CLAMPED, and a side
with no neighbour reads 1 (Table 1-6). -/
def Dev.showClamp (d : Dev) (f : Nat) : Dev :=
  d.each (List.range 4) fun d side =>
    let hs := sideHws f side
    d.setFbit F.FLD_PG_STATUS_CLAMP f side (hs.isEmpty || hs.any fun x => d.hwState x.1 x.2 == 1)

/-- What a hop from a site through a port finds: the Hallway is not OPEN (R29, R33, R34). -/
def Dev.hopShut (d : Dev) (site port : Nat) : Bool :=
  match hallwayOf site port with
  | none => false
  | some (f, h) => d.hwState f h ≠ 0

/-- Count a discard at a Hallway. -/
def Dev.hopDiscard (d : Dev) (site port n : Nat) : Dev :=
  match hallwayOf site port with
  | none => d
  | some (f, h) => d.addSat F.FLD_HW_STATUS_DISCARDS f n h

/-- Whether the receiver of an input port is clamped (R28). -/
def Dev.hopClamped (d : Dev) (site port : Nat) : Bool :=
  match hallwayOf site port with
  | none => false
  | some (f, h) => d.hwState f h == 1

/-- The circuit flits inside clamped Hallways are discarded and counted (R29). -/
def Dev.purgeClamped (d : Dev) : Dev :=
  let inside (x : CircFlight) : Bool := x.slots.isNone && d.hopClamped x.site x.port
  Dev.each { d with circNet := d.circNet.filter fun x => !inside x } (d.circNet.filter inside) fun d x => d.hopDiscard x.site x.port 1

/-- The receivers that face a field, and its own, clamp (R28); OWN_PG and the neighbours' NEIGH_PG show the fall, CLAMP follows the
clamps (Table 1-6), and what is inside the Hallways is discarded (R29). -/
def Dev.clampField (d : Dev) (f : Nat) : Dev :=
  let hws := (List.range 16).flatMap fun g => (List.range 8).filterMap fun h =>
    if ownsHw g h && (g == f || hwFar g h == f) then some (g, h) else none
  let d := d.each hws fun d x => if d.flag F.FLD_HW_STATUS_FAILED x.1 x.2 then d else d.setF F.FLD_HW_STATUS_STATE x.1 1 x.2
  -- bit 0 N, 1 E, 2 S, 3 W (Table 1-6)
  let side (g b : Nat) (on : Bool) (d : Dev) : Dev :=
    if on then (d.setFbit F.FLD_PG_STATUS_NEIGH_PG g b false).showClamp g else d
  let d := side (f - 4) 2 (decide (f ≥ 4)) d
  let d := side (f + 4) 0 (decide (f < 12)) d
  let d := side (f - 1) 1 (decide (f % 4 > 0)) d
  let d := side (f + 1) 3 (decide (f % 4 < 3)) d
  let d := ((d.setF F.FLD_PG_STATUS_OWN_PG f 0).showClamp f).purgeClamped
  { d with hw := { d.hw with testing := d.hw.testing.filter fun x => x.1 != f && hwFar x.1 x.2.1 != f } }

/-- An AVSBus frame to the regulator controller of a field: port and rail select of R427, CmdGroup, command, a write with its data
or a read (Table 11-3). -/
def Dev.avs (d : Dev) (f group cmd : Nat) (wr : Bool) (data : Nat) : Dev := d.emit (.avs (f / 4) (f % 4) group cmd wr data)

/-- An AVSBus frame that is answered, or is retried 3 times and then counted with FSC_ERR (R428). -/
def Dev.avsTry (d : Dev) (f group cmd : Nat) (wr : Bool) (data : Nat) (answered : Bool) : Dev :=
  if answered then d.avs f group cmd wr data
  else
    let d := d.each (List.range 4) fun d _ => d.avs f group cmd wr data
    (d.addSat F.FLD_FSC_STATUS_AVS_FAIL f 1).record (evU bFLD f) 5 0 detField

/-- Whether the regulator controller of a field answers writes: its last read was answered (assumption 136). -/
def Dev.avsUp (d : Dev) (f : Nat) : Bool := !d.pwr.avsDead.contains f

/-- A field is lost (R439, R440, Table 11-7): it is isolated once, PWR records it, raises FIELD_LOSS and disables its rail,
its Hallways clamp, the pair fails over, and the restart on its variant is due (R545), or the device goes out of service
(R546, R547). -/
def Dev.fieldLoss (d : Dev) (f : Nat) : Dev :=
  if d.fieldLost f then d
  else
    let n := d.fld F.PWR_FIELD_LOSS_COUNT 0
    let d := d.setFbit F.PWR_RAIL_STATUS_ISOLATED 0 f true
    let d := if n = 0 then d.setF F.PWR_FIELD_LOSS_FIRST 0 f else if n = 1 then d.setF F.PWR_FIELD_LOSS_SECOND 0 f else d
    let d := d.setF F.PWR_FIELD_LOSS_COUNT 0 (min 2 (n + 1))
    let d := d.clampField f
    let d := (d.setF F.FLD_RAIL_STATUS_FAB_PG f 0).setDom (256 + f) fun _ => DomS.off
    let d := d.each (fieldSites f) fun d s => d.darken s
    let waits := d.pwr.upWait.filter fun x => fieldOf x.1 == f
    let d := d.each waits fun d x => d.record (evU bPCH 0) 1 2 x.1
    let d : Dev := { d with pwr := { d.pwr with upWait := d.pwr.upWait.filter fun x => fieldOf x.1 != f } }
    let d := d.dropSwaps f
    let d := d.record (evU bPWR 0) 1 (if n = 0 then 4 else 5) f
    let d := d.pairFail
    let d := d.avsTry f 1 1 true 1 (d.avsUp f)
    -- the rail stays off until the controller's own power is cycled (R428): Merif cannot leave reset again before (R425)
    let d : Dev := { d with pch := { d.pch with rails := false, dark := f :: d.pch.dark } }
    let st := d.fld F.BSQ_STATUS_STATE 0
    if n ≥ 1 || f = 13 || f = 14 || d.boot.restart.isSome then d.outOfService
    else if st = 4 || st = 3 then d
    else { d with boot := { d.boot with restart := some f } }

/-- The compute domains of a site opened by LDO failure or heat: the site is dark and Newt replaces it (R434, R470). -/
def Dev.loseCluster (d : Dev) (site : Nat) : Dev := (d.askCluster site).darken site

/-- Whether a Newt swap runs for the cluster at a site: its window is open. A pre-copy is not yet that: an isolation during it
makes the swap a dead one (R597). -/
def Dev.swapping (d : Dev) (site : Nat) : Bool := d.nwt.window && d.nwt.hold.contains site

/-- Isolate a cluster by an escalation to level 3: where a Newt swap already runs for it, the swap continues and the isolation takes
effect when it ends (R570, Table 17-5). -/
def Dev.isolateThree (d : Dev) (site : Nat) : Dev :=
  if d.swapping site then { d with nwt := { d.nwt with isol := d.nwt.isol ++ [site] } } else d.isolateCluster site

/-- A swap has ended: the isolations that waited for it take effect. -/
def Dev.isolateDue (d : Dev) : Dev :=
  let due := d.nwt.isol.filter fun x => !d.swapping x
  ({ d with nwt := { d.nwt with isol := d.nwt.isol.filter d.swapping } } : Dev).each due fun d x => d.isolateCluster x

/-- A module is removed by an escalation: UCI_MODULE_DOWN, and UCI_LINK_DOWN when none remains (R336, Table 17-3). -/
def Dev.moduleGone (d : Dev) (m : Nat) : Dev :=
  if !d.flag F.UCI_STATUS_IN_SILL m then d
  else
    let d := (d.moduleOut m).record (evU bUCI m) 1 1 0
    if d.fld F.UCI_STATUS_MODULES 0 = 0 then (d.record (evU bUCI 0) 2 5 0).pairFail else d

/-- A link becomes FAILED by an escalation or the loss of its rail: LNK_DOWN (Table 10-9). -/
def Dev.linkFailed (d : Dev) (l : Nat) : Dev :=
  if d.fld F.LNK_STATUS_STATE l = 4 then d else (d.linkDown l 4).record (evU bLNK l) 3 2 15

/-- The effect of an escalated level on the scope of Table 17-3. `i` is the instance. -/
def Dev.escalate (d : Dev) (blk i lvl detail : Nat) : Dev :=
  let lv (two three : Dev → Dev) (f : Nat) : Dev :=
    if lvl = 2 then two d else if lvl = 3 then three d else if lvl = 4 then d.fieldLoss f else d
  if blk = 1 then lv (fun d => d.retireCore i) (fun d => d.isolateThree (i / 256)) (fieldOf (i / 256))
  else if blk = 2 then lv (fun d => d.isolateCluster i) (fun d => d.isolateThree i) (fieldOf i)
  else if blk = 3 then lv (fun d => d.isolatePort i (detail % 8)) (fun d => d.isolateThree i) (fieldOf i)
  else if blk = 4 || blk = 18 then
    lv (fun d => if detail / 16 % 16 = 1 then d.hallwayDown i (detail % 16)
        else if detail / 16 % 16 = 0 then d.isolateCluster (siteOf i (detail % 16)) else d)
      (fun d => if detail / 16 % 16 = 0 then d.isolateThree (siteOf i (detail % 16)) else d) i
  else if blk = 17 then (if lvl = 4 then d.fieldLoss (detail % 16) else d)
  else if blk = 5 then
    (if lvl = 2 then d.channelFail i (detail % 32) else if lvl = 3 || lvl = 4 then d.stackFail i else d)
  else if blk = 6 then (if lvl ≥ 2 && lvl ≤ 4 then d.celFail i else d)
  else if blk = 7 then
    (if lvl = 2 then d.linkDown i 0 else if lvl = 3 || lvl = 4 then d.linkFailed i else d)
  else if blk = 8 then (if lvl = 2 then d.moduleGone i else d)
  else d

/-- An alarm on a core (R593, R597): it enters observation, or its cause is updated and its count restarts; a full list
raises OBS_FULL. -/
def Dev.observe (d : Dev) (u cause : Nat) : Dev :=
  if d.obs.any fun o => o.site == u / 256 && o.core == u % 256 then
    { d with obs := d.obs.map fun o => if o.site = u / 256 ∧ o.core = u % 256 then { o with passes := 0, cause := cause } else o }
  else if d.obs.length ≥ 256 then d.record (evU bSKK 0) 4 0 0
  else
    let d : Dev := { d with obs := d.obs ++ [⟨u / 256, u % 256, 0, cause⟩] }
    (d.setF F.SKK_STATUS_OBS_N 0 d.obs.length).record (evU bSKK 0) 2 0 0

/-- Raise an event (R557 to R560): it is recorded; when escalated, its new level takes effect on its scope; at level 4 or
5 the pair fails over (R414). -/
def Dev.raise (d : Dev) (eu c base detail : Nat) (skink : Bool := false) : Dev :=
  let (ok, lvl, esc) := d.verdict eu c base skink
  let d := d.record eu c base detail skink
  if !ok then d
  else
    let d := if eu / 65536 = 1 && !skink && (c = 1 || c = 2) then d.observe (eu % 65536) c else d
    let d := if esc then d.escalate (eu / 65536) (eu % 65536) lvl detail else d
    if lvl ≥ 4 then d.pairFail else d

/-- Whether an event unit exists (Table 0-7). -/
def Dev.evUnitOk (_ : Dev) (eu : Nat) : Bool :=
  let b := eu / 65536
  let i := eu % 65536
  if b = 1 then i % 256 < 36 else if b = 2 || b = 3 then i < 256 else if b = 4 || b = 18 then i < 16 else edgePresent b i

/-- The base levels of a block type's classes in the order of their codes (R555, Table 17-1 and the tables it names); of PHASE_LOSS and
RAIL_LOSS the least. -/
def classLevels (blk : Nat) : List Nat :=
  if blk = bCOR then [1, 0, 2, 2, 1, 2, 0, 1, 1, 1, 2, 0]
  else if blk = bCLU then [1, 0, 0, 1, 0, 1, 1, 1, 1, 2, 0, 1]
  else if blk = bFAB then [0, 1, 1, 1, 1, 1, 0, 0, 1]
  else if blk = bFLD then [2, 0, 3, 1, 0, 0, 1, 4, 0]
  else if blk = bTHM then [0, 0, 3, 5]
  else if blk = bPWR then [4, 2, 0, 1, 0, 0]
  else if blk = bHBM then [0, 1, 2, 2, 0, 1]
  else if blk = bCEL then [0, 1, 2, 0]
  else if blk = bLNK then [0, 1, 2, 0]
  else if blk = bUCI then [1, 5, 0, 0]
  else if blk = bCMD then [1, 1, 0, 5, 0, 1, 1, 0, 1]
  else if blk = bJNL then [1]
  else if blk = bPCH then [2, 0, 0]
  else if blk = bBSQ then [1, 5, 0, 0, 5, 1, 5]
  else if blk = bSEC then [0]
  else if blk = bTIM then [1, 0, 0, 0]
  else if blk = bNWT then [0, 1, 0, 5, 0, 0, 0]
  else if blk = bSKK then [1, 0, 0, 0, 0, 1]
  else if blk = bTRN then [1, 0]
  else []

/-- The base level of an occurrence: its class's, or for PHASE_LOSS and RAIL_LOSS the one that its cause gives (R555); none where the
block type has no such class. -/
def baseLevel (blk c cause : Nat) : Option Nat :=
  if c = 0 then none
  else if c = 2 && (blk = bFLD || blk = bPWR) then some cause
  else (classLevels blk)[c - 1]?

/-- A queue after a stop at word `seq`: earlier words stay, later ones only when started (R138). -/
def keepWords (seq : Nat) (ws : List QWord) : List QWord := ws.filter fun w => w.seq < seq || (w.seq ≠ seq && w.started)

/-- Stop the core at a word with a code of Table 3-18 (R138). -/
def Dev.stopAt (d : Dev) (u seq pc opc code : Nat) : Dev :=
  let d := (((d.setF F.COR_SEQ_ERR_VALID u 1).setF F.COR_SEQ_ERR_PC u pc).setF F.COR_SEQ_ERR_OPC u opc).setF
    F.COR_SEQ_ERR_CODE u code
  (d.coreOff u 3).modCore u fun x =>
    let y : CoreS := { x with cd := keepWords seq x.cd, v := keepWords seq x.v, m := keepWords seq x.m }
    { y with held := none, halting := 0 }

/-- The started words of a core, each the head of its queue. -/
def CoreS.running (x : CoreS) : List QWord := [x.cd, x.v, x.m].filterMap fun ws => ws.head?.filter fun w => w.started

/-- The word that a memory or parity error names, as (sequence number, PC, OPC): the oldest started engine word, at the PC of the
error where one is given, or else the word at issue (assumption 106). -/
def State.faultWord (s : State) (u : Nat) (pc : Option Nat) : Nat × Nat × Nat :=
  let x := s.dev.core u
  let ws := x.running.filter fun w => pc.isNone || pc == some w.pc
  match ws.find? fun w => ws.all fun v => w.seq ≤ v.seq with
  | some w => (w.seq, w.pc, (opcOf w.body).toNat)
  | none =>
    let p := pc.getD (s.dev.fld F.COR_STATUS_PC u)
    let opc := match x.held with
      | some (w, _) => (opcOf w.b).toNat
      | none => leNat (s.get (coreBase (u / 256) (u % 256) + 0x140000 + 8 * p) 8) / 2 ^ 58
    (x.nextSeq, p, opc)

/-- A core stops on a memory or parity error (R76, R77, R138) with code 11, STOP_ECC. A RETIRED core does not run. -/
def State.stopCore (s : State) (u : Nat) (pc : Option Nat) : State :=
  if s.dev.coreState u = 4 then s
  else let w := s.faultWord u pc; s.onDev fun d => d.stopAt u w.1 w.2.1 w.2.2 11

/-- UE_SRC of a local address (Table 2-14). -/
def ueSrc (la : Nat) : Nat :=
  if la < 0x100000 then 1 else if la < 0x130000 then 2 else if la < 0x140000 then 3 else if la < 0x150000 then 4 else 5

/-- An uncorrectable word at a local address of a core (R76): recorded and raised. -/
def Dev.eccUe (d : Dev) (u la : Nat) (skink : Bool) : Dev :=
  let d := ((d.setF F.COR_ECC_STATUS_UE u 1).setF F.COR_ECC_STATUS_UE_SRC u (ueSrc la)).setF F.COR_ECC_ADDR_ADDR u (la / 8 * 8)
  d.raise (evU 1 u) 3 2 la skink

/-- A parity error on the datapath of a core or on its activation buffer (R77, Table 2-14). -/
def Dev.dpParity (d : Dev) (u pc : Nat) (abuf : Bool) : Dev :=
  let d := ((d.setF F.COR_ECC_STATUS_PARITY u 1).setF F.COR_ECC_STATUS_UE_SRC u (if abuf then 6 else 7)).setF F.COR_ECC_ADDR_ADDR u pc
  d.raise (evU 1 u) 4 2 pc

/-- EVENT_OCCURRENCE: a block records an occurrence of a class listed for it, at the class's base level; `cause` is the level that the
cause of a PHASE_LOSS or a RAIL_LOSS gives (R555, R559). A memory or parity error of a core also stops it (R76,
R77), unless Skink found it, and the word named stays uncorrectable until it is written; `by_.abuf` says that a parity error is of the
activation buffer. -/
def execEventOccurrence (unit : BitVec 24) (cls : Fin 32) (cause : Fin 6) (detail : BitVec 32) (by_ : MetBy) (s : State) :
    Host.Outcome State Fault Refusal :=
  let eu := unit.toNat
  let u := eu % 65536
  let det := detail.toNat
  let core := decide (eu / 65536 = 1) && !by_.skink
  s.done (match if s.dev.evUnitOk eu then baseLevel (eu / 65536) cls.val cause.val else none with
    | none => s
    | some base =>
    if core && cls.val = 3 then
      let s := if det < 0x150000 then s.mark (coreBase (u / 256) (u % 256) + det) 1 2 else s
      (s.stopCore u none).onDev fun d => d.eccUe u det false
    else if core && cls.val = 4 then (s.stopCore u (some det)).onDev fun d => d.dpParity u det by_.abuf
    else s.onDev fun d => d.raise eu cls.val base det by_.skink)

/-- The history entry of an event unit with SEQ n, as its index, when it still stands. -/
def Dev.histIx (d : Dev) (eu n : Nat) : Option Nat :=
  let w := (d.getR R.EVT_HIST1 eu (n % 8)).toNat
  if w / 2 ^ 56 = n && bitOf w 40 then some (n % 8) else none

/-- Write the record of an event message to the event ring, or drop it (R366, R369). -/
def Dev.evtRecord (d : Dev) (m : EvMsg) : Dev :=
  if d.hrRoom 2 1 then d.hrPut 2 (recHdr 3 0 24 ++ leBytes 8 (blockId m.unit) ++ leBytes 8 m.w0 ++ leBytes 8 m.w1)
  else (d.addSat F.CMD_HRING_CFG_DROPS 0 1 2).record (evU bCMD 0) 2 1 0

/-- EVENT_MESSAGE: the command engine writes the record of the oldest event message of an instance and acknowledges it,
which sets DELIVERED (R563, R564). While the host window or UCIe rests, the message waits for their exits. -/
def execEventMessage (unit : BitVec 24) (seq : BitVec 8) (s : State) : Host.Outcome State Fault Refusal :=
  s.upd fun d =>
    let eu := unit.toNat
    let n := seq.toNat
    match d.evq.find? fun m => m.unit == eu with
    | none => d
    | some m =>
      let low := [domHost, domUci].filter d.rests
      if m.seq ≠ n then d
      else if !low.isEmpty then d.demands low
      else
        let d := ({ d with evq := d.evq.erase m } : Dev).evtRecord m
        match d.histIx eu n with
        | some i => d.setF F.EVT_HIST1_DELIVERED eu 1 i
        | none => d

/-- EVENT_RETRY: a timed-out event message is sent again; after the third timeout it is abandoned (R565). -/
def execEventRetry (unit : BitVec 24) (seq : BitVec 8) (s : State) : Host.Outcome State Fault Refusal :=
  s.upd fun d =>
    let eu := unit.toNat
    let n := seq.toNat
    match d.evq.find? fun m => m.unit == eu && m.seq == n with
    | none => d
    | some m =>
      if m.sends ≥ 3 then
        let d : Dev := { d with evq := d.evq.erase m }
        d.addSat F.EVT_STATUS_UNDELIVERED eu 1
      else { d with evq := d.evq.map fun x => if x = m then { m with sends := m.sends + 1 } else x }

/-- Clear the pending state of the classes set in a mask (R568). -/
def Dev.ackMask (d : Dev) (eu mask : Nat) : Dev :=
  d.each (List.range 32) fun d c => if bitOf mask c && sget d.evtPend 0 (eu * 32 + c) ≠ 0 then d.setPend eu c 0 else d

/-- Whether the registers of a block instance can be reached: one in a dark cluster or a lost field,
of a lost rail or stranded, cannot (R568). -/
def Dev.evReach (d : Dev) (eu : Nat) : Bool :=
  let b := eu / 65536
  let i := eu % 65536
  if b = 1 then !d.siteOut (i / 256) && !d.coreAbsent i
  else if b = 2 then !d.siteOut i
  else if b = 3 then !d.fieldLost (fieldOf i)
  else if b = 4 || b = 18 then !d.fieldLost i
  else edgePresent b i && !d.stranded b i && !((regDomain b i).any d.pwr.lost.contains)

end Sys2Proof.Machine
end

