-- ==== Sys2Proof/Machine/Hallway.lean ====
section
/-! DEFINITION. Hallways: clamps, wire tests and wire sparing (spec/01_fields_seams_and_package.md R25 to R35). -/

namespace Sys2Proof.Machine

/-- The key of a bundle's remap entry. -/
def hwKey (f h : Nat) (dirIn : Bool) (bundle : Nat) : Nat := ((f * 8 + h) * 2 + b2n dirIn) * 64 + bundle

/-- The number of signal positions on spare wires in a direction of a Hallway (Table 1-8). -/
def Dev.hwBad (d : Dev) (f h : Nat) (dirIn : Bool) : Nat :=
  ((List.range 34).map fun b =>
    let e := sget d.hw.act 0 (hwKey f h dirIn b)
    b2n (bitOf e 5) + b2n (bitOf e 13)).sum

/-- Show BAD_IN and BAD_OUT. -/
def Dev.showBad (d : Dev) (f h : Nat) : Dev :=
  (d.setF F.FLD_HW_STATUS_BAD_OUT f (d.hwBad f h false) h).setF F.FLD_HW_STATUS_BAD_IN f (d.hwBad f h true) h

/-- Set STATE of a Hallway. -/
def Dev.setHw (d : Dev) (f h st : Nat) : Dev :=
  ((d.setF F.FLD_HW_STATUS_STATE f st h).showClamp f).showClamp (hwFar f h)

/-- Power-good of a field's fabric domain rises (Table 1-4, step 1). -/
def Dev.pgRise (d : Dev) (n : Nat) : Dev :=
  if d.fieldLost n then d
  else
    let d := (d.setF F.FLD_PG_STATUS_OWN_PG n 1).setF F.FLD_RAIL_STATUS_FAB_PG n 1
    d.each (List.range 4) fun d side =>
      match sideHws n side with
      | [] => d
      | _ => d.setFbit F.FLD_PG_STATUS_NEIGH_PG (if side = 0 then n - 4 else if side = 1 then n + 1 else if side = 2 then n + 4 else n - 1)
          ((side + 2) % 4) true

/-- Power-good of a field's fabric domain falls: the receivers that face the field clamp (R28). -/
def Dev.pgFall (d : Dev) (n : Nat) : Dev := (d.clampField n).setF F.FLD_RAIL_STATUS_FAB_PG n 0

/-- FABRIC_PG_FALL: the receivers that face the field clamp (R28); tests in progress end, and the release sequence restarts
(R30). -/
def execFabricPgFall (f : FieldN) (s : State) : Host.Outcome State Fault Refusal :=
  s.upd fun d => d.pgFall f.val

/-- FABRIC_PG_RISE. -/
def execFabricPgRise (f : FieldN) (s : State) : Host.Outcome State Fault Refusal := s.upd fun d => d.pgRise f.val

/-- Whether the power-good of the fabric domains on both sides of a Hallway is up (R28). -/
def Dev.hwPower (d : Dev) (f h : Nat) : Bool :=
  d.flag F.FLD_PG_STATUS_OWN_PG f && d.flag F.FLD_PG_STATUS_OWN_PG (hwFar f h)

/-- Start a wire test. -/
def Dev.hwStartTest (d : Dev) (f h : Nat) (req : Bool) : Dev :=
  if d.hw.testing.any fun x => x.1 == f && x.2.1 == h then d
  else { d with hw := { d.hw with testing := d.hw.testing ++ [(f, h, req)] } }

/-- HALLWAY_WIRE_TEST: power-good on both sides has been stable for 10 µs, and the CLAMPED Hallway runs its wire test
(Table 1-4, step 2). -/
def execHallwayWireTest (f : FieldN) (h : Fin 8) (s : State) : Host.Outcome State Fault Refusal :=
  s.upd fun d =>
    if ownsHw f.val h.val && d.hwPower f.val h.val && d.hwState f.val h.val == 1 && !d.flag F.FLD_HW_STATUS_FAILED f.val h.val
    then d.hwStartTest f.val h.val false else d

/-- Put a failed wire onto a spare of its bundle (R26, R31): none when both spares carry other positions. -/
def remapAdd (e pos : Nat) : Option Nat :=
  if (bitOf e 5 && bitsOf e 0 5 == pos) || (bitOf e 13 && bitsOf e 8 5 == pos) then some e
  else if !bitOf e 5 then some (putBits e 0 6 (32 + pos))
  else if !bitOf e 13 then some (putBits e 8 6 (32 + pos))
  else none

/-- Add failed wires to the active tables; the Boolean says that a bundle needed more than its spares. -/
def Dev.hwCover (d : Dev) (f h : Nat) (found : List WireFault) : Dev × Bool :=
  found.foldl (fun x w =>
    let k := hwKey f h w.dirIn w.bundle.val
    match remapAdd (sget x.1.hw.act 0 k) w.pos.val with
    | some e => ({ x.1 with hw := { x.1.hw with act := sset x.1.hw.act 0 k e } }, x.2)
    | none => (x.1, true)) (d, false)

/-- A Hallway fails (R33): FAILED and DOWN, and FLD raises HW_FAILED. -/
def Dev.hwFail (d : Dev) (f h : Nat) : Dev :=
  (((d.setF F.FLD_HW_STATUS_FAILED f 1 h).setF F.FLD_HW_STATUS_TEST_FAIL f 1 h).setHw f h 3).raise (evU bFLD f) 1 2 (16 + h)

/-- A QUIESCED Hallway opens when neither HOLD nor QUIESCE keeps it (Tables 1-4, 1-7). Step 4 of Table 1-4 names HOLD alone:
that QUIESCE keeps a released Hallway too, and that it opens at once although a TEST still runs, are the model's choices
(assumption 91). -/
def Dev.hwOpen (d : Dev) (f h : Nat) : Dev :=
  if d.hwState f h = 2 && !d.flag F.FLD_HW_CTRL_HOLD f h && !d.flag F.FLD_HW_CTRL_QUIESCE f h then d.setHw f h 0 else d

/-- WIRE_TEST_END: newly failed wires go onto spares; the Hallway is QUIESCED, and OPEN if HOLD is 0; a bundle that needs
more than 2 spares makes it FAILED (Table 1-4, R33). Without power-good on both sides nothing is released (R30). A test that
the TEST bit asked for covers failed wires in the same way and leaves STATE (assumption 91). -/
def execWireTestEnd (f : FieldN) (h : Fin 8) (found : List WireFault) (s : State) : Host.Outcome State Fault Refusal :=
  s.upd fun d =>
    let n := f.val
    let k := h.val
    match d.hw.testing.find? fun x => x.1 == n && x.2.1 == k with
    | none => d
    | some t =>
      let d : Dev := { d with hw := { d.hw with testing := d.hw.testing.filter fun x => !(x.1 == n && x.2.1 == k) } }
      if !d.hwPower n k || d.hwState n k = 3 || (d.hwState n k = 1 && t.2.2) then d
      else
        let r := d.hwCover n k found
        let d := r.1.showBad n k
        if r.2 then d.hwFail n k else if t.2.2 then d else (d.setHw n k 2).hwOpen n k

/-- Whether a staged table set can be applied: no entry names one position twice (R32). -/
def Dev.hwStagedOk (d : Dev) (f h : Nat) : Bool :=
  [false, true].all fun dr => (List.range 34).all fun b =>
    let e := sget d.hw.staged 0 (hwKey f h dr b)
    !(bitOf e 5 && bitOf e 13 && bitsOf e 0 5 == bitsOf e 8 5)

/-- Apply the staged remap tables of a Hallway, or set APPLY_REJ (R32). -/
def Dev.hwApply (d : Dev) (f h : Nat) : Dev :=
  if d.hwState f h = 2 && d.hwStagedOk f h then
    let d := d.each [false, true] fun d dr => d.each (List.range 34) fun d b =>
      let k := hwKey f h dr b
      { d with hw := { d.hw with act := sset d.hw.act 0 k (sget d.hw.staged 0 k) } }
    d.showBad f h
  else d.setF F.FLD_HW_STATUS_APPLY_REJ f 1 h

/-- Whether the Hallway's registers exist and can be reached (R35, R446). -/
def Dev.hwReach (d : Dev) (f h : Nat) : Bool := ownsHw f h && !d.fieldLost f

/-- APPLY: a write of FLD_HW_CTRL.APPLY (R32). -/
def execApply (f : FieldN) (h : Fin 8) (s : State) : Host.Outcome State Fault Refusal :=
  s.upd fun d => if d.hwReach f.val h.val then d.hwApply f.val h.val else d

/-- A write of TEST runs a wire test if STATE is QUIESCED (Table 1-7). -/
def Dev.hwTestWr (d : Dev) (f h : Nat) : Dev := if d.hwState f h = 2 then d.hwStartTest f h true else d

/-- HW_TEST: a write of FLD_HW_CTRL.TEST. -/
def execHwTest (f : FieldN) (h : Fin 8) (s : State) : Host.Outcome State Fault Refusal :=
  s.upd fun d => if d.hwReach f.val h.val then d.hwTestWr f.val h.val else d

/-- A write of QUIESCE: 1 takes an OPEN Hallway to QUIESCED, 0 returns it to OPEN unless HOLD is 1 (Table 1-7). -/
def Dev.hwQuiesce (d : Dev) (f h : Nat) (v : Bool) : Dev :=
  let d := d.setB F.FLD_HW_CTRL_QUIESCE f v h
  if v then (if d.hwState f h = 0 then d.setHw f h 2 else d) else d.hwOpen f h

/-- QUIESCE: a write of FLD_HW_CTRL.QUIESCE. -/
def execQuiesce (f : FieldN) (h : Fin 8) (v : Bool) (s : State) : Host.Outcome State Fault Refusal :=
  s.upd fun d => if d.hwReach f.val h.val then d.hwQuiesce f.val h.val v else d

/-- A write of HOLD (Table 1-7): cleared, a released Hallway opens (Table 1-4). -/
def Dev.hwHold (d : Dev) (f h : Nat) (v : Bool) : Dev :=
  let d := d.setB F.FLD_HW_CTRL_HOLD f v h
  if v then d else d.hwOpen f h

/-- HOLD: a write of FLD_HW_CTRL.HOLD. -/
def execHold (f : FieldN) (h : Fin 8) (v : Bool) (s : State) : Host.Outcome State Fault Refusal :=
  s.upd fun d => if d.hwReach f.val h.val then d.hwHold f.val h.val v else d

/-- A write of FLD_HW_CTRL whole: HOLD, QUIESCE, TEST and APPLY act in this order, the last two on the STATE after the first
two (assumption 91). -/
def Dev.wrHwCtrl (d : Dev) (f h v : Nat) : Dev :=
  if !ownsHw f h then d
  else
    let d := (d.hwHold f h (bitOf v 0)).hwQuiesce f h (bitOf v 1)
    let d := if bitOf v 2 then d.hwTestWr f h else d
    if bitOf v 3 then d.hwApply f h else d

/-- The entry that FLD_HW_REMAP_SEL selects: its key and whether it is in the staged table; none where DATA reads 0
(Table 1-9). -/
def Dev.hwSel (d : Dev) (f : Nat) : Option (Nat × Bool) :=
  let b := d.fld F.FLD_HW_REMAP_SEL_BUNDLE f
  let h := d.fld F.FLD_HW_REMAP_SEL_HALLWAY f
  if b < 34 && ownsHw f h then
    some (hwKey f h (d.flag F.FLD_HW_REMAP_SEL_DIR f) b, d.flag F.FLD_HW_REMAP_SEL_TABLE f)
  else none

/-- A read of FLD_HW_REMAP_DATA. -/
def Dev.rdRemap (d : Dev) (f : Nat) : Nat :=
  match d.hwSel f with
  | none => 0
  | some (k, st) => sget (if st then d.hw.staged else d.hw.act) 0 k

/-- A write of FLD_HW_REMAP_DATA: only the staged table takes it. -/
def Dev.wrRemap (d : Dev) (f v : Nat) : Dev :=
  match d.hwSel f with
  | some (k, true) => { d with hw := { d.hw with staged := sset d.hw.staged 0 k (bitsOf v 0 6 + bitsOf v 8 6 * 256) } }
  | _ => d

end Sys2Proof.Machine
end

