-- ==== Sys2Proof/Machine/Fabric.lean ====
section
/-! DEFINITION. The cluster routers: forwarding, route and circuit tables, epochs, drains (spec/06_fabric.md). Circuit
flits and timeouts are in Sinks.lean, since they reach landings. -/

namespace Sys2Proof.Machine

/-- Take a packet out of an input buffer or a sink, with its occupancy (Table 6-24); what waits to be injected there goes in. -/
def Dev.depart (d : Dev) (site port : Nat) (p : Packet) : Dev :=
  let x : Flight := ⟨site, port, p⟩
  if d.net.contains x then
    let d : Dev := { d with net := d.net.erase x }
    if port ≥ 7 then d
    else
      let d := d.setF (if p.vc then F.FAB_PORT_OCC_OCC_VC1 else F.FAB_PORT_OCC_OCC_VC0) site
        (d.occ site port p.vc - pktFlits p) port
      d.unstage site port p.vc d.stage.length
  else d

/-- Whether a packet is first in its input buffer and VC; one that no buffer holds has just arrived there. -/
def Dev.isHead (d : Dev) (site port : Nat) (p : Packet) : Bool :=
  match d.net.find? fun x => x.site == site && x.port == port && x.pkt.vc == p.vc with
  | some x => x.pkt == p
  | none => true

/-- Count a packet as ejected at a router (R257). -/
def Dev.ejected (d : Dev) (site : Nat) (p : Packet) : Dev := d.addWrap F.FAB_ECNT_EJ site 1 (epN p.epoch)

/-- Discard a packet under R239 or R246: NOROUTE. -/
def Dev.noRoute (d : Dev) (site port : Nat) (p : Packet) : Dev :=
  ((d.ejected site p).addSat F.FAB_STATUS_NOROUTE site 1).raise (evU bFAB site) 3 1 (min port 7)

/-- Whether the copy that an epoch names is valid at a router (R256). -/
def Dev.copyValid (d : Dev) (site : Nat) (ep : Bool) : Bool :=
  if ep then d.flag F.FAB_CTRL_VALID_B site else d.flag F.FAB_CTRL_VALID_A site

/-- Whether DST_CORE is a value that Table 6-4 reserves. -/
def dstResv (c : Nat) : Bool := 36 ≤ c && c ≤ 59

/-- The output port at the router of DST_SITE (R245): 7 is the field spine bus. -/
def sitePort (c : Nat) : Nat := if c = 61 then 5 else if c = 62 then 6 else if c = 63 then 7 else 4

/-- The output port that the route entry of a router gives (R244): none where the packet has no route (R246). -/
def Dev.routePort (d : Dev) (site port : Nat) (p : Packet) : Option Nat :=
  let e := sget (if p.epoch then (d.rtr site).rtB else (d.rtr site).rtA) 0 p.dstSite.toNat
  let o := if p.vc then bitsOf e 8 3 else bitsOf e 12 3
  if bitOf e 15 && o < 4 && hasPort site o && o ≠ port then some o else none

/-- A response to a packet: TYPE, AUX and payload, back to its source with its TAG. AUX holds bits [71:48], so a word
count at [71:64] stands at 65,536 and a status at [63:60] at 4,096. -/
def Dev.respond (d : Dev) (p : Packet) (ty aux : Nat) (body : List Byte) : Dev :=
  let site := p.dstSite.toNat
  let core := p.dstCore.toNat
  let r := mkPkt ty site core p.srcSite.toNat p.srcCore.toNat (d.injEpoch site = 1) aux 0 false body
  d.reply site (portOfCore core) { r with tag := p.tag }

/-- AUX of a READ_RESP: words − 1 and status (Table 6-5). -/
def respAux (words status : Nat) : Nat := (words - 1) * 65536 + status * 4096

/-- AUX of an ACK: status (Table 6-5). -/
def ackAux (status : Nat) : Nat := status * 4096

/-- Answer a packet for a compute domain that is retired or off because of a fault (R247). -/
def Dev.unmappedAnswer (d : Dev) (p : Packet) : Dev :=
  let site := p.dstSite.toNat
  let d := d.ejected site p
  let t := p.ty.toNat
  if t = 2 then
    let w := p.aux.toNat / 65536 % 256 + 1
    d.respond p 3 (respAux w 4) (zeros (w * 8))
  else if t = 1 || (t = 4 && p.aux.toNat / 65536 % 2 = 0) then d.respond p 5 (ackAux 4) []
  else if t = 0 then d.addSat F.FAB_STATUS_NOROUTE site 1
  else d

/-- Whether the redirect of a site is in force for a packet to its cluster (R583). -/
def Dev.redirects (d : Dev) (p : Packet) : Bool :=
  (p.dstCore.toNat < 36 || p.dstCore.toNat = 60) && d.flag F.CLU_REDIRECT_EN p.dstSite.toNat

/-- Re-inject a packet to the new site (R583). -/
def Dev.redirect (d : Dev) (p : Packet) : Dev :=
  let site := p.dstSite.toNat
  (d.ejected site p).send1 site 4
    { p with dstSite := BitVec.ofNat 8 (d.fld F.CLU_REDIRECT_SITE site), vc := false, epoch := d.injEpoch site = 1 }

/-- Whether a compute domain is on its way to D0 or below it and not off because of a fault: arrivals wait (R247). -/
def Dev.asleep (d : Dev) (site : Nat) : Bool := d.rests site

/-! DRAIN packets (R258, R259). -/

/-- The sites in serpentine order: rows by increasing Y, X increasing on even rows and decreasing on odd ones (R258). -/
def serpentine : List Nat :=
  (List.range 16).flatMap fun y => (List.range 16).map fun x => 16 * y + (if y % 2 = 0 then x else 15 - x)

/-- Sites of the drain mask of a root. -/
def Dev.drainSites (d : Dev) (root : Nat) : List Nat :=
  serpentine.filter fun x => bitOf (d.getR R.FAB_DRAIN_MASK root (x / 64)).toNat (x % 64)

/-- The payload of a DRAIN packet: the sums of INJ, EJ and UNATTR, the wave number, EPOCH and RETIRE (R258). -/
def drainBody (inj ej ua wave ep : Nat) (retire : Bool) : List Byte :=
  leBytes 4 inj ++ leBytes 4 ej ++ leBytes 4 ua ++ leBytes 1 wave ++ leBytes 1 (ep + 2 * b2n retire)

/-- Send the DRAIN packet of a wave from a root to the first masked site, or straight back; it travels in epoch 1 − EPOCH, on VC1
where the root has VC1 (R258). It enters the router as at LOCAL (assumption 103). -/
def Dev.drainSend (d : Dev) (root : Nat) (retire : Bool) : Dev :=
  let x := (d.rtr root).drain
  let sites := d.drainSites root
  let ep := d.fld F.FAB_DRAIN_CTRL_EPOCH root
  let p := mkPkt 6 root 63 (sites.headD root) 63 (ep = 0) 0 0 false (drainBody 0 0 0 x.wave ep retire)
  let d := d.modRtr root fun r => { r with drain := { r.drain with phase := if retire then 3 else 1, todo := sites } }
  d.send1 root 4 { p with vc := d.flag F.FAB_CTRL_VC1_EN root }

/-- A DRAIN packet at the router of its DST_SITE: the router adds its counts, or clears VALID of the epoch for a retire wave, and
the packet goes on to the next site of the mask or back to the root (R258, R259). `d` has the packet taken out. -/
def Dev.drainVisit (d : Dev) (site : Nat) (p : Packet) : Dev :=
  let root := p.srcSite.toNat
  match (d.rtr root).drain.todo with
  | t :: rest =>
    if t ≠ site then d
    else
      let fl := leAt p.payload 13 1
      let ep := fl % 2
      let d := d.modRtr root fun r => { r with drain := { r.drain with todo := rest } }
      let d := if fl / 2 % 2 = 1 then d.setF (if ep = 1 then F.FAB_CTRL_VALID_B else F.FAB_CTRL_VALID_A) site 0 else d
      let body := if fl / 2 % 2 = 1 then p.payload
        else drainBody (leAt p.payload 0 4 + d.fld F.FAB_ECNT_INJ site ep) (leAt p.payload 4 4 + d.fld F.FAB_ECNT_EJ site ep)
          (leAt p.payload 8 4 + d.fld F.FAB_UNATTR_UNATTR site) (leAt p.payload 12 1) ep false
      let q : Packet := { p with payload := body, dstSite := BitVec.ofNat 8 (rest.headD root), vc := d.flag F.FAB_CTRL_VC1_EN site }
      if rest.isEmpty && site == root then d.arrive site 15 q else d.send1 site 4 q
  | [] => if site = root then d.arrive site 15 p else d

/-! Forwarding. -/

/-- What becomes of a good packet at the head of an input: it is discarded as NOROUTE or STALE, at a shut Hallway or behind a dead
port; it waits; it is a DRAIN that the router serves; it leaves for the field spine bus, for the sink behind an output, or
over a link to an input of the next router, as the packet that arrives there. -/
inductive Fate where
  | noRoute (port : Nat)
  | stale
  | shut (o : Nat)
  | wait
  | drain
  | bus
  | sink (o : Nat)
  | hop (o t b : Nat) (q : Packet)
deriving DecidableEq, Repr

/-- The fate of a good head packet (R235, R239, R244 to R247, R256, R260). -/
def Dev.fate (d : Dev) (site port : Nat) (p : Packet) : Fate :=
  if (d.rtr site).deadPorts.contains port then .noRoute port
  else if p.ty.toNat ≥ 8 || dstResv p.dstCore.toNat then .noRoute port
  else if !d.copyValid site p.epoch then .stale
  else if p.dstSite.toNat = site then
    let o := sitePort p.dstCore.toNat
    if p.ty.toNat = 6 then .drain
    else if o = 7 then .bus
    else if !hasPort site o || (d.rtr site).deadPorts.contains o then .noRoute port
    else if (d.rtr site).paused.contains o then .wait
    else if o = 4 && d.asleep site && !d.redirects p then .wait
    else .sink o
  else
    match d.routePort site port p with
    | none => .noRoute port
    | some o =>
      if (d.rtr site).deadPorts.contains o then .noRoute o
      else if d.hopShut site o then .shut o
      else
        match neighbour site o with
        | none => .noRoute port
        | some t =>
          let q := { p with vc := p.vc && d.flag F.FAB_CTRL_VC1_EN t }
          if (d.rtr site).paused.contains o || !d.takes t (backPort o) q then .wait else .hop o t (backPort o) q

/-- The output that a fate asks for. -/
def Fate.out : Fate → Option Nat
  | .sink o => some o
  | .hop o _ _ _ => some o
  | _ => none

/-- The inputs whose head packet of a VC can now leave by an output. -/
def Dev.rivals (d : Dev) (site o : Nat) (vc : Bool) : List Nat :=
  (List.range 7).filter fun i =>
    match d.net.find? fun x => x.site == site && x.port == i && x.pkt.vc == vc with
    | some x => (d.fate site i x.pkt).out == some o
    | none => false

/-- Whether output o of a router takes the head packet of an input next (R234): VC1 before VC0, but VC0 after 64 consecutive VC1
flits, and the inputs of a VC in turn after the one served last. -/
def Dev.myTurn (d : Dev) (site port : Nat) (vc : Bool) (o : Nat) : Bool :=
  let arb := (d.rtr site).arb
  let long := sget arb 0 (16 + o) ≥ 64
  let other := !(d.rivals site o (!vc)).isEmpty
  let last := sget arb 0 (8 * b2n vc + o)
  let rs := port :: d.rivals site o vc
  (if vc then !(long && other) else !other || long) &&
    ((List.range 7).map fun k => (last + k) % 7).find? rs.contains == some port

/-- Output o has taken a packet of an input. -/
def Dev.served (d : Dev) (site port : Nat) (p : Packet) (o : Nat) : Dev :=
  let d := d.modRtr site fun r =>
    let a := sset r.arb 0 (8 * b2n p.vc + o) (port + 1)
    { r with arb := sset a 0 (16 + o) (if p.vc then sget a 0 (16 + o) + pktFlits p else 0) }
  (d.addWrap F.FAB_PORT_FLITS_ROUTED site (pktFlits p) o).countEv site evFlit (pktFlits p)

/-- What a good packet at the head of an input does (R234, R235, R244 to R247, R256). -/
def Dev.routeHead (d : Dev) (site port : Nat) (p : Packet) : Dev :=
  let out := d.depart site port p
  match d.fate site port p with
  | .noRoute x => out.noRoute site x p
  | .stale => ((out.ejected site p).addSat F.FAB_STATUS_STALE site 1).raise (evU bFAB site) 4 1 port
  | .shut o => (out.hopDiscard site o (pktFlits p)).ejected site p
  | .wait => d
  | .drain => out.drainVisit site p
  | .bus => out.arrive site 15 p
  | .sink o =>
    if !d.myTurn site port p.vc o then d
    else
      let sent := out.served site port p o
      if o = 4 && d.redirects p then sent.redirect p
      else if o = 4 && d.siteOut site then sent.unmappedAnswer p
      else sent.arrive site 15 p
  | .hop o t b q => if d.myTurn site port p.vc o then (out.served site port p o).arrive t b q else d

/-- Both ends of a link pause routed flits (R260). -/
def Dev.pauseLink (d : Dev) (site port : Nat) (on : Bool) : Dev :=
  let f (i : Nat) (r : RtrS) : RtrS :=
    { r with paused := (if on then [i] else []) ++ r.paused.filter fun x => x != i }
  let d := d.modRtr site (f port)
  match neighbour site port with
  | some t => d.modRtr t (f (backPort port))
  | none => d

/-- Count what a receiver found in flits of an input: CTRL_CE, CRC with LINK_ERR at 1,024, and for each flit dropped CTRL_UE and
UNATTR with LINK_CTRL_UE and a pause of the link (R237, R257, R260, R264). -/
def Dev.countFinds (d : Dev) (site port : Nat) (fs : List FlitFind) : Dev :=
  let ce := (fs.filter fun f => f.ce).length
  let ue := (fs.filter fun f => f.ue).length
  let crc := (fs.filter fun f => f.crc && !f.ue).length
  let d := d.addSat F.FAB_PORT_ERR_CTRL_CE site ce port
  let n := d.fld F.FAB_PORT_ERR_CRC site port
  let d := d.addSat F.FAB_PORT_ERR_CRC site crc port
  let d := if n < 1024 && d.fld F.FAB_PORT_ERR_CRC site port ≥ 1024 then d.raise (evU bFAB site) 1 0 port else d
  if ue = 0 then d
  else
    let d := (d.addSat F.FAB_PORT_ERR_CTRL_UE site ue port).addWrap F.FAB_UNATTR_UNATTR site ue
    (d.pauseLink site port true).raise (evU bFAB site) 2 1 port

/-- The fabric domains that must be in D0 for a packet to leave an input of a router: that of the router and that of the next one on
its way (R474, R482, R489). -/
def Dev.hopWaits (d : Dev) (site port : Nat) (p : Packet) : List Nat :=
  let next := if p.dstSite.toNat = site then []
    else ((d.routePort site port p).bind (neighbour site)).toList.map fun t => domFab (fieldOf t)
  (domFab (fieldOf site) :: next).eraseDups.filter d.rests

/-- PACKET_FORWARD: a router takes the head packet of an input as its receiver found it (R235, R237, R260). `fate.cut` says that the
head flit had been forwarded when a later flit's CRC failed: the packet then goes on with KILL. A packet that has lost a flit to a
sideband error is gone whole (assumption 104). In a fabric that rests it wakes the domain and waits. A packet that is not the head of its input and VC stays (R247), and an absent port
has no packet. -/
def execPacketForward (site : Site) (port : Fin 7) (p : Packet) (fate : LinkFate) (s : State) :
    Host.Outcome State Fault Refusal :=
  s.upd fun d =>
    let r := site.val
    let i := port.val
    if !hasPort r i || !d.isHead r i p then d
    else if !(d.hopWaits r i p).isEmpty then d.demands (d.hopWaits r i p)
    else
      let fs := judgePkt p fate.flips
      let d' := d.countFinds r i fs
      if fs.any fun f => f.ue then d'.depart r i p
      else if fs.any fun f => f.crc then
        if fate.cut && !(fs.headD FlitFind.good).crc then
          let q := { p with kill := true }
          Dev.routeHead { d' with net := d'.net.map fun x => if x == Flight.mk r i p then Flight.mk r i q else x } r i q
        else (d'.depart r i p).ejected r p
      else d'.routeHead r i p

/-- LINK_PAUSE_END: routed flits resume on the link, and what waited to be injected there goes in (R260). -/
def execLinkPauseEnd (site : Site) (port : Fin 7) (s : State) : Host.Outcome State Fault Refusal :=
  s.upd fun d =>
    let d := d.pauseLink site.val port.val false
    (d.unstage site.val port.val true d.stage.length).unstage site.val port.val false d.stage.length

/-- TAG_FREE: requests that wait for a tag are injected in order while tags are free. With none free, a tag becomes free
because twice FAB_TMO has passed since its request timed out (R262). -/
def execTagFree (site : Site) (port : Fin 7) (s : State) : Host.Outcome State Fault Refusal :=
  s.upd fun d =>
    let d : Dev := if (d.freeTag site.val port.val).isSome then d
      else { d with deadTags := d.deadTags.eraseP fun r => r.site == site.val && r.port == port.val }
    d.release site.val port.val d.injw.length

/-- VC_STALL: a head flit has not moved for STALL_LIMIT, where the limit is not 0 (Tables 6-8, 6-10). -/
def execVcStall (site : Site) (port : Fin 7) (s : State) : Host.Outcome State Fault Refusal :=
  s.upd fun d =>
    if d.fld F.FAB_CTRL_STALL_LIMIT site.val = 0 then d else d.raise (evU bFAB site.val) 6 1 port.val

/-- A write of FAB_CTRL, judged on the values that the register would hold (R256, R257). -/
def Dev.wrFabCtrl (d : Dev) (site v : Nat) : Dev :=
  let new := bitsOf v 16 16 * 65536 + bitsOf v 7 1 * 128 + bitsOf v 0 3
  let ok := if bitOf new 0 then bitOf new 2 else bitOf new 1
  let old := (d.getR R.FAB_CTRL site).toNat
  if !ok then d.setF F.FAB_STATUS_WR_REJ site 1
  else
    let a := bitOf new 1 && !bitOf old 1
    let b := bitOf new 2 && !bitOf old 2
    let d := d.setR R.FAB_CTRL site (BitVec.ofNat 64 new)
    let d := if a then d.setR R.FAB_ECNT site 0 0 else d
    let d := if b then d.setR R.FAB_ECNT site 0 1 else d
    if a || b then d.setR R.FAB_UNATTR site 0 else d

/-- FAB_CTRL: a write of FAB_CTRL. -/
def execFabCtrl (site : Site) (v : Word) (s : State) : Host.Outcome State Fault Refusal :=
  s.upd fun d => if d.fieldLost (fieldOf site.val) then d else d.wrFabCtrl site.val v.toNat

/-- The key in a router's circuit map under which the NT of an entry's last flit stands. -/
def circAt (i : Nat) : Nat := 64 + i

/-- IDLE of a circuit entry: fabric cycles in units of 16, which are 10 ns (Table 6-7). -/
def Dev.circIdle (d : Dev) (site i : Nat) : Nat := min 255 ((d.now - sget (d.rtr site).circ 0 (circAt i)) / 10)

/-- A circuit entry overlaps another valid entry of its slot (R250). -/
def Dev.circConflict (d : Dev) (site i e : Nat) : Bool :=
  bitOf e 31 && (List.range 7).any fun p =>
    let j := 8 * p + i % 8
    let x := sget (d.rtr site).circ 0 j
    j ≠ i && bitOf x 31 && (bitsOf x 23 7 &&& bitsOf e 23 7) ≠ 0

/-- Store an entry of a router table without a check, as the boot sequencer and Newt do. -/
def Dev.putTbl (d : Dev) (site table ix e : Nat) : Dev :=
  if table = 0 then d.modRtr site fun r => { r with rtA := sset r.rtA 0 ix (e &&& 0xF700) }
  else if table = 1 then d.modRtr site fun r => { r with rtB := sset r.rtB 0 ix (e &&& 0xF700) }
  else if table = 2 then
    (if ix < 56 then d.modRtr site fun r =>
      { r with circ := sset r.circ 0 ix (e &&& 0xFF8FFF00) } else d)
  else if table = 3 then d.modRtr site fun r => { r with lmA := sset r.lmA 0 ix (e &&& 0x1FF) }
  else if table = 4 then d.modRtr site fun r => { r with lmB := sset r.lmB 0 ix (e &&& 0x1FF) }
  else d

/-- A write of FAB_TBL_DATA (R250, R256). -/
def Dev.wrFabTbl (d : Dev) (site v : Nat) : Dev :=
  let t := d.fld F.FAB_TBL_SEL_TABLE site
  let ix := d.fld F.FAB_TBL_SEL_INDEX site
  if t > 4 || (t = 2 && ix ≥ 56) then d
  else if t = 2 then
    (if d.circConflict site ix v then d.setF F.FAB_STATUS_CONFLICT site 1 else d.putTbl site t ix v)
  else if d.copyValid site (t = 1 || t = 4) then d.setF F.FAB_STATUS_WR_REJ site 1
  else d.putTbl site t ix v

/-- A read of FAB_TBL_DATA. -/
def Dev.rdFabTbl (d : Dev) (site : Nat) : Nat :=
  let t := d.fld F.FAB_TBL_SEL_TABLE site
  let ix := d.fld F.FAB_TBL_SEL_INDEX site
  let r := d.rtr site
  if t = 0 then sget r.rtA 0 ix
  else if t = 1 then sget r.rtB 0 ix
  else if t = 2 then (if ix < 56 then (let e := sget r.circ 0 ix; if bitOf e 31 then e + d.circIdle site ix else e) else 0)
  else if t = 3 then sget r.lmA 0 ix
  else if t = 4 then sget r.lmB 0 ix
  else 0

/-- FAB_TBL_DATA: a write of FAB_TBL_DATA. -/
def execFabTblData (site : Site) (v : BitVec 32) (s : State) : Host.Outcome State Fault Refusal :=
  s.upd fun d => if d.fieldLost (fieldOf site.val) then d else d.wrFabTbl site.val v.toNat

/-- TEARDOWN_DONE: an entry whose teardown is pending is cleared once IDLE has reached 16 (R253). -/
def execTeardownDone (site : Site) (idx : Fin 56) (s : State) : Host.Outcome State Fault Refusal :=
  s.upd fun d =>
    let e := sget (d.rtr site.val).circ 0 idx.val
    if bitOf e 31 && bitOf e 30 && d.circIdle site.val idx.val ≥ 16 then d.modRtr site.val fun r => { r with circ := sset r.circ 0 idx.val 0 } else d

/-! Drains (R258, R259). -/

/-- A drain ends with a status: DONE is set, and FAB raises DRAIN_DONE or DRAIN_FAIL. The drain of a live cluster swap
that ends CLEAN or LOSSY completes the swap: NWT raises SWAP_DONE (Table 18-3). -/
def Dev.drainEnd (d : Dev) (root st : Nat) : Dev :=
  let d := d.modRtr root fun r => { r with drain := { r.drain with phase := 0 } }
  let d := (d.setF F.FAB_DRAIN_STATUS_STATUS root st).setF F.FAB_DRAIN_STATUS_DONE root 1
  let d := if st ≤ 3 then d.raise (evU bFAB root) 8 0 0 else d.raise (evU bFAB root) 9 1 0
  match d.nwt.drain with
  | some (_, r, _) =>
    if r ≠ root then d
    else
      let d : Dev := { d with nwt := { d.nwt with drain := none } }
      if st ≤ 3 then d.raise (evU bNWT 0) 1 0 0 else d
  | none => d

/-- Start a drain at a root, unless one runs (R258). -/
def Dev.drainStart (d : Dev) (root : Nat) : Dev :=
  if (d.rtr root).drain.phase ≠ 0 then d
  else
    let d := d.modRtr root fun r => { r with drain := ⟨1, 0, 0, 0, 1, []⟩ }
    ((d.setF F.FAB_DRAIN_STATUS_STATUS root 1).setF F.FAB_DRAIN_STATUS_WAVES root 0).drainSend root false

/-- DRAIN_START: a write of START. -/
def execDrainStart (site : Site) (s : State) : Host.Outcome State Fault Refusal :=
  s.upd fun d => if d.fieldLost (fieldOf site.val) then d else d.drainStart site.val

/-- The DRAIN packet that is back at its root. -/
def Dev.drainBack (d : Dev) (root : Nat) : Option Packet :=
  (d.net.find? fun x => x.site == root && x.port == 15 && x.pkt.ty == 6 && x.pkt.srcSite.toNat == root).map fun x => x.pkt

/-- Judge the sums of wave w at its root by the pseudocode of R258. -/
def Dev.drainJudge (d : Dev) (r inj ej ua : Nat) : Dev :=
  let x := (d.rtr r).drain
  let gap := (inj + 2 ^ 32 - ej) % 2 ^ 32
  let same := decide (x.wave ≥ 2) && inj == x.inj && ej == x.ej
  let d := ((d.setF F.FAB_DRAIN_SUM_INJ r inj).setF F.FAB_DRAIN_SUM_EJ r ej).setF F.FAB_DRAIN_STATUS_WAVES r x.wave
  let next (ph w : Nat) (d : Dev) : Dev := d.modRtr r fun y => { y with drain := ⟨w, inj, ej, ua, ph, []⟩ }
  if same && gap ≤ ua then
    let st := if gap = 0 then 2 else 3
    if d.flag F.FAB_DRAIN_CTRL_AUTO_RETIRE r then ((next 3 x.wave d).setF F.FAB_DRAIN_STATUS_STATUS r st).drainSend r true
    else (next 0 x.wave d).drainEnd r st
  else if x.wave ≥ max 2 (d.fld F.FAB_DRAIN_CTRL_MAX_WAVES r) then (next 0 x.wave d).drainEnd r 4
  else next 2 (x.wave + 1) d

/-- DRAIN_WAVE_RETURN: the DRAIN packet is back at its root, and the sums of its payload are judged (R258). One of an earlier drain
is dropped. -/
def execDrainWaveReturn (root : Site) (s : State) : Host.Outcome State Fault Refusal :=
  s.upd fun d =>
    let r := root.val
    match d.drainBack r with
    | none => d
    | some p =>
      let d := d.depart r 15 p
      if (d.rtr r).drain.phase = 1 && leAt p.payload 13 1 < 2 then
        d.drainJudge r (leAt p.payload 0 4) (leAt p.payload 4 4) (leAt p.payload 8 4)
      else d

/-- DRAIN_GAP_EXPIRY: the root starts the next wave (R258). -/
def execDrainGapExpiry (root : Site) (s : State) : Host.Outcome State Fault Refusal :=
  s.upd fun d => if (d.rtr root.val).drain.phase = 2 then d.drainSend root.val false else d

/-- RETIRE_WAVE_RETURN: the retire wave, which has cleared the VALID bit of EPOCH in every masked router, is back; DONE is set
(R259). -/
def execRetireWaveReturn (root : Site) (s : State) : Host.Outcome State Fault Refusal :=
  s.upd fun d =>
    let r := root.val
    match d.drainBack r with
    | none => d
    | some p =>
      let d := d.depart r 15 p
      if (d.rtr r).drain.phase = 3 && leAt p.payload 13 1 ≥ 2 then d.drainEnd r (d.fld F.FAB_DRAIN_STATUS_STATUS r) else d

/-- DRAIN_WAVE_TIMEOUT: a wave did not return within FAB_TMO: FAIL_LOST (R259). -/
def execDrainWaveTimeout (root : Site) (s : State) : Host.Outcome State Fault Refusal :=
  s.upd fun d =>
    let ph := (d.rtr root.val).drain.phase
    if ph = 1 || ph = 3 then d.drainEnd root.val 5 else d

/-- A write of CLU_MESH_CTRL takes effect only while every core of the cluster is HALTED (Table 6-25); a bad core site has no
core, and a RETIRED core is not HALTED. -/
def Dev.wrMesh (d : Dev) (site : Nat) (order : Bool) : Dev :=
  if (List.range 36).all fun c => d.coreAbsent (cu site c) || d.coreState (cu site c) == 0 then d.setB F.CLU_MESH_CTRL_ORDER site order else d

/-- CLU_MESH_CTRL: a write of ORDER. -/
def execCluMeshCtrl (site : Site) (order : Bool) (s : State) : Host.Outcome State Fault Refusal :=
  s.upd fun d => if d.siteOut site.val then d else d.wrMesh site.val order

end Sys2Proof.Machine
end

