-- ==== Sys2Proof/Machine/Special.lean ====
section
/-! DEFINITION. The special functions of the vector engine (spec/02 R60) to far more bits than their results have, and the results
that their error bound allows. A positive value is a pair (m, e) of m · 2^e. -/

namespace Sys2Proof.Machine

/-- The fixed-point unit of the approximations, 2^128. -/
def fixOne : Nat := 2 ^ 128

/-- ln 2 over 2^128. -/
def fixLn2 : Nat := 235865763225513294137944142764154484399

/-- log2 e over 2^128. -/
def fixLog2e : Nat := 490923683258796565746369346286093237521

/-- m · 2^e over 2^128, toward zero. -/
def toFix (m : Nat) (e : Int) : Nat :=
  if e + 128 ≥ 0 then m * 2 ^ (e + 128).toNat else m / 2 ^ (-(e + 128)).toNat

/-- The bits that a number needs. -/
def specLen (m : Nat) : Nat := if m = 0 then 0 else Nat.log2 m + 1

/-- exp y for y in [0, 1) over 2^128: n terms of the series from term k on, where t is term k. -/
def expSeries (y : Nat) : Nat → Nat → Nat → Nat
  | 0, _, _ => 0
  | n + 1, k, t => t + expSeries y n (k + 1) (t * y / fixOne / (k + 1))

/-- 2^x for x over 2^128. -/
def exp2Fix (x : Int) : Nat × Int :=
  let n := x / (fixOne : Int)
  let f := (x % (fixOne : Int)).toNat
  (expSeries (f * fixLn2 / fixOne) 44 0 fixOne, n - 128)

/-- Fraction bits of log2 z, z in [1, 2) over 2^128, as n bits of a number. -/
def log2Bits : Nat → Nat → Nat → Nat
  | 0, _, acc => acc
  | n + 1, z, acc =>
    let q := z * z / fixOne
    if q ≥ 2 * fixOne then log2Bits n (q / 2) (2 * acc + 1) else log2Bits n q (2 * acc)

/-- log2 (m · 2^e) as (negative, magnitude over 2^110). -/
def log2Fix (m : Nat) (e : Int) : Bool × Nat :=
  let b := specLen m - 1
  let z := if b ≤ 128 then m * 2 ^ (128 - b) else m / 2 ^ (b - 128)
  let v : Int := (e + (b : Int)) * (2 ^ 110 : Nat) + (log2Bits 110 z 0 : Nat)
  (decide (v < 0), v.natAbs)

/-- Bits of an integer square root, from bit n − 1 down. -/
def rootAux : Nat → Nat → Nat → Nat
  | 0, _, acc => acc
  | n + 1, m, acc => if (acc + 2 ^ n) * (acc + 2 ^ n) ≤ m then rootAux n m (acc + 2 ^ n) else rootAux n m acc

/-- exp (−a) for a magnitude a over 2^128. -/
def expNeg (a : Nat) : Nat × Int := exp2Fix (-((a * fixLog2e / fixOne : Nat) : Int))

/-- The value of a special function at a finite non-zero operand in its domain, as (negative, m, e), where m has far more bits than
a result. `fn` is the code of Table 3-13; s, m and e are the operand. Magnitudes of 2^12 and more are past every limit of exp2,
tanh and sigmoid. -/
def specialValue (fn : Nat) (s : Bool) (m : Nat) (e : Int) : Bool × Nat × Int :=
  let len := specLen m
  let huge := decide (e + (len : Int) > 12)
  let x := toFix m e
  match fn with
  | 0x0A => (s, 2 ^ (len + 100) / m, -e - ((len + 100 : Nat) : Int))
  | 0x0B =>
    let odd := decide (e % 2 = 1)
    let m' := if odd then 2 * m else m
    let e' := if odd then e - 1 else e
    let k := 110 + len
    (false, rootAux 130 (2 ^ (2 * k) / m') 0, -(e' / 2) - (k : Int))
  | 0x0C =>
    if huge then (false, 1, if s then -5000 else 5000)
    else
      let r := exp2Fix (if s then -(x : Int) else (x : Int))
      (false, r.1, r.2)
  | 0x0D =>
    let r := log2Fix m e
    (r.1, r.2, -110)
  | 0x0E =>
    if huge then (s, 1, 0)
    else if e + (len : Int) < -20 then
      -- x (1 − x²/3 + 2x⁴/15)
      let x2 := toFix (m * m) (2 * e)
      let x4 := x2 * x2 / fixOne
      (s, m * (fixOne - x2 / 3 + 2 * x4 / 15), e - 128)
    else
      let r := expNeg (2 * x)
      let q := toFix r.1 r.2
      (s, (fixOne - q) * fixOne / (fixOne + q), -128)
  | _ =>
    if huge then (false, 1, if s then -5000 else 0)
    else
      let r := expNeg x
      let q := toFix r.1 r.2
      if s then (false, r.1 * fixOne / (fixOne + q), r.2)
      else (false, fixOne * fixOne / (fixOne + q), -128)

/-- Whether the exact value of a special function at m · 2^e is a finite binary number: of the reciprocal, the reciprocal square root,
exp2 and log2 at these operands only, and the sigmoid at 0; every other value is irrational or needs infinitely many bits. -/
def specialFinite (fn : Nat) (m : Nat) (e : Int) : Bool :=
  let pow := m == 2 ^ (specLen m - 1)
  match fn with
  | 0x0A | 0x0D => pow
  | 0x0B => pow && (e + (specLen m : Int) - 1) % 2 == 0
  | 0x0C => decide (e ≥ 0) || m % 2 ^ (-e).toNat == 0
  | 0x0E => false
  | _ => m == 0

/-- The multiples n of 2^ue that lie within `ulps` units of m · 2^e, and none outside them: m · 2^e is a multiple a of 2^(−40) of a
unit and a rest, so that one below it may be `ulps` units from a only if there is no rest. -/
def withinUlps (ulps m : Nat) (e ue : Int) : List Nat :=
  let k := e - ue + 40
  let a := if k ≥ 0 then m * 2 ^ k.toNat else m / 2 ^ (-k).toNat
  let rest := decide (k < 0) && m % 2 ^ (-k).toNat != 0
  let n := a / 2 ^ 40
  ((List.range (2 * ulps + 3)).map fun i => n + i - (ulps + 1)).eraseDups.filter fun c =>
    if c * 2 ^ 40 ≥ a then decide (c * 2 ^ 40 - a ≤ ulps * 2 ^ 40) else decide (a - c * 2 ^ 40 + b2n rest ≤ ulps * 2 ^ 40)

/-- The exponent of the unit in the last place of m · 2^e in a format of precision p whose least normal exponent is emin. -/
def ulpExp (p : Nat) (emin : Int) (m : Nat) (e : Int) : Int :=
  (if m = 0 then emin else max (e + (specLen m : Int) - 1) emin) - ((p : Int) - 1)

/-- A result that the error bound of R60 allows: the free value `pick` chooses among them (assumption 5). -/
def boundedPick (ulps p : Nat) (emin : Int) (m : Nat) (e : Int) (pick : Nat) : Nat × Int :=
  let ue := ulpExp p emin m e
  let cs := withinUlps ulps m e ue
  (cs.getD (pick % max 1 cs.length) 0, ue)

/-! Sums and quotients of positive values, for the weights of R190 and the probabilities of R215. -/

/-- exp (−a) for a magnitude a over 2^128; zero where it lies below every binary32 value. -/
def expDown (a : Nat) : Nat × Int := if a > 200 * fixOne then (0, 0) else expNeg a

/-- The sum of positive values, to 128 bits below the largest. -/
def fixSum (xs : List (Nat × Int)) : Nat × Int :=
  let ys := xs.filter fun x => x.1 ≠ 0
  match ys with
  | [] => (0, 0)
  | y :: _ =>
    let top := ys.foldl (fun t x => max t (x.2 + (specLen x.1 : Int))) (y.2 + (specLen y.1 : Int))
    ((ys.map fun x => toFix x.1 (x.2 - top)).sum, top - 128)

/-- The quotient of positive values. -/
def fixDiv (a b : Nat × Int) : Nat × Int :=
  let k := specLen b.1 + 130 - min (specLen a.1) 130
  (a.1 * 2 ^ k / max 1 b.1, a.2 - b.2 - (k : Int))

end Sys2Proof.Machine
end

