-- ==== Sys2Proof/Machine/Flags.lean ====
section
/-! DEFINITION. Number formats, rounding and the flags of COR_FP_FLAGS (spec/04_number_formats.md, R59 to R62). A flag
set is a mask with the bit positions of Table 2-17. -/

namespace Sys2Proof.Machine

/-- Bits of COR_FP_FLAGS, Table 2-17. -/
def fpInexact : Nat := 1
/-- UNDERFLOW, Table 2-17. -/
def fpUnderflow : Nat := 2
/-- OVERFLOW, Table 2-17. -/
def fpOverflow : Nat := 4
/-- DIVZERO, Table 2-17. -/
def fpDivZero : Nat := 8
/-- INVALID, Table 2-17. -/
def fpInvalid : Nat := 16
/-- SHORT_SAT, Table 2-17. -/
def fpShortSat : Nat := 256

/-- The rounding-direction attributes of Table 2-16. -/
inductive RMode where
  | rne
  | rtz
  | rup
  | rdn
deriving DecidableEq, Repr

/-- RMODE of COR_FP_CTRL (Table 2-16). -/
def RMode.ofCode (n : Nat) : RMode :=
  match n % 4 with
  | 0 => .rne
  | 1 => .rtz
  | 2 => .rup
  | _ => .rdn

/-- The element formats of Table 3-5. -/
inductive Fmt where
  | m8
  | m6
  | m4
  | i8
  | i4
  | e8m7
  | b16
  | b32
  | i32
  | raw8
deriving DecidableEq, Repr

/-- The format of a code of Table 3-5; none for an invalid code (R106). -/
def Fmt.ofCode (n : Nat) : Option Fmt :=
  match n with
  | 1 => some .m8
  | 2 => some .m6
  | 3 => some .m4
  | 4 => some .i8
  | 5 => some .i4
  | 6 => some .e8m7
  | 7 => some .b16
  | 8 => some .b32
  | 9 => some .i32
  | 10 => some .raw8
  | _ => none

/-- The code of a format (Table 3-5). -/
def Fmt.code : Fmt → Nat
  | .m8 => 1
  | .m6 => 2
  | .m4 => 3
  | .i8 => 4
  | .i4 => 5
  | .e8m7 => 6
  | .b16 => 7
  | .b32 => 8
  | .i32 => 9
  | .raw8 => 10

/-- Element size in memory, in bits (Table 3-5). -/
def Fmt.bits : Fmt → Nat
  | .m8 | .m6 | .i8 | .raw8 => 8
  | .m4 | .i4 => 4
  | .e8m7 | .b16 => 16
  | .b32 | .i32 => 32

/-- The long formats: binary32, binary16 and E8M7 (R144). -/
def Fmt.isLong : Fmt → Bool
  | .e8m7 | .b16 | .b32 => true
  | _ => false

/-- The integer formats that enter a pass (R45). -/
def Fmt.isInt : Fmt → Bool
  | .i8 | .i4 | .i32 => true
  | _ => false

/-- The short floating formats (R144). -/
def Fmt.isShortFloat : Fmt → Bool
  | .m8 | .m6 | .m4 => true
  | _ => false

/-- Width of the mantissa field (Table 4-1). -/
def Fmt.man : Fmt → Nat
  | .m8 => 3
  | .m6 => 2
  | .m4 => 1
  | .e8m7 => 7
  | .b16 => 10
  | .b32 => 23
  | _ => 0

/-- Width of the exponent field (Table 4-1). -/
def Fmt.expW : Fmt → Nat
  | .m8 => 4
  | .m6 => 3
  | .m4 => 2
  | .e8m7 => 8
  | .b16 => 5
  | .b32 => 8
  | _ => 0

/-- Exponent bias (Table 4-1). -/
def Fmt.bias : Fmt → Nat
  | .m8 => 7
  | .m6 => 3
  | .m4 => 1
  | .e8m7 => 127
  | .b16 => 15
  | .b32 => 127
  | _ => 0

/-- An exact value: a NaN with its sign and its fraction in binary32's width (R149), an infinity, or
(−1)^neg · m · 2^e. -/
inductive Num where
  | nan (neg : Bool) (frac : Nat)
  | inf (neg : Bool)
  | fin (neg : Bool) (m : Nat) (e : Int)
deriving DecidableEq, Repr

/-- The default NaN (R149). -/
def Num.dnan : Num := .nan false 0x400000

/-- Whether a value is a NaN. -/
def Num.isNan : Num → Bool
  | .nan _ _ => true
  | _ => false

/-- Whether a value is finite. -/
def Num.isFin : Num → Bool
  | .fin _ _ _ => true
  | _ => false

/-- A NaN is signalling when the top bit of its fraction is 0 (R626). -/
def Num.isSnan : Num → Bool
  | .nan _ f => f / 0x400000 % 2 == 0
  | _ => false

/-- The sign of a value. -/
def Num.neg : Num → Bool
  | .nan n _ => n
  | .inf n => n
  | .fin n _ _ => n

/-- The value with another sign. -/
def Num.setNeg (n : Bool) : Num → Num
  | .nan _ f => .nan n f
  | .inf _ => .inf n
  | .fin _ m e => .fin n m e

/-- Number of bits of a natural number. -/
def bitLen (n : Nat) : Nat := if n = 0 then 0 else Nat.log2 n + 1

/-- An integer as a value. -/
def Num.ofInt (i : Int) : Num := .fin (decide (i < 0)) i.natAbs 0

/-- Two's complement of width w. -/
def toSigned (w n : Nat) : Int := if n < 2 ^ (w - 1) then (n : Int) else (n : Int) - (2 ^ w : Nat)

/-- The low w bits of an integer. -/
def ofSigned (w : Nat) (i : Int) : Nat := (i % ((2 ^ w : Nat) : Int)).toNat

/-- The value of the bits of an element (R144 to R149, R150 for E8M7's missing subnormals; RAW8 is unsigned, R170). -/
def numOf (f : Fmt) (b : Nat) : Num :=
  match f with
  | .i8 => .ofInt (toSigned 8 (b % 256))
  | .i4 => .ofInt (toSigned 4 (b % 16))
  | .i32 => .ofInt (toSigned 32 (b % 2 ^ 32))
  | .raw8 => .fin false (b % 256) 0
  | .m8 | .m6 | .m4 =>
    let w := f.man
    let m := b % 2 ^ w
    let e := b / 2 ^ w % 2 ^ f.expW
    let s := b / 2 ^ (w + f.expW) % 2 == 1
    if f == .m8 && b % 256 == 0x80 then .dnan
    else if e = 0 then (if m = 0 then .fin false 0 0 else .fin s m (1 - (f.bias : Int) - (w : Int)))
    else .fin s (2 ^ w + m) ((e : Int) - (f.bias : Int) - (w : Int))
  | .e8m7 | .b16 | .b32 =>
    let w := f.man
    let m := b % 2 ^ w
    let e := b / 2 ^ w % 2 ^ f.expW
    let s := b / 2 ^ (w + f.expW) % 2 == 1
    if e = 2 ^ f.expW - 1 then (if m = 0 then .inf s else .nan s (m * 2 ^ (23 - w)))
    else if e = 0 then
      (if m = 0 || f == .e8m7 then .fin s 0 0 else .fin s m (1 - (f.bias : Int) - (w : Int)))
    else .fin s (2 ^ w + m) ((e : Int) - (f.bias : Int) - (w : Int))

/-- m · 2^(−sh) rounded to an integer, and whether the rounding was inexact. -/
def roundShift (md : RMode) (neg : Bool) (m sh : Nat) : Nat × Bool :=
  let q := m / 2 ^ sh
  let r := m % 2 ^ sh
  if r = 0 then (q, false)
  else
    let up := match md with
      | .rne => 2 * r > 2 ^ sh || (2 * r == 2 ^ sh && q % 2 == 1)
      | .rtz => false
      | .rup => !neg
      | .rdn => neg
    (if up then q + 1 else q, true)

/-- m · 2^e in units of 2^qe, rounded, and whether that was inexact. -/
def roundAt (md : RMode) (neg : Bool) (m : Nat) (e qe : Int) : Nat × Bool :=
  if qe ≤ e then (m * 2 ^ (e - qe).toNat, false) else roundShift md neg m (qe - e).toNat

/-- The bits of a sign, an exponent field and a fraction. -/
def packBits (f : Fmt) (neg : Bool) (e frac : Nat) : Nat :=
  (if neg then 2 ^ (f.man + f.expW) else 0) + e * 2 ^ f.man + frac

/-- The infinity of a long format. -/
def infBits (f : Fmt) (neg : Bool) : Nat := packBits f neg (2 ^ f.expW - 1) 0

/-- The largest finite value of a long format. -/
def maxBits (f : Fmt) (neg : Bool) : Nat := packBits f neg (2 ^ f.expW - 2) (2 ^ f.man - 1)

/-- A NaN in a long format, quieted, its payload's low bits dropped (R149). -/
def nanBits (f : Fmt) (neg : Bool) (frac : Nat) : Nat :=
  let fr := frac / 2 ^ (23 - f.man) % 2 ^ f.man
  packBits f neg (2 ^ f.expW - 1) (if fr / 2 ^ (f.man - 1) % 2 == 1 then fr else fr + 2 ^ (f.man - 1))

/-- An overflowed long result (R62, R151, Table 4-6). -/
def overflowBits (f : Fmt) (md : RMode) (sat neg : Bool) : Nat × Nat :=
  let toMax := sat || (match md with
    | .rne => false
    | .rtz => true
    | .rup => neg
    | .rdn => !neg)
  (if toMax then maxBits f neg else infBits f neg, fpOverflow + fpInexact)

/-- A finite exact value rounded to a long format, with the flags raised (R59, R62, R150, R630). -/
def roundLong (f : Fmt) (md : RMode) (sat neg : Bool) (m : Nat) (e : Int) : Nat × Nat :=
  if m = 0 then (packBits f neg 0 0, 0)
  else
    let w : Int := f.man
    let top : Int := e + (bitLen m : Int) - 1
    let emin : Int := 1 - (f.bias : Int)
    -- rounded as if to an unbounded exponent range
    let u := roundAt md neg m e (top - w)
    let utop : Int := if bitLen u.1 > f.man + 1 then top + 1 else top
    let tiny := utop < emin
    if f == .e8m7 && tiny then (packBits f neg 0 0, fpUnderflow + fpInexact)
    else
      let qe : Int := if top < emin then emin - w else top - w
      let r := roundAt md neg m e qe
      let rl := bitLen r.1
      let rtop : Int := qe + (rl : Int) - 1
      let fl := (if r.2 then fpInexact else 0) + (if tiny && r.2 then fpUnderflow else 0)
      if r.1 = 0 then (packBits f neg 0 0, fl)
      else if rtop > (f.bias : Int) then overflowBits f md sat neg
      else if rl ≤ f.man then (packBits f neg 0 r.1, fl)
      else
        let n := if rl > f.man + 1 then r.1 / 2 else r.1
        (packBits f neg (rtop - emin + 1).toNat (n - 2 ^ f.man), fl)

/-- A value in a long format (no conversion of infinities, R62). -/
def toLong (f : Fmt) (md : RMode) (sat : Bool) (v : Num) : Nat × Nat :=
  match v with
  | .nan s fr => (nanBits f s fr, 0)
  | .inf s => (infBits f s, 0)
  | .fin s m e => roundLong f md sat s m e

/-- The largest finite value of a short floating format, as m · 2^e (Table 4-1). -/
def shortMax : Fmt → Nat × Int
  | .m8 => (15, 5)
  | .m6 => (7, 2)
  | .m4 => (3, 1)
  | _ => (0, 0)

/-- The code of ±fmax of a short floating format (Table 4-1). -/
def shortMaxBits (f : Fmt) (neg : Bool) : Nat :=
  (if neg then 2 ^ (f.man + f.expW) else 0) + (2 ^ (f.man + f.expW) - 1)

/-- A finite exact value rounded to a short floating format (R146, R147, R167). -/
def roundShort (f : Fmt) (md : RMode) (neg : Bool) (m : Nat) (e : Int) : Nat × Nat :=
  if m = 0 then (0, 0)
  else
    let w : Int := f.man
    let emin : Int := 1 - (f.bias : Int)
    let top : Int := e + (bitLen m : Int) - 1
    let qe : Int := if top < emin then emin - w else top - w
    let r := roundAt md neg m e qe
    let rl := bitLen r.1
    let rtop : Int := qe + (rl : Int) - 1
    let mx := shortMax f
    let big := decide (r.1 * 2 ^ (qe - (-16)).toNat > mx.1 * 2 ^ (mx.2 - (-16)).toNat)
    let ix := if r.2 then fpInexact else 0
    if big then (shortMaxBits f neg, fpShortSat + fpInexact)
    else if r.1 = 0 then (0, fpUnderflow + ix)
    else if rl ≤ f.man then (packBits f neg 0 r.1, fpUnderflow + ix)
    else
      let n := if rl > f.man + 1 then r.1 / 2 else r.1
      (packBits f neg (rtop - emin + 1).toNat (n - 2 ^ f.man), ix)

/-- The range of an integer destination (R148, R167). -/
def intRange : Fmt → Int × Int
  | .i8 => (-128, 127)
  | .i4 => (-8, 7)
  | .i32 => (-2147483648, 2147483647)
  | _ => (0, 255)

/-- The flags of an integer destination's bound (Table 4-6). -/
def intSatFlags (f : Fmt) : Nat := fpInvalid + (if f == .i32 then 0 else fpShortSat)

/-- A finite exact value rounded to an integer destination (R167, Table 4-6). -/
def roundIntFmt (f : Fmt) (md : RMode) (neg : Bool) (m : Nat) (e : Int) : Nat × Nat :=
  let r := roundAt md neg m e 0
  let v : Int := if neg then -(r.1 : Int) else (r.1 : Int)
  let rg := intRange f
  if v < rg.1 then (ofSigned f.bits rg.1, intSatFlags f)
  else if v > rg.2 then (ofSigned f.bits rg.2, intSatFlags f)
  else (ofSigned f.bits v, if r.2 then fpInexact else 0)

/-- The last stage of CVT: round and saturate (R166, R167, Table 4-6). -/
def roundSat (f : Fmt) (md : RMode) (sat : Bool) (v : Num) : Nat × Nat :=
  match f with
  | .e8m7 | .b16 | .b32 =>
    match v with
    | .inf s => if sat then (maxBits f s, fpOverflow) else (infBits f s, 0)
    | v => toLong f md sat v
  | .m8 | .m6 | .m4 =>
    match v with
    | .nan _ _ => (if f == .m8 then 0x80 else 0, fpInvalid)
    | .inf s => (shortMaxBits f s, fpShortSat)
    | .fin s m e => roundShort f md s m e
  | .i8 | .i4 | .i32 | .raw8 =>
    match v with
    | .nan _ _ => (0, fpInvalid)
    | .inf s => (ofSigned f.bits (if s then (intRange f).1 else (intRange f).2), intSatFlags f)
    | .fin s m e => roundIntFmt f md s m e

/-- Exact sum of two finite values as a signed mantissa and an exponent. -/
def finSum (s1 : Bool) (m1 : Nat) (e1 : Int) (s2 : Bool) (m2 : Nat) (e2 : Int) : Int × Int :=
  let e := if e1 ≤ e2 then e1 else e2
  let a : Int := (m1 * 2 ^ (e1 - e).toNat : Nat)
  let b : Int := (m2 * 2 ^ (e2 - e).toNat : Nat)
  ((if s1 then -a else a) + (if s2 then -b else b), e)

/-- Exact addition of values that are not NaN, with the IEEE sign of an exact zero (R59). -/
def Num.add (md : RMode) : Num → Num → Num × Nat
  | .inf s1, .inf s2 => if s1 = s2 then (.inf s1, 0) else (.dnan, fpInvalid)
  | .inf s1, _ => (.inf s1, 0)
  | _, .inf s2 => (.inf s2, 0)
  | .fin s1 m1 e1, .fin s2 m2 e2 =>
    let r := finSum s1 m1 e1 s2 m2 e2
    if r.1 = 0 then
      (.fin (if m1 = 0 && m2 = 0 && s1 == s2 then s1 else md == .rdn) 0 0, 0)
    else (.fin (decide (r.1 < 0)) r.1.natAbs r.2, 0)
  | a, _ => (a, 0)

/-- Exact multiplication of values that are not NaN (R59). -/
def Num.mul : Num → Num → Num × Nat
  | .fin s1 m1 e1, .fin s2 m2 e2 => (.fin (s1 != s2) (m1 * m2) (e1 + e2), 0)
  | .inf s1, .fin s2 m2 _ => if m2 = 0 then (.dnan, fpInvalid) else (.inf (s1 != s2), 0)
  | .fin s1 m1 _, .inf s2 => if m1 = 0 then (.dnan, fpInvalid) else (.inf (s1 != s2), 0)
  | .inf s1, .inf s2 => (.inf (s1 != s2), 0)
  | a, _ => (a, 0)

/-- Division of values that are not NaN: a quotient with a sticky bit below 64 significant bits (R59). -/
def Num.div : Num → Num → Num × Nat
  | .fin s1 m1 e1, .fin s2 m2 e2 =>
    if m2 = 0 then (if m1 = 0 then (.dnan, fpInvalid) else (.inf (s1 != s2), fpDivZero))
    else
      let k := 64 + bitLen m2
      let n := m1 * 2 ^ k
      (.fin (s1 != s2) (2 * (n / m2) + (if n % m2 = 0 then 0 else 1)) (e1 - e2 - (k : Int) - 1), 0)
  | .inf s1, .fin s2 _ _ => (.inf (s1 != s2), 0)
  | .fin s1 _ _, .inf s2 => (.fin (s1 != s2) 0 0, 0)
  | .inf _, .inf _ => (.dnan, fpInvalid)
  | a, _ => (a, 0)

/-- Bits of the integer square root, from bit n − 1 down. -/
def isqrtAux : Nat → Nat → Nat → Nat
  | 0, _, acc => acc
  | n + 1, m, acc => if (acc + 2 ^ n) * (acc + 2 ^ n) ≤ m then isqrtAux n m (acc + 2 ^ n) else isqrtAux n m acc

/-- The integer square root. -/
def isqrt (m : Nat) : Nat := isqrtAux (bitLen m / 2 + 1) m 0

/-- Square root of a value that is not a NaN, with a sticky bit (R59). -/
def Num.sqrt : Num → Num × Nat
  | .fin s m e =>
    if m = 0 then (.fin s 0 0, 0)
    else if s then (.dnan, fpInvalid)
    else
      let k : Nat := 128 + (e % 2).toNat
      let n := m * 2 ^ k
      let r := isqrt n
      (.fin false (2 * r + (if r * r = n then 0 else 1)) ((e - (k : Int)) / 2 - 1), 0)
  | .inf s => if s then (.dnan, fpInvalid) else (.inf false, 0)
  | a => (a, 0)

/-- The order of values that are not NaN; zeros of either sign are equal. -/
def Num.cmp : Num → Num → Ordering
  | .inf s1, .inf s2 => if s1 = s2 then .eq else if s1 then .lt else .gt
  | .inf s1, _ => if s1 then .lt else .gt
  | _, .inf s2 => if s2 then .gt else .lt
  | .fin s1 m1 e1, .fin s2 m2 e2 => compare (finSum s1 m1 e1 (!s2) m2 e2).1 0
  | _, _ => .eq

/-- The first NaN of the operands, quieted on packing, with INVALID when an operand signals (R59, R149). -/
def firstNan (xs : List Num) : Option (Num × Nat) :=
  match xs.find? Num.isNan with
  | some x => some (x, if xs.any Num.isSnan then fpInvalid else 0)
  | none => none

/-- IEEE 754-2019 minimum and maximum of values that are not NaN: −0 is below +0 (R59). -/
def Num.minOf (a b : Num) : Num :=
  match a.cmp b with
  | .lt => a
  | .gt => b
  | .eq => if a.neg then a else b

/-- See `Num.minOf`. -/
def Num.maxOf (a b : Num) : Num :=
  match a.cmp b with
  | .lt => b
  | .gt => a
  | .eq => if a.neg then b else a

/-- 1.0 or 0.0 (Table 3-13). -/
def Num.ofBool (b : Bool) : Num := .fin false (if b then 1 else 0) 0

/-- The IEEE limit value of a special function at an operand that is an infinity, a zero or outside its domain (R60);
none where the manual gives only an error bound. `fn` is the code of Table 3-13. -/
def specialLimit (fn : Nat) : Num → Option Num
  | .inf s =>
    match fn with
    | 0x0A => some (.fin s 0 0)
    | 0x0B => some (if s then .dnan else .fin false 0 0)
    | 0x0C => some (if s then .fin false 0 0 else .inf false)
    | 0x0D => some (if s then .dnan else .inf false)
    | 0x0E => some (.fin s 1 0)
    | _ => some (if s then .fin false 0 0 else .fin false 1 0)
  | .fin s m _ =>
    if m = 0 then
      match fn with
      | 0x0A => some (.inf s)
      | 0x0B => some (.inf s)
      | 0x0C => some (.fin false 1 0)
      | 0x0D => some (.inf true)
      | 0x0E => some (.fin s 0 0)
      | _ => none
    else if s && (fn == 0x0B || fn == 0x0D) then some .dnan
    else none
  | n => some n

/-- The largest error of a special function in ulp (R60). -/
def specialUlps (f : Fmt) : Nat := if f == .b32 then 2 else 1

/-- A special function of an operand that is neither a NaN nor at a limit: a result within the error bound of R60, which of them is
free (assumption 5). Its flags are those of an IEEE result: INEXACT where it is not the exact value, OVERFLOW by RMODE and LONG_SAT
(R62), UNDERFLOW where it is tiny and inexact (R630); an E8M7 result below 2^−126 is a zero with UNDERFLOW and INEXACT (R150). -/
def specialElem (fn : Nat) (f : Fmt) (md : RMode) (sat : Bool) (a : Nat) : Nat × Nat :=
  match numOf f a with
  | .fin s m e =>
    let v := specialValue fn s m e
    let emin : Int := 1 - (f.bias : Int)
    let r := boundedPick (specialUlps f) (f.man + 1) emin v.2.1 v.2.2 (Config.specialBits fn f.code a)
    let o := toLong f md sat (.fin v.1 r.1 r.2)
    let tiny := decide (r.1 = 0 ∨ r.2 + (specLen r.1 : Int) - 1 < emin)
    let same := specialFinite fn m e && decide ((r.1 = 0 ↔ v.2.1 = 0) ∧ toFix r.1 (r.2 - emin + 160) = toFix v.2.1 (v.2.2 - emin + 160))
    if f == .e8m7 && tiny && v.2.1 ≠ 0 then (o.1, fpUnderflow + fpInexact)
    else (o.1, o.2 ||| (if same then 0 else fpInexact) ||| (if tiny && !same then fpUnderflow else 0))
  | _ => (0, 0)

/-- One element of a VOP word (Table 3-13, R59 to R62, R149 to R151, R626): `fn` on operand bits in format f, the
result in format f, with the flags raised. -/
def vopElem (fn : Nat) (f : Fmt) (md : RMode) (sat : Bool) (a b c : Nat) : Nat × Nat :=
  let x := numOf f a
  let y := numOf f b
  let z := numOf f c
  let fin (r : Num × Nat) : Nat × Nat :=
    let o := toLong f md sat r.1
    (o.1, o.2 ||| r.2)
  let op2 (g : Num → Num → Num × Nat) : Nat × Nat :=
    match firstNan [x, y] with
    | some r => fin r
    | none => fin (g x y)
  match fn with
  | 0x00 => op2 (Num.add md)
  | 0x01 =>
    match firstNan [x, y] with
    | some r => fin r
    | none => fin (Num.add md x (y.setNeg (!y.neg)))
  | 0x02 => op2 Num.mul
  | 0x03 =>
    match firstNan [x, y, z] with
    | some r =>
      let prodBad := !x.isNan && !y.isNan && (Num.mul x y).1.isNan
      fin (r.1, r.2 ||| (if prodBad && Config.fmaInvalid a b c then fpInvalid else 0))
    | none =>
      let p := Num.mul x y
      if p.1.isNan then fin p else fin (Num.add md p.1 z)
  | 0x04 => op2 (fun x y => (Num.minOf x y, 0))
  | 0x05 => op2 (fun x y => (Num.maxOf x y, 0))
  | 0x06 =>
    if x.isNan || y.isNan then fin (Num.ofBool false, fpInvalid) else fin (Num.ofBool (x.cmp y == .lt), 0)
  | 0x07 =>
    if x.isNan || y.isNan then fin (Num.ofBool false, if x.isSnan || y.isSnan then fpInvalid else 0)
    else fin (Num.ofBool (x.cmp y == .eq), 0)
  | 0x08 => op2 Num.div
  | 0x09 =>
    match firstNan [x] with
    | some r => fin r
    | none => fin (Num.sqrt x)
  | 0x10 => if x.isNan then fin (x, 0) else fin (x.setNeg false, 0)
  | 0x11 => if x.isNan then fin (x, 0) else fin (x.setNeg (!x.neg), 0)
  | 0x12 =>
    let cz := match z with
      | .fin _ m _ => m == 0
      | _ => false
    if cz then fin (y, 0) else fin (x, 0)
  | 0x13 => fin (x, 0)
  | _ =>
    match specialLimit fn x with
    | some v => ((toLong f .rne false v).1, Config.specialFlags fn f.code a % 32 &&& (fpInvalid + fpDivZero))
    | none => specialElem fn f md sat a

/-- A conversion between long formats, or to I32, of CPY and of a BS scalar (R59, R124, R149 to R151). -/
def cpyElem (src dst : Fmt) (md : RMode) (sat : Bool) (a : Nat) : Nat × Nat :=
  let x := numOf src a
  let sn := if x.isSnan then fpInvalid else 0
  if dst == .i32 then
    match x with
    | .fin s m e =>
      let r := roundIntFmt .i32 md s m e
      if r.2 &&& fpInvalid = 0 then r else (Config.cpyIntInvalid src.code a % 2 ^ 32, fpInvalid)
    | _ => (Config.cpyIntInvalid src.code a % 2 ^ 32, fpInvalid)
  else
    let o := toLong dst md sat x
    (o.1, o.2 ||| sn)

/-- binary32 addition with roundTiesToEven of bits, with R149's NaN rule: the accumulations of VRED (R125). -/
def add32 (sat : Bool) (a b : Nat) : Nat × Nat := vopElem 0x00 .b32 .rne sat a b 0

/-- An exact dyadic sum: every term m · 2^e, as one pair. -/
def dyadicSum (ts : List (Int × Int)) : Int × Int :=
  ts.foldl (fun acc t =>
    let e := if acc.2 ≤ t.2 then acc.2 else t.2
    (acc.1 * (2 ^ (acc.2 - e).toNat : Nat) + t.1 * (2 ^ (t.2 - e).toNat : Nat), e)) (0, 0)

end Sys2Proof.Machine
end

