-- ==== Sys2Proof/Machine/Messages.lean ====
section
/-! DEFINITION. Channels, landings, core queues, cluster rings, Cisterns and semaphores (spec/07_messages_and_semaphores.md). -/

namespace Sys2Proof.Machine

/-! The fields of a MSG packet (Tables 6-4, 7-3). -/

/-- PART. -/
def mPart (p : Packet) : Nat := bitsOf p.aux.toNat 22 2
/-- SIG. -/
def mSig (p : Packet) : Bool := bitOf p.aux.toNat 21
/-- SIGN: the signal value − 1. -/
def mSign (p : Packet) : Nat := bitsOf p.aux.toNat 17 4
/-- KIND. -/
def mKind (p : Packet) : Nat := bitsOf p.aux.toNat 16 1
/-- GEN. -/
def mGen (p : Packet) : Nat := bitsOf p.aux.toNat 8 8
/-- TGT. -/
def mTgt (p : Packet) : Nat := bitsOf p.aux.toNat 0 8
/-- LAND. -/
def mLand (p : Packet) : Nat := bitsOf p.addr.toNat 45 3
/-- The message length in bytes. -/
def mLen (p : Packet) : Nat := (bitsOf p.addr.toNat 33 12 + 1) * 8
/-- SIG_SCOPE. -/
def mScope (p : Packet) : Bool := bitOf p.addr.toNat 32
/-- SIG_IDX. -/
def mIdx (p : Packet) : Nat := bitsOf p.addr.toNat 24 8
/-- DADDR. -/
def mAddr (p : Packet) : Nat := bitsOf p.addr.toNat 0 24

/-- Cut bytes into pieces of at most 2,032 B (R243), as (offset, bytes). -/
def chunks : Nat → Nat → List Byte → List (Nat × List Byte)
  | 0, _, _ => []
  | n + 1, off, bs =>
    if bs.length ≤ 2032 then [(off, bs)] else (off, bs.take 2032) :: chunks n (off + 2032) (bs.drop 2032)

/-- The packets of a message (R270). `sig` is the signal value − 1, if the message carries a signal. -/
def msgPackets (ss sc ds dc : Nat) (ep : Bool) (chan gen tgt land : Nat) (sig : Option Nat) (scope : Bool)
    (idx base : Nat) (lg : Bool) (body : List Byte) : List Packet :=
  let body := takeZ (max 8 ((body.length + 7) / 8 * 8)) body
  let n := body.length
  (chunks (n / 2032 + 1) 0 body).map fun x =>
    let part := b2n (x.1 == 0) + 2 * b2n (x.1 + x.2.length == n)
    let sg := match sig with
      | some v => 2 ^ 21 + v % 16 * 2 ^ 17
      | none => 0
    let aux := part * 2 ^ 22 + sg + gen % 256 * 256 + tgt % 256
    let addr := land % 8 * 2 ^ 45 + (n / 8 - 1) % 4096 * 2 ^ 33 + b2n scope * 2 ^ 32 + idx % 256 * 2 ^ 24 +
      ((if land = 1 || land = 4 then base else 0) + x.1) % 2 ^ 24
    { mkPkt 4 ss sc ds dc ep aux addr lg x.2 with chan := BitVec.ofNat 8 chan }

/-- The flits of a circuit message (R248, R252): the header packet with the whole payload rides on each. -/
def circFlits (p : Packet) : List CircFlit :=
  let n := lenOf p.payload.length
  (List.range (n + 1)).map fun i => ⟨i, i == n, p⟩

/-- The circuit header packet of a message: it carries the whole payload. -/
def circHeader (ps : List Packet) : Option Packet :=
  match ps with
  | [] => none
  | p :: _ =>
    some { p with aux := BitVec.ofNat 24 (putBits p.aux.toNat 22 2 3), payload := ps.flatMap fun q => q.payload, len := 0 }

/-- The destination site of a channel entry (word 0) for an epoch: through the logical map for LOG (R242, R573). -/
def Dev.chanSite (d : Dev) (site ep w0 : Nat) : Option Nat :=
  if bitOf w0 58 then d.mapSite site ep (bitsOf w0 50 8) else some (bitsOf w0 50 8)

/-- Send a message on a channel whose entry is (w0, w1). The answer is the device and, where the status is known at once,
the status: ADDRESS when the destination decodes as unmapped (R241). A circuit message waits at LOCAL for the channel's SLOTS, and
its status comes when its last flit leaves the router port (R267, R271). -/
def Dev.sendOn (d : Dev) (site core chan w0 w1 ep : Nat) (sig : Option Nat) (kind : ReqKind) (body : List Byte) :
    Dev × Option Nat :=
  match d.chanSite site ep w0 with
  | none => (d, some 4)
  | some ds =>
    let land := bitsOf w0 59 3
    let dc := bitsOf w0 44 6
    let ps := msgPackets site core ds dc (ep = 1) chan (bitsOf w1 56 8) (bitsOf w0 36 8) land sig (bitOf w0 35)
      (bitsOf w0 27 8) (bitsOf w0 0 24) (bitOf w0 58) body
    if bitOf w0 62 then
      match circHeader ps with
      | some p =>
        let fl := (circFlits p).map fun f => CircFlight.mk site 4 0 (some (bitsOf w1 48 8)) f (if f.last then some kind else none)
        ({ d with circNet := d.circNet ++ fl }, none)
      | none => (d, none)
    else (d.inject site 4 ps (some kind), none)

/-- Send on an entry of the cluster table, taking credit for a QUEUE landing (R272). -/
def Dev.cluSendNow (d : Dev) (site chan : Nat) (body : List Byte) : Dev :=
  let w0 := (d.getR R.CLU_CHAN0 site chan).toNat
  let w1 := (d.getR R.CLU_CHAN1 site chan).toNat
  let n := entriesOf body.length
  let d := if bitsOf w0 59 3 = 0 then
      (d.setF F.CLU_CHAN1_CRED site (bitsOf w1 28 5 - n) chan).addWrap F.CLU_CHAN1_SENT site n chan
    else d
  (d.sendOn site 60 chan w0 w1 (d.injEpoch site) (some 0) .other body).1

/-- Whether a message of the cluster table can start: its landing takes no credit, or there is enough (R272). -/
def Dev.cluCred (d : Dev) (site chan : Nat) (body : List Byte) : Bool :=
  d.fld F.CLU_CHAN0_LAND site chan ≠ 0 || entriesOf body.length ≤ d.fld F.CLU_CHAN1_CRED site chan

/-- A cluster unit, TRN or a Cistern slot sends a message on a channel of the cluster table (R266): nothing is sent on
an entry with VALID 0. A result carries a signal of value 1 (assumption 16). A message to a queue waits for credit behind those that
wait on its channel (R272, R275). -/
def Dev.cluSend (d : Dev) (site chan : Nat) (body : List Byte) : Dev :=
  if !d.flag F.CLU_CHAN0_VALID site chan then d
  else if d.cluCred site chan body && !((d.clu site).sendWait.any fun x => x.1 == chan) then d.cluSendNow site chan body
  else d.modClu site fun x => { x with sendWait := x.sendWait ++ [(chan, body)] }

/-- Messages that wait for credit on a channel of the cluster table go while there is credit, at most n of them. -/
def Dev.cluRelease (d : Dev) (site chan : Nat) : Nat → Dev
  | 0 => d
  | n + 1 =>
    match (d.clu site).sendWait.find? fun x => x.1 == chan with
    | none => d
    | some w =>
      if d.cluCred site chan w.2 then
        (Dev.cluSendNow (d.modClu site fun x => { x with sendWait := x.sendWait.erase w }) site chan w.2).cluRelease site chan n
      else d

/-- Write word 1 of a channel entry: a change of GEN or CRED_MAX sets CRED to CRED_MAX and SENT to 0 (R268). -/
def Dev.wrChan1 (d : Dev) (r : Reg) (u chan v : Nat) : Dev :=
  let old := (d.getR r u chan).toNat
  let gen := bitsOf v 56 8
  let mx := bitsOf v 38 5
  let keep := gen == bitsOf old 56 8 && mx == bitsOf old 38 5
  let cred := if keep then bitsOf old 28 5 else mx
  let sent := if keep then bitsOf old 0 16 else 0
  d.setR r u (BitVec.ofNat 64 (gen * 2 ^ 56 + bitsOf v 48 8 * 2 ^ 48 + mx * 2 ^ 38 + cred * 2 ^ 28 + sent)) chan

/-! Semaphores (R276, R294, R629). -/

/-- Count a signal in SIG_SAT of a core or of a cluster, and raise SIG_SAT. -/
def Dev.sigSat (d : Dev) (site : Nat) (u : Option Nat) : Dev :=
  match u with
  | some u => (d.addSat F.COR_MSG_STATUS_SIG_SAT u 1).raise (evU bCOR u) 9 1 0
  | none => (d.addSat F.CLU_MSG_STATUS_SIG_SAT site 1).raise (evU bCLU site) 7 1 0

/-- Add to a semaphore: it saturates at 0xFFFF. -/
def Dev.semAdd (d : Dev) (site : Nat) (u : Option Nat) (scope : Bool) (idx n : Nat) : Dev :=
  if scope then
    let v := d.fld F.CLU_SEM_V site idx + n
    let d := d.setF F.CLU_SEM_V site (min 0xFFFF v) idx
    if v > 0xFFFF then d.sigSat site none else d
  else
    match u with
    | some c =>
      if idx > 63 then d.sigSat site u
      else
        let v := d.fld F.COR_SEM_V c idx + n
        let d := d.setF F.COR_SEM_V c (min 0xFFFF v) idx
        if v > 0xFFFF then d.sigSat site u else d
    | none => d.sigSat site none

/-- The signal of a committed message (R276, R629). -/
def Dev.signal (d : Dev) (p : Packet) (u : Option Nat) : Dev :=
  if mSig p then d.semAdd p.dstSite.toNat u (mScope p) (mIdx p) (mSign p + 1) else d

/-! What a landing finds (R628, R631, R281, R139). -/

/-- The core of a core landing: a physical core site, or a logical core through the core map (R573). -/
def Dev.landCore (d : Dev) (p : Packet) : Option Nat :=
  let site := p.dstSite.toNat
  let c := p.dstCore.toNat
  let k := if p.log then d.coreMap site c else if c < 36 then some c else none
  match k with
  | some n => if d.coreAbsent (cu site n) then none else some (cu site n)
  | none => none

/-- The core whose queue, activation buffer or memory a message lands in. -/
def Dev.coreLanding (d : Dev) (p : Packet) : Option Nat :=
  if mLand p = 0 || mLand p = 1 || (mLand p = 4 && mTgt p % 2 = 0) then d.landCore p else none

/-- Whether the landing names nothing that exists (R628). -/
def Dev.landNone (d : Dev) (p : Packet) : Bool :=
  let c := p.dstCore.toNat
  let l := mLand p
  if l = 0 then (d.landCore p).isNone || decide (mTgt p > 7)
  else if l = 1 then (d.landCore p).isNone
  else if l = 2 then decide (mTgt p > 31) || decide (c ≠ 60)
  else if l = 3 then
    if mTgt p < 3 then decide (c ≠ 60)
    else if mTgt p = 3 then !(p.dstSite.toNat == 251 && c == 61)
    else if mTgt p = 4 then !(p.dstSite.toNat == 245 && c == 61)
    else true
  else if l = 4 then (if mTgt p % 2 = 0 then (d.landCore p).isNone else decide (c > 60))
  else if l = 5 then decide (c > 60)
  else true

/-- The memory of a core, 0 WM, 1 AM, 2 PM, 3 SM, that holds a local address (R63). -/
def coreMem (la : Nat) : Nat :=
  if la < 0x100000 then 0 else if la < 0x130000 then 1 else if la < 0x140000 then 2 else if la < 0x150000 then 3 else 4

/-- The status with which an ABUF or MEM landing refuses a range (R631, R79, R139). -/
def Dev.rangeBad (d : Dev) (p : Packet) (n : Nat) : Option Nat :=
  let a := mAddr p
  if mLand p = 1 then
    match d.landCore p with
    | some u => if a + n > 0x10000 || d.coreState u = 4 then some 4 else none
    | none => some 4
  else if mTgt p % 2 = 1 then (if a + n > 0x600000 then some 4 else none)
  else
    match d.landCore p with
    | some u =>
      if coreMem a = 4 || coreMem a ≠ coreMem (a + n - 1) || d.coreState u = 4 then some 4
      else if coreMem a = 3 && d.coreState u ≠ 0 then some 2
      else none
    | none => some 4

/-- The generation with which a landing compares (R269), if it compares one. -/
def Dev.landGen (d : Dev) (p : Packet) : Option Nat :=
  let site := p.dstSite.toNat
  if mLand p = 0 then (d.landCore p).map fun u => d.qGen u (mTgt p)
  else if mLand p = 2 then some (d.fld F.CLU_RING_CFG_GEN site (mTgt p))
  else if mLand p = 3 && mTgt p ≥ 3 then none
  else some (d.fld F.CLU_MSG_CTRL_SGEN site)

/-- Whether a message is stale at its landing (R281). -/
def Dev.isStale (d : Dev) (p : Packet) : Bool :=
  match d.landGen p with
  | some g => g ≠ mGen p
  | none => false

/-- Count a message discarded as closed (R280) or stale (R281), and raise MSG_DROP at 256. -/
def Dev.dropCount (d : Dev) (p : Packet) (closed : Bool) : Dev :=
  match d.coreLanding p with
  | some u =>
    let f := if closed then F.COR_MSG_STATUS_DROP_CLOSED else F.COR_MSG_STATUS_DROP_STALE
    let d' := d.addSat f u 1
    if d.fld f u < 256 && d'.fld f u ≥ 256 then d'.raise (evU bCOR u) 7 0 0 else d'
  | none =>
    let site := p.dstSite.toNat
    let f := if closed then F.CLU_MSG_STATUS_DROP_CLOSED else F.CLU_MSG_STATUS_DROP_STALE
    let d := if mLand p = 2 then d.addSat F.CLU_RING_STATUS_DROPPED site 1 (mTgt p) else d
    let d' := d.addSat f site 1
    if d.fld f site < 256 && d'.fld f site ≥ 256 then d'.raise (evU bCLU site) 5 0 (mTgt p) else d'

/-- The answer of a landing to a routed message (R271); a circuit message gets none. -/
def Dev.ackMsg (d : Dev) (p : Packet) (circ : Bool) (st : Nat) : Dev := if circ then d else d.respond p 5 (ackAux st) []

/-! Queue landings (R272, R278 to R280). -/

/-- Whether a queue's credit table has an entry for a sender. -/
def Dev.hasCred (d : Dev) (u q site core chan : Nat) : Bool :=
  (d.core u).creds.any fun e => e.q == q && e.site == site && e.core == core && e.chan == chan

/-- Give a sender an entry of the credit table: false when the table is full. -/
def Dev.needCred (d : Dev) (u q site core chan : Nat) : Dev × Bool :=
  if d.hasCred u q site core chan then (d, true)
  else if ((d.core u).creds.filter fun e => e.q == q).length ≥ 16 then (d, false)
  else (d.modCore u fun x => { x with creds := x.creds ++ [CredEnt.mk q site core chan 0] }, true)

/-- Entries that queue q holds. -/
def Dev.qUsed (d : Dev) (u q : Nat) : Nat :=
  (((d.core u).qs.filter fun m => m.q == q).map fun m => entriesOf m.body.length).sum

/-- Commit a message to a core queue, or discard it; none while the queue is full (R272, R273). -/
def Dev.landQueue (d : Dev) (p : Packet) (circ : Bool) (u : Nat) (body : List Byte) : Option Dev :=
  let q := mTgt p
  let ss := p.srcSite.toNat
  let sc := p.srcCore.toNat
  let ch := p.chan.toNat
  let n := entriesOf body.length
  if !bitOf (d.fld F.COR_QCTRL_OPEN u) q then
    some ((((d.needCred u q ss sc ch).1.dropCount p true).freeCredit u q ss sc ch n).ackMsg p circ 1)
  else if d.isStale p then some (((d.dropCount p false).freeCredit u q ss sc ch n).ackMsg p circ 1)
  else
    match d.needCred u q ss sc ch with
    | (_, false) => some (d.ackMsg p circ 2)
    | (d1, true) =>
      if n > 16 then some ((d1.freeCredit u q ss sc ch n).ackMsg p circ 2)
      else if d.qUsed u q + n > 16 then none
      else
        let d2 := d1.modCore u fun x => { x with qs := x.qs ++ [QMsg.mk q body ss sc ch] }
        some ((d2.signal p (some u)).ackMsg p circ 0)

/-- The head message of a core queue. -/
def Dev.qHead (d : Dev) (u q : Nat) : Option QMsg := (d.core u).qs.find? fun m => m.q == q

/-- Remove the head message of a core queue: its credit returns (R272), the head entry index moves on (R278). -/
def Dev.qPop (d : Dev) (u q : Nat) : Dev :=
  match d.qHead u q with
  | none => d
  | some m =>
    let n := entriesOf m.body.length
    let d := d.modCore u fun x => { x with qs := x.qs.erase m, qhead := x.qhead.set q ((x.qhead.getD q 0 + n) % 16) }
    d.freeCredit u q m.site m.core m.chan n

/-- RESET of a core queue (R281). -/
def Dev.resetQ (d : Dev) (u q : Nat) : Dev :=
  let d := d.modCore u fun x =>
    { x with qs := x.qs.filter fun m => m.q != q, qhead := x.qhead.set q 0, creds := x.creds.filter fun e => e.q != q }
  (d.setR R.COR_QGEN u (BitVec.ofNat 64 (putBits (d.fld F.COR_QGEN_GEN u) (q * 8) 8 (d.qGen u q + 1)))).setFbit
    F.COR_QCTRL_OPEN u q true

/-- A write of COR_QCTRL: resets, then closes. -/
def Dev.wrQctrl (d : Dev) (u v : Nat) : Dev :=
  let d := d.each (List.range 8) fun d q => if bitOf v (16 + q) then d.resetQ u q else d
  d.each (List.range 8) fun d q => if bitOf v (8 + q) then d.closeQ u q else d

/-! Cluster rings (R282 to R288). -/

/-- Size of ring r in bytes. -/
def Dev.ringSize (d : Dev) (site r : Nat) : Nat := 4096 * 2 ^ min 8 (d.fld F.CLU_RING_CFG_SIZE site r)

/-- Address of ring r. -/
def Dev.ringBase (d : Dev) (site r : Nat) : Nat := csmBase site + d.fld F.CLU_RING_CFG_BASE site r * 4096

/-- Bytes between HEAD and TAIL (R284). -/
def Dev.ringUsed (d : Dev) (site r : Nat) : Nat :=
  let h := d.fld F.CLU_RING_HEAD_OFFSET site r
  let t := d.fld F.CLU_RING_TAIL_OFFSET site r
  if d.fld F.CLU_RING_HEAD_WRAP site r = d.fld F.CLU_RING_TAIL_WRAP site r then t - h else d.ringSize site r - h + t

/-- The ring record header (Table 7-4). -/
def ringHdr (kind gen site core chan len : Nat) : List Byte :=
  leBytes 8 (kind * 2 ^ 56 + gen % 256 * 2 ^ 48 + site % 256 * 2 ^ 40 + core % 64 * 2 ^ 34 + chan % 256 * 2 ^ 26 + len)

/-- Write bytes inside CSM; bytes past its end are at no location. -/
def State.putCsm (s : State) (site a : Nat) (bs : List Byte) : State :=
  (s.put (csmBase site + a) (bs.take (0x600000 - a))).onDev fun d => d.countEv site evCsm (csmLines a bs.length)

/-- Place a record in a ring by the wrap-skip rule (R284); none while it must wait. -/
def State.ringPlace (s : State) (site r gen ss sc chan : Nat) (body : List Byte) : Option State :=
  let d := s.dev
  let size := d.ringSize site r
  let b := d.fld F.CLU_RING_CFG_BASE site r * 4096
  let t := d.fld F.CLU_RING_TAIL_OFFSET site r
  let n := (8 + body.length + 63) / 64 * 64
  let need := if t + n ≤ size then n else size - t + n
  if size - d.ringUsed site r < need then none
  else
    let flip (d : Dev) : Dev := d.setF F.CLU_RING_TAIL_WRAP site (1 - d.fld F.CLU_RING_TAIL_WRAP site r) r
    let pad := decide (t + n > size)
    let s := if pad then (s.putCsm site (b + t) (ringHdr 0x7F gen ss sc chan 0)).onDev flip else s
    let t := if pad then 0 else t
    let s := s.putCsm site (b + t) (ringHdr 1 gen ss sc chan body.length ++ body)
    some (s.onDev fun d =>
      let d := if t + n ≥ size then flip (d.setF F.CLU_RING_TAIL_OFFSET site 0 r)
        else d.setF F.CLU_RING_TAIL_OFFSET site (t + n) r
      d.addWrap F.CLU_RING_STATUS_MSGS site 1 r)

/-- A message at an open ring: placed, rejected, or none while it must wait. -/
def State.ringTry (s : State) (p : Packet) (circ : Bool) (body : List Byte) : Option State :=
  let site := p.dstSite.toNat
  let r := mTgt p
  if !s.dev.flag F.CLU_RING_CFG_OPEN site r then some (s.onDev fun d => (d.dropCount p true).ackMsg p circ 1)
  else if s.dev.isStale p then some (s.onDev fun d => (d.dropCount p false).ackMsg p circ 1)
  else if (8 + body.length + 63) / 64 * 64 > s.dev.ringSize site r then
    some (s.onDev fun d =>
      ((d.addSat F.CLU_RING_STATUS_REJECTED site 1 r).raise (evU bCLU site) 8 1 r).ackMsg p circ 2)
  else
    match s.ringPlace site r (mGen p) p.srcSite.toNat p.srcCore.toNat p.chan.toNat body with
    | some t => some (t.onDev fun d => (d.signal p none).ackMsg p circ 0)
    | none => none

/-- A message at a ring: it waits behind earlier waiting messages and for space (R287). -/
def State.landRing (s : State) (p : Packet) (circ : Bool) (body : List Byte) : State :=
  let site := p.dstSite.toNat
  let r := mTgt p
  let wait (s : State) : State := s.onDev fun d =>
    (d.addSat F.CLU_RING_STATUS_WAITS site 1 r).modClu site fun x =>
      { x with ringWait := x.ringWait ++ [(r, WaitMsg.mk p circ body)] }
  if (s.dev.clu site).ringWait.any fun w => w.1 == r then wait s
  else
    match s.ringTry p circ body with
    | some t => t
    | none => wait s

/-- POP of a ring (R286). -/
def State.ringPop (s : State) (site r : Nat) : State :=
  let d := s.dev
  let h := d.fld F.CLU_RING_HEAD_OFFSET site r
  if h = d.fld F.CLU_RING_TAIL_OFFSET site r && d.fld F.CLU_RING_HEAD_WRAP site r = d.fld F.CLU_RING_TAIL_WRAP site r then s
  else
    let w := leNat (s.get (d.ringBase site r + h) 8)
    let n := (8 + w % 8192 + 63) / 64 * 64
    s.onDev fun d =>
      let flip (d : Dev) : Dev :=
        (d.setF F.CLU_RING_HEAD_OFFSET site 0 r).setF F.CLU_RING_HEAD_WRAP site (1 - d.fld F.CLU_RING_HEAD_WRAP site r) r
      if w / 2 ^ 56 = 0x7F then flip d
      else
        let d := if h + n ≥ d.ringSize site r then flip d else d.setF F.CLU_RING_HEAD_OFFSET site (h + n) r
        d.setF F.CLU_RING_STATUS_MSGS site (d.fld F.CLU_RING_STATUS_MSGS site r - 1) r

/-- RESET of a ring (R288). -/
def Dev.ringReset (d : Dev) (site r : Nat) : Dev :=
  let d := (d.setR R.CLU_RING_HEAD site 0 r).setR R.CLU_RING_TAIL site 0 r
  let d := d.setF F.CLU_RING_STATUS_MSGS site 0 r
  (d.addWrap F.CLU_RING_CFG_GEN site 1 r).setF F.CLU_RING_CFG_OPEN site 1 r

/-- CLOSE of a ring (R288). -/
def Dev.ringClose (d : Dev) (site r : Nat) : Dev := d.setF F.CLU_RING_CFG_OPEN site 0 r

/-- A write of CLU_RING_CFG: SIZE and BASE while the ring is not open (R282), then CLOSE, RESET and POP. -/
def State.wrRingCfg (s : State) (site r v : Nat) : State :=
  let s := s.onDev fun d =>
    let d := if d.flag F.CLU_RING_CFG_OPEN site r then d
      else (d.setF F.CLU_RING_CFG_SIZE site (bitsOf v 44 4) r).setF F.CLU_RING_CFG_BASE site (bitsOf v 24 11) r
    let d := if bitOf v 62 then d.ringClose site r else d
    if bitOf v 61 then d.ringReset site r else d
  if bitOf v 60 then s.ringPop site r else s

/-! Cisterns (R289 to R293). -/

/-- The size of an element of a Cistern format code. -/
def cstSize (f : Nat) : Nat := if f = 1 then 2 else 4

/-- binary32 addition of a Cistern: every NaN becomes the default NaN (R158, R291). -/
def cstSum (a b : Nat) : Nat :=
  let x := numOf .b32 a
  let y := numOf .b32 b
  if x.isNan || y.isNan then 0x7FC00000 else (toLong .b32 .rne false (Num.add .rne x y).1).1

/-- One element of a contribution as 32 bits. -/
def cstIn (ifmt v : Nat) : Nat := if ifmt = 1 then v * 65536 else v

/-- One element of the released sum. -/
def cstOut (ofmt v : Nat) : Nat := if ofmt = 1 then (toLong .e8m7 .rne false (numOf .b32 v)).1 else v

/-- The offset of a slot's buffer in CSM. -/
def Dev.cstBuf (d : Dev) (site slot : Nat) : Nat := d.fld F.CLU_CST0_BUF site slot * 64

/-- Bytes of the CSM; a location past its end reads 0. -/
def State.getCsm (s : State) (site a n : Nat) : List Byte :=
  takeZ n (s.get (csmBase site + a) (min n (0x600000 - a)))

/-- Release a slot's sum (R292): one message on CHAN, then AUTO re-arms after the read-out. -/
def State.cstRelease (s : State) (site slot : Nat) : State :=
  let d := s.dev
  let n := d.fld F.CLU_CST0_LM1 site slot + 1
  let ofmt := d.fld F.CLU_CST0_OFMT site slot
  let buf := s.getCsm site (d.cstBuf site slot) (4 * n)
  let body := (List.range n).flatMap fun i => leBytes (cstSize ofmt) (cstOut ofmt (leAt buf (4 * i) 4))
  s.onDev fun d =>
    let d := (d.cluSend site (d.fld F.CLU_CST1_CHAN site slot) body).addWrap F.CLU_CST_STATUS_RELEASES site 1
    if d.flag F.CLU_CST0_AUTO site slot then d.modClu site fun x => { x with cstRead := slot :: x.cstRead }
    else (d.setF F.CLU_CST1_ARMED site 0 slot).setF F.CLU_CST1_RECEIVED site 0 slot

/-- Add a whole contribution to a slot, or discard it (R291). -/
def State.cstTake (s : State) (p : Packet) (circ : Bool) (body : List Byte) : State :=
  let d := s.dev
  let site := p.dstSite.toNat
  let slot := mTgt p
  let ifmt := d.fld F.CLU_CST0_IFMT site slot
  let ofmt := d.fld F.CLU_CST0_OFMT site slot
  let n := d.fld F.CLU_CST0_LM1 site slot + 1
  if d.isStale p then s.onDev fun d => (d.dropCount p false).ackMsg p circ 1
  else if !d.flag F.CLU_CST1_ARMED site slot then
    s.onDev fun d => (d.addSat F.CLU_CST_STATUS_EARLY site 1).ackMsg p circ 1
  else if ifmt = 3 || ofmt = 3 || (ifmt = 2) != (ofmt = 2) || body.length ≠ n * cstSize ifmt then
    s.onDev fun d => ((d.addSat F.CLU_CST_STATUS_MISMATCH site 1).raise (evU bCLU site) 9 1 slot).ackMsg p circ 2
  else
    let rcv := d.fld F.CLU_CST1_RECEIVED site slot
    let b := d.cstBuf site slot
    let old := if rcv = 0 then [] else s.getCsm site b (4 * n)
    let new := (List.range n).flatMap fun i =>
      let v := cstIn ifmt (leAt body (cstSize ifmt * i) (cstSize ifmt))
      leBytes 4 (if rcv = 0 then v
        else if ifmt = 2 then (leAt old (4 * i) 4 + v) % 2 ^ 32 else cstSum (leAt old (4 * i) 4) v)
    let s := (s.putCsm site b new).onDev fun d =>
      ((d.setF F.CLU_CST1_RECEIVED site (rcv + 1) slot).signal p none).ackMsg p circ 0
    if rcv + 1 = d.fld F.CLU_CST1_COUNT site slot then s.cstRelease site slot else s

/-- A contribution at a slot: it waits while the last sum is being read out (R292). -/
def State.landCistern (s : State) (p : Packet) (circ : Bool) (body : List Byte) : State :=
  let site := p.dstSite.toNat
  if (s.dev.clu site).cstRead.contains (mTgt p) then
    s.onDev fun d => d.modClu site fun x => { x with cstWait := x.cstWait ++ [(mTgt p, WaitMsg.mk p circ body)] }
  else s.cstTake p circ body

/-- CST.ARM on a slot (R290). -/
def Dev.cstArm (d : Dev) (site slot count chan : Nat) : Dev :=
  if d.fld F.CLU_CST1_RECEIVED site slot = 0 then
    ((d.setF F.CLU_CST1_COUNT site count slot).setF F.CLU_CST1_CHAN site chan slot).setF F.CLU_CST1_ARMED site 1 slot
  else (d.addSat F.CLU_CST_STATUS_ARM_REJ site 1).raise (evU bCLU site) 9 1 slot

/-- A host write of word 0 of a slot, while ARMED is 0 (R289). -/
def Dev.wrCst0 (d : Dev) (site slot v : Nat) : Dev :=
  if d.flag F.CLU_CST1_ARMED site slot then d
  else d.setR R.CLU_CST0 site (BitVec.ofNat 64 (v / 2 ^ 30 % 2 ^ 34 * 2 ^ 30)) slot

/-! Whole messages. -/

/-- Write the bytes of an ABUF or MEM landing at DADDR. -/
def State.landBytes (s : State) (p : Packet) (bs : List Byte) : State :=
  let site := p.dstSite.toNat
  if mLand p = 1 then
    match s.dev.landCore p with
    | some u => { s with abuf := pokeN s.abuf (u * 65536 + mAddr p) bs }
    | none => s
  else if mTgt p % 2 = 1 then s.putCsm site (mAddr p) bs
  else
    match s.dev.landCore p with
    | some u => s.put (coreBase site (u % 256) + mAddr p) bs
    | none => s

/-- The end of an ABUF or MEM message whose bytes are in place: its signal and ACK. -/
def Dev.landEnd (d : Dev) (p : Packet) (circ : Bool) : Dev := (d.signal p (d.coreLanding p)).ackMsg p circ 0

/-- A message with missing bytes (R277). -/
def Dev.incomplete (d : Dev) (p : Packet) : Dev :=
  match d.coreLanding p with
  | some u => (d.addSat F.COR_MSG_STATUS_INCOMPLETE u 1).raise (evU bCOR u) 8 1 0
  | none => (d.addSat F.CLU_MSG_STATUS_INCOMPLETE p.dstSite.toNat 1).raise (evU bCLU p.dstSite.toNat) 6 1 (mTgt p)

/-- A core that refuses an external write to SM shows WR_REJ (R139). -/
def Dev.smReject (d : Dev) (p : Packet) : Dev :=
  match d.landCore p with
  | some u => d.setF F.COR_STATUS_WR_REJ u 1
  | none => d

/-- Discard a message with a status, counting it. -/
def Dev.landRefuse (d : Dev) (p : Packet) (circ : Bool) (st : Nat) : Dev :=
  let d := if st = 1 then d.dropCount p false else if st = 2 then d.smReject p else d
  d.ackMsg p circ st

/-- The status with which an ABUF or MEM landing refuses a message of which n bytes are judged. -/
def Dev.landJudge (d : Dev) (p : Packet) (n : Nat) : Option Nat :=
  if d.landNone p then some 4 else if d.isStale p then some 1 else d.rangeBad p n

/-- The largest message of a landing in bytes (Table 7-2). -/
def landMax (land : Nat) : Nat :=
  if land = 0 then 1024 else if land = 2 || land = 3 then 4096 else if land = 5 then 16384 else 32768

/-- Commit a message that is whole, at a landing that assembles it; none while a core queue is full. -/
def State.commitWhole (s : State) (p : Packet) (circ : Bool) (body : List Byte) : Option State :=
  if s.dev.landNone p then some (s.onDev fun d => d.ackMsg p circ 4)
  else
    match mLand p with
    | 0 =>
      match s.dev.landCore p with
      | some u => (s.dev.landQueue p circ u body).map fun d => { s with dev := d }
      | none => some (s.onDev fun d => d.ackMsg p circ 4)
    | 2 => some (s.landRing p circ body)
    | 3 =>
      if s.dev.isStale p then some (s.onDev fun d => (d.dropCount p false).ackMsg p circ 1)
      else if body.length > landMax 3 then some (s.onDev fun d => d.ackMsg p circ 2)
      else some (s.onDev fun d => d.modClu p.dstSite.toNat fun x =>
        { x with unitQ := x.unitQ ++ [(mTgt p, WaitMsg.mk p circ body)] })
    | _ => some (s.landCistern p circ body)

/-- Count a circuit flit as unclaimed (R252): CIRC_UNCLAIMED at 256. -/
def Dev.unclaimed (d : Dev) (site port : Nat) : Dev :=
  let n := d.fld F.FAB_PORT_ERR_UNCLAIMED site port
  let d := d.addSat F.FAB_PORT_ERR_UNCLAIMED site 1 port
  if n < 256 && d.fld F.FAB_PORT_ERR_UNCLAIMED site port ≥ 256 then d.raise (evU bFAB site) 7 0 port else d

/-- A whole circuit message at its sink behind a port (R252, R269). A queue without room is no landing space. -/
def State.landCircuit (s : State) (port : Nat) (p : Packet) : State :=
  if mLand p = 1 || mLand p = 4 then
    match s.dev.landJudge p p.payload.length with
    | some st => s.onDev fun d => d.landRefuse p true st
    | none => (s.landBytes p p.payload).onDev fun d => d.landEnd p true
  else (s.commitWhole p true p.payload).getD (s.onDev fun d => d.unclaimed p.dstSite.toNat port)

/-- Where a message is assembled or counted (Table 7-2, R277). -/
def Dev.asmAt (d : Dev) (p : Packet) : AsmAt :=
  match mLand p with
  | 0 => match d.landCore p with
    | some u => .port u
    | none => .gateway
  | 1 => match d.landCore p with
    | some u => .coreBytes u
    | none => .cluBytes
  | 4 => if mTgt p % 2 = 1 then .cluBytes
    else match d.landCore p with
      | some u => .coreBytes u
      | none => .cluBytes
  | 3 => if mTgt p ≥ 3 then .edge else .gateway
  | _ => .gateway

/-- Bytes that a place keeps for the messages being assembled there. -/
def Dev.asmBytes (d : Dev) (site : Nat) (pl : AsmAt) : Nat :=
  ((d.asms.filter fun x => x.dstSite == site && x.place == pl).map fun x => x.need).sum

/-- Bytes of whole messages that wait in a list. -/
def waitBytes (ws : List (Nat × WaitMsg)) : Nat := (ws.map fun w => w.2.body.length).sum

/-- Bytes in use in the landing buffer of a gateway: what is being assembled, and what waits for a ring, a unit or a slot (R173,
R287, R292). -/
def Dev.bufBytes (d : Dev) (site : Nat) : Nat :=
  let x := d.clu site
  d.asmBytes site .gateway + waitBytes x.ringWait + waitBytes (x.unitQ.filter fun w => w.1 < 3) + waitBytes x.cstWait

/-- Messages that a byte-count table holds: routed ones and those on circuits (R277). -/
def Dev.tableUsed (d : Dev) (site : Nat) (pl : AsmAt) : Nat :=
  (d.asms.filter fun x => x.dstSite == site && x.place == pl).length + (d.circ.filter fun x => x.site == site && x.place == pl).length

/-- Whether there is room for a new message: 16 messages in a byte-count table (R277), 2 KiB in the port staging of a core and
32 KiB in the landing buffer (Table 7-2), which keep room for the whole message from its first packet (assumption 105). -/
def Dev.asmRoom (d : Dev) (site : Nat) (pl : AsmAt) (need : Nat) : Bool :=
  match pl with
  | .coreBytes _ | .cluBytes => d.tableUsed site pl < 16
  | .port _ => d.asmBytes site pl + need ≤ 2048
  | .gateway => d.bufBytes site + need ≤ 32768
  | .edge => true

/-- Whether an entry of the assembly tables is a packet's message. -/
def isAsm (p : Packet) (x : Asm) : Bool :=
  x.dstSite == p.dstSite.toNat && x.dstCore == p.dstCore.toNat && x.srcSite == p.srcSite.toNat &&
    x.srcCore == p.srcCore.toNat && x.tag == p.tag.toNat

/-- The status with which a packet of an ABUF or MEM message is refused: the first one judges the whole range (R631), and each one
finds the core of an SM range HALTED (R139). -/
def Dev.asmBad (d : Dev) (p : Packet) (old : Option Asm) : Option Nat :=
  match old with
  | none => d.landJudge p (if mPart p % 2 = 1 then mLen p else p.payload.length)
  | some x =>
    match x.bad with
    | some st => some st
    | none => if mLand p = 4 && d.rangeBad p p.payload.length = some 2 then some 2 else none

/-- A data packet of a message at its landing (R269 to R277); none while it must wait. -/
def State.landMsg (s : State) (p : Packet) : Option State :=
  let site := p.dstSite.toNat
  let first := mPart p % 2 = 1
  let last := mPart p / 2 = 1
  let direct := mLand p = 1 || mLand p = 4
  let old := if first then none else s.dev.asms.find? (isAsm p)
  let others := s.dev.asms.filter fun x => !isAsm p x
  let pl := s.dev.asmAt p
  let need := if mLen p > landMax (mLand p) then 0 else mLen p
  if old.isNone && !(s.onDev fun d => { d with asms := others }).dev.asmRoom site pl need then none
  else
    let bad := if direct then s.dev.asmBad p old else none
    let got := (old.map fun x => x.got).getD 0 + p.payload.length
    let bytes := if direct then [] else (old.map fun x => x.bytes).getD [] ++ p.payload
    let s1 := if direct && bad.isNone then s.landBytes p p.payload else s
    let done (s : State) : State := s.onDev fun d => { d with asms := others }
    if !last then
      some (s1.onDev fun d =>
        { d with asms := others ++ [Asm.mk site p.dstCore.toNat p.srcSite.toNat p.srcCore.toNat p.tag.toNat got bytes bad pl need] })
    else
      match bad with
      | some st => some ((done s1).onDev fun d => d.landRefuse p false st)
      | none =>
        if direct then
          some ((done s1).onDev fun d => if got = mLen p then d.landEnd p false else d.incomplete p)
        else if got ≠ mLen p then
          -- one that a switch or a reset cut is stale (R281, R300)
          some ((done s1).onDev fun d => if d.isStale p then d.landRefuse p false 1 else d)
        else (done s1).commitWhole p false bytes

/-! Credit messages (R272, R273). -/

/-- The credit that a credit message gives a channel with word 1 (R272): none where it is ignored. -/
def newCred (w1 gen freed : Nat) : Option Nat :=
  let mx := bitsOf w1 38 5
  let out := (bitsOf w1 0 16 + 65536 - freed) % 65536
  if gen = bitsOf w1 56 8 && out ≤ mx && mx - out > bitsOf w1 28 5 then some (mx - out) else none

/-- A credit message at the sender of a channel, a core or the cluster level (R266, R272). -/
def Dev.creditIn (d : Dev) (p : Packet) : Dev :=
  let freed := leAt p.payload 0 2
  let site := p.dstSite.toNat
  let c := p.dstCore.toNat
  let ch := p.chan.toNat
  if c < 36 then
    match newCred (d.getR R.COR_CHAN1 (cu site c) ch).toNat (mGen p) freed with
    | some v => d.setF F.COR_CHAN1_CRED (cu site c) v ch
    | none => d
  else if c = 60 then
    match newCred (d.getR R.CLU_CHAN1 site ch).toNat (mGen p) freed with
    | some v => (d.setF F.CLU_CHAN1_CRED site v ch).cluRelease site ch (d.clu site).sendWait.length
    | none => d
  else d

/-- A credit request at the receiving core: it is answered at once. -/
def Dev.creditAsk (d : Dev) (p : Packet) : Dev :=
  match d.landCore p with
  | none => d
  | some u =>
    let q := mTgt p
    let ss := p.srcSite.toNat
    let sc := p.srcCore.toNat
    let ch := p.chan.toNat
    if q > 7 || mGen p ≠ d.qGen u q then d
    else
      match (d.core u).creds.find? fun e => e.q == q && e.site == ss && e.core == sc && e.chan == ch with
      | some e => d.creditTo u ss sc ch (d.qGen u q) e.freed
      | none => d.creditTo u ss sc ch (d.qGen u q) (leAt p.payload 0 2)

/-- The credit request of a SEND that waits for credit on a channel of a core. -/
def Dev.creditReq (d : Dev) (u ep chan : Nat) : Dev :=
  let w0 := (d.getR R.COR_CHAN0 u chan).toNat
  let w1 := (d.getR R.COR_CHAN1 u chan).toNat
  match d.chanSite (u / 256) ep w0 with
  | none => d
  | some ds =>
    let aux := 3 * 2 ^ 22 + 65536 + bitsOf w1 56 8 * 256 + bitsOf w0 36 8
    let body := leBytes 2 (bitsOf w1 0 16) ++ [1]
    let p := mkPkt 4 (u / 256) (u % 256) ds (bitsOf w0 44 6) (ep = 1) aux 0 (bitOf w0 58) body
    d.reply (u / 256) 4 { p with chan := BitVec.ofNat 8 chan }

/-! The order at a sink (R247, R273). -/

/-- The core port that a packet at its sink goes to. -/
def Dev.portCore (d : Dev) (p : Packet) : Option Nat :=
  let c := p.dstCore.toNat
  if c ≥ 36 then none else if p.log then d.coreMap p.dstSite.toNat c else some c

/-- Whether one of two packets at a sink must be served before the other: all that go to one core port, which is a single line
(R273), and else those of one source, destination, VC and epoch (R247). -/
def Dev.sameLine (d : Dev) (a b : Packet) : Bool :=
  match d.portCore a, d.portCore b with
  | some x, some y => x == y
  | _, _ => a.dstCore == b.dstCore && a.srcSite == b.srcSite && a.srcCore == b.srcCore && a.vc == b.vc && a.epoch == b.epoch

/-- Whether no packet at its sink must be served before this one; one that is at no sink has just arrived. -/
def Dev.isNext (d : Dev) (p : Packet) : Bool :=
  match d.net.find? fun x => x.site == p.dstSite.toNat && x.port == 15 && d.sameLine x.pkt p with
  | some x => x.pkt == p
  | none => true

/-! The session switch (R300). -/

/-- Whether a packet is held in the port staging of a core: the last of a message that finds its queue full (R272, R273). -/
def Dev.inStaging (d : Dev) (p : Packet) : Bool :=
  p.ty == 4 && mLand p == 0 && mPart p / 2 == 1 && d.isNext p && !d.isStale p &&
  match d.landCore p with
  | some u => bitOf (d.fld F.COR_QCTRL_OPEN u) (mTgt p) && decide (d.qUsed u (mTgt p) + entriesOf (mLen p) > 16)
  | none => false

/-- The port staging of sites is emptied: the messages held in it are gone. -/
def Dev.emptyStaging (d : Dev) (at_ : Nat → Bool) : Dev :=
  d.each ((d.net.filter fun x =>
      at_ x.site && x.port == 15 && x.site == x.pkt.dstSite.toNat && d.inStaging x.pkt).map fun x => x.pkt) fun d p =>
    (d.depart p.dstSite.toNat 15 p).ejected p.dstSite.toNat p

/-- The landing buffers, port staging and byte-count tables of sites are emptied (R300, R486). A circuit message in flight has no
entry in a table from then on. -/
def Dev.emptyLandings (d : Dev) (at_ : Nat → Bool) : Dev :=
  let d := (d.emptyStaging at_).each ((List.range 256).filter at_) fun d site =>
    d.modClu site fun x => { x with ringWait := [], unitQ := [], cstWait := [] }
  { d with asms := d.asms.filter (fun a => !at_ a.dstSite),
           circ := d.circ.map fun x => if at_ x.site then { x with place := .edge } else x }

/-- What a session switch resets on every core and cluster. -/
def Dev.switchReset (d : Dev) : Dev :=
  let sites := List.range 256
  Dev.each (d.emptyLandings fun _ => true) sites fun d site =>
    let d := d.each (List.range 36) fun d c =>
      let u := cu site c
      let d := d.each (List.range 64) fun d i => d.setR R.COR_SEM u 0 i
      let d := d.each (List.range 8) fun d q =>
        d.setR R.COR_QGEN u (BitVec.ofNat 64 (putBits (d.fld F.COR_QGEN_GEN u) (q * 8) 8 (d.qGen u q + 1)))
      let d := d.each (List.range 256) fun d ch =>
        let d := d.addWrap F.COR_CHAN1_GEN u 1 ch
        (d.setF F.COR_CHAN1_CRED u (d.fld F.COR_CHAN1_CRED_MAX u ch) ch).setF F.COR_CHAN1_SENT u 0 ch
      d.modCore u fun x => { x with qs := [], qhead := [0, 0, 0, 0, 0, 0, 0, 0], creds := [] }
    let d := d.each (List.range 256) fun d i => d.setR R.CLU_SEM site 0 i
    let d := d.each (List.range 32) fun d r =>
      let d := ((d.setR R.CLU_RING_HEAD site 0 r).setR R.CLU_RING_TAIL site 0 r).setF F.CLU_RING_STATUS_MSGS site 0 r
      d.addWrap F.CLU_RING_CFG_GEN site 1 r
    let d := d.addWrap F.CLU_MSG_CTRL_SGEN site 1
    let d := d.each (List.range 256) fun d ch =>
      let d := d.addWrap F.CLU_CHAN1_GEN site 1 ch
      (d.setF F.CLU_CHAN1_CRED site (d.fld F.CLU_CHAN1_CRED_MAX site ch) ch).setF F.CLU_CHAN1_SENT site 0 ch
    let d := d.each (List.range 256) fun d k =>
      (d.setF F.CLU_CST1_ARMED site 0 k).setF F.CLU_CST1_RECEIVED site 0 k
    d.modClu site fun x => { x with cstRead := [], sendWait := [] }

/-! The commands of this chapter. -/

/-- CISTERN_REARM: the sum has been read out; the slot re-arms with AUTO, and waiting contributions proceed (R292). -/
def execCisternRearm (site : Site) (slot : BitVec 8) (s : State) : Host.Outcome State Fault Refusal :=
  let i := site.val
  let k := slot.toNat
  if (s.dev.clu i).cstRead.contains k then
    let ws := (s.dev.clu i).cstWait.filter fun w => w.1 == k
    let s1 := s.onDev fun d =>
      (d.setF F.CLU_CST1_RECEIVED i 0 k).modClu i fun x =>
        { x with cstRead := x.cstRead.erase k, cstWait := x.cstWait.filter fun w => w.1 != k }
    s.done (s1.each ws fun t w => t.landCistern w.2.pkt w.2.circ w.2.body)
  else s.done s

/-- RING_WAIT_END: the first message that waits for a ring is placed when the space is there (R284). -/
def execRingWaitEnd (site : Site) (ring : Fin 32) (s : State) : Host.Outcome State Fault Refusal :=
  let i := site.val
  match (s.dev.clu i).ringWait.find? fun w => w.1 == ring.val with
  | none => s.done s
  | some w =>
    match (s.onDev fun d => d.modClu i fun x => { x with ringWait := x.ringWait.erase w }).ringTry w.2.pkt w.2.circ w.2.body with
    | some t => s.done t
    | none => s.done s

/-- RING_WAIT_TIMEOUT: the first message that waits for a ring has waited longer than RING_WAIT (R287). -/
def execRingWaitTimeout (site : Site) (ring : Fin 32) (s : State) : Host.Outcome State Fault Refusal :=
  s.upd fun d =>
    let i := site.val
    match (d.clu i).ringWait.find? fun w => w.1 == ring.val with
    | none => d
    | some w =>
      let d := d.modClu i fun x => { x with ringWait := x.ringWait.erase w }
      ((d.addSat F.CLU_RING_STATUS_DROPPED i 1 ring.val).raise (evU bCLU i) 8 1 ring.val).ackMsg w.2.pkt w.2.circ 3

/-- Whether the registers of a core can be reached. -/
def Dev.coreReach (d : Dev) (u : Nat) : Bool := !d.siteOut (u / 256) && !d.coreAbsent u

/-- QUEUE_RESET: a write of 1 to a RESET bit (R281). -/
def execQueueReset (c : Core) (q : Fin 8) (s : State) : Host.Outcome State Fault Refusal :=
  s.upd fun d => let u := cu c.site.val c.core.val; if d.coreReach u then d.resetQ u q.val else d

/-- QUEUE_CLOSE: a write of 1 to a CLOSE bit (R279). -/
def execQueueClose (c : Core) (q : Fin 8) (s : State) : Host.Outcome State Fault Refusal :=
  s.upd fun d => let u := cu c.site.val c.core.val; if d.coreReach u then d.closeQ u q.val else d

/-- CLUSTER_RING_RESET: a write of 1 to RESET (R288). -/
def execClusterRingReset (site : Site) (ring : Fin 32) (s : State) : Host.Outcome State Fault Refusal :=
  s.upd fun d => if d.siteOut site.val then d else d.ringReset site.val ring.val

/-- CLUSTER_RING_CLOSE: a write of 1 to CLOSE (R288). -/
def execClusterRingClose (site : Site) (ring : Fin 32) (s : State) : Host.Outcome State Fault Refusal :=
  s.upd fun d => if d.siteOut site.val then d else d.ringClose site.val ring.val

/-- POP: a write of 1 to POP (R286). -/
def execPop (site : Site) (ring : Fin 32) (s : State) : Host.Outcome State Fault Refusal :=
  if s.dev.siteOut site.val then s.done s else s.done (s.ringPop site.val ring.val)

/-- A write of one word of a channel entry (R266 to R268). -/
def Dev.wrChan (d : Dev) (cluster : Bool) (u chan : Nat) (second : Bool) (v : Nat) : Dev :=
  let keep0 := v / 2 ^ 27 * 2 ^ 27 + v % 2 ^ 24
  match cluster, second with
  | false, false => d.setR R.COR_CHAN0 u (BitVec.ofNat 64 keep0) chan
  | false, true => d.wrChan1 R.COR_CHAN1 u chan v
  | true, false => d.setR R.CLU_CHAN0 u (BitVec.ofNat 64 keep0) chan
  | true, true => d.wrChan1 R.CLU_CHAN1 u chan v

/-- CHANNEL_ENTRY_WRITE: a write of word 1 of a channel entry (R268). -/
def execChannelEntryWrite (cluster : Bool) (c : Core) (chan : BitVec 8) (v : Word) (s : State) :
    Host.Outcome State Fault Refusal :=
  s.upd fun d =>
    let site := c.site.val
    if cluster then (if d.siteOut site then d else d.wrChan true site chan.toNat true v.toNat)
    else
      let u := cu site c.core.val
      if d.coreReach u then d.wrChan false u chan.toNat true v.toNat else d

end Sys2Proof.Machine
end

