-- ==== Sys2Proof/Machine/CoreRegs.lean ====
section
/-! DEFINITION. Registers by offset (spec/00_scope.md R11 to R16) and the registers of a core, which a core's own words reach by
local address too (spec/02 R78, R82, R89). -/

namespace Sys2Proof.Machine

/-- The register at an offset of a block, with its word index; none at a reserved offset (R13). -/
def findReg (blk off : Nat) : Option (Reg × Nat) :=
  let o := off / 8 * 8
  match allRegs.find? fun r => (r.blk == 0 || r.blk == blk) &&
      (if r.stride = 0 then o == r.base
       else decide (r.base ≤ o) && (o - r.base) % r.stride == 0 && decide ((o - r.base) / r.stride < r.count)) with
  | some r => some (r, if r.stride = 0 then 0 else (o - r.base) / r.stride)
  | none => none

/-- The unit of a register in a block instance. -/
def regUnit (r : Reg) (blk inst : Nat) : Nat := if r.blk = 0 then evU blk inst else inst

/-- The bits that an access of 4 or 8 bytes at an offset reaches (R11). -/
def accMask (off size : Nat) : Nat :=
  if size = 8 then 2 ^ 64 - 1 else if off % 8 = 0 then 2 ^ 32 - 1 else (2 ^ 32 - 1) * 2 ^ 32

/-- Whether size and alignment meet R11. -/
def accOk (off size : Nat) : Bool := (size = 8 && off % 8 = 0) || (size = 4 && off % 4 = 0)

/-- The epoch of packets that a core injects for a word of epoch mode m (R133). -/
def Dev.epOf (d : Dev) (u m : Nat) : Nat := if m = 0 then d.injEpoch (u / 256) else m - 1

/-- The message of a core queue that occupies entry e, with the byte offset of the entry in it (R278). -/
def queueAt (e : Nat) : List QMsg → Nat → Option (QMsg × Nat)
  | [], _ => none
  | m :: r, pos =>
    let n := entriesOf m.body.length
    let k := (e + 16 - pos % 16) % 16
    if k < n then some (m, k * 64) else queueAt e r (pos + n)

/-- Word i of the queue entries of a core (Table 2-8): of an entry that no message occupies, a free value. -/
def Dev.queueWord (d : Dev) (u i : Nat) : Nat :=
  let q := i / 128
  match queueAt (i / 8 % 16) ((d.core u).qs.filter fun m => m.q == q) ((d.core u).qhead.getD q 0) with
  | some (m, o) => leAt (m.body.drop o ++ zeros 64) (i % 8 * 8) 8
  | none => d.free.toNat

/-- COR_SEQ_STATUS with its computed fields (Table 3-23). -/
def Dev.seqStatus (d : Dev) (u : Nat) : Nat :=
  let x := d.core u
  let w := (d.getR R.COR_SEQ_STATUS u).toNat
  putBits (putBits (putBits (putBits w 48 4 x.m.length) 44 4 x.v.length) 40 4 x.cd.length) 0 1
    (d.epOf u (d.fld F.COR_SEQ_STATUS_EPOCH_MODE u))

/-- The value of a register of a core: its word, or what its table computes. -/
def Dev.coreRegVal (d : Dev) (u : Nat) (r : Reg) (i : Nat) : Nat :=
  if r.code = R.BLOCK_ID.code then blockId (evU bCOR u)
  else if r.code = R.COR_SEQ_STATUS.code then d.seqStatus u
  else if r.code = R.COR_QENTRY.code then d.queueWord u i
  else (d.getR r (regUnit r bCOR u) i).toNat &&& (2 ^ 64 - 1 - r.wo)

/-- The RC fields in the bits that a read reaches are cleared (R12): each returns to its reset value, which is 0 but for
MIN_MARGIN (Table 15-3). -/
def Dev.clearRc (d : Dev) (r : Reg) (u i m : Nat) : Dev :=
  if r.rc &&& m = 0 then d
  else d.setR r u (BitVec.ofNat 64 (((d.getR r u i).toNat &&& (2 ^ 64 - 1 - (r.rc &&& m))) ||| (r.reset &&& r.rc &&& m))) i

/-- The plain effect of a write: RW bits take the value, W1C bits written 1 clear, everything else stands (R12, R13). -/
def Dev.plainWrite (d : Dev) (r : Reg) (u i v : Nat) : Dev :=
  let old := (d.getR r u i).toNat
  let w := (v &&& r.rw) ||| (old &&& (2 ^ 64 - 1 - r.rw) &&& (2 ^ 64 - 1 - (v &&& r.w1c)))
  d.setR r u (BitVec.ofNat 64 w) i

/-- A write of a core's registers other than COR_CTRL (Tables 2-8, 7-10): state windows only while HALTED (R82). -/
def Dev.wrCore (d : Dev) (r : Reg) (u i v : Nat) : Dev :=
  let c := r.code
  if [R.COR_SCALAR, R.COR_PRED, R.COR_LOOP, R.COR_DESC0, R.COR_DESC1, R.COR_SEM, R.COR_QENTRY].any (fun x => x.code == c) then
    if d.coreState u ≠ 0 then d.setF F.COR_STATUS_WR_REJ u 1
    else
      let d := d.plainWrite r u i v
      -- P0 reads 1 (R103)
      if c = R.COR_PRED.code then d.setFbit F.COR_PRED_P u 0 true else d
  else if c = R.COR_SEQ_ERR.code then
    -- clearing VALID also clears CODE (Table 3-22)
    let d := d.plainWrite r u i v
    if bitOf v 63 then d.setF F.COR_SEQ_ERR_CODE u 0 else d
  else if c = R.COR_QCTRL.code then d.wrQctrl u v
  else if c = R.COR_CHAN0.code then d.wrChan false u i false v
  else if c = R.COR_CHAN1.code then d.wrChan false u i true v
  else d.plainWrite r u i v

/-! Core registers by local address (R78). -/

/-- The local address of the core registers (R8). -/
def regsAt : Nat := 0x1F0000

/-- Whether a local run is an access to the core registers that R11 supports: 4 or 8 B, aligned. -/
def regRun (r : Nat × Nat) : Bool := regsAt ≤ r.1 && r.1 + r.2 ≤ regsAt + 0x10000 && accOk r.1 r.2

/-- Whether a local run leaves the mapped addresses of R78: the four memories, and the core registers in accesses of R11. -/
def localBad (rs : List (Nat × Nat)) : Bool := rs.any fun r => r.2 > 0 && r.1 + r.2 > 0x150000 && !regRun r

/-- The bytes of a local access to the core registers; a reserved offset reads 0 (R13). -/
def Dev.ownRead (d : Dev) (u : Nat) (r : Nat × Nat) : List Byte :=
  match findReg bCOR (r.1 - regsAt) with
  | some (g, i) => leBytes r.2 (d.coreRegVal u g i / 2 ^ (8 * (r.1 % 8)))
  | none => zeros r.2

/-- What a local read of core registers does to them (R12). -/
def Dev.ownReadEnd (d : Dev) (u : Nat) (rs : List (Nat × Nat)) : Dev :=
  d.each (rs.filter fun r => regRun r && r.2 ≠ 0) fun d r =>
    match findReg bCOR (r.1 - regsAt) with
    | some (g, i) =>
      let d := if g.code = R.COR_QENTRY.code then d.took else d
      d.clearRc g (regUnit g bCOR u) i (accMask r.1 r.2)
    | none => d

end Sys2Proof.Machine
end

