-- ==== Sys2Proof/Machine/Operands.lean ====
section
/-! DEFINITION. Operand descriptors, the spaces they address, and the routing of a global address (spec/03 R104 to R119,
spec/02 R63, R78, spec/06 R241). A descriptor is its 128 bits as a number. -/

namespace Sys2Proof.Machine

/-! Error codes of Table 3-18. -/

/-- ILLEGAL. -/
def eIllegal : Nat := 1
/-- FORMAT. -/
def eFormat : Nat := 2
/-- SPACE. -/
def eSpace : Nat := 3
/-- SHAPE. -/
def eShape : Nat := 4
/-- REDUCTION. -/
def eReduction : Nat := 5
/-- TRANSPOSE. -/
def eTranspose : Nat := 6
/-- ALIGN. -/
def eAlign : Nat := 7
/-- UNMAPPED. -/
def eUnmapped : Nat := 8
/-- SEM_RANGE. -/
def eSemRange : Nat := 9
/-- PC_END. -/
def ePcEnd : Nat := 10
/-- STOP_ECC. -/
def eStopEcc : Nat := 11
/-- WAIT_TMO. -/
def eWaitTmo : Nat := 12

/-! Descriptor fields (Tables 3-4, 3-6, 3-7). -/

/-- FMT. -/
def dFmt (x : Nat) : Option Fmt := Fmt.ofCode (bitsOf x 60 4)
/-- SCALE. -/
def dScale (x : Nat) : Nat := bitsOf x 58 2
/-- KIND. -/
def dKind (x : Nat) : Nat := bitsOf x 57 1
/-- SPACE. -/
def dSpace (x : Nat) : Nat := bitsOf x 54 3
/-- SPARSE. -/
def dSparse (x : Nat) : Nat := bitsOf x 52 2
/-- TR. -/
def dTr (x : Nat) : Bool := bitOf x 51
/-- BASE. -/
def dBase (x : Nat) : Nat := bitsOf x 0 48
/-- The innermost extent. -/
def dExt0 (x : Nat) : Nat := bitsOf x 112 16 + 1
/-- The middle extent. -/
def dExt1 (x : Nat) : Nat := bitsOf x 100 12 + 1
/-- The outer extent. -/
def dExt2 (x : Nat) : Nat := bitsOf x 92 8 + 1
/-- The stride of the middle extent in bytes. -/
def dStr1 (x : Nat) : Nat := bitsOf x 78 14 * 8
/-- The stride of the outer extent in bytes. -/
def dStr2 (x : Nat) : Nat := bitsOf x 64 14 * 8
/-- K of a weight matrix. -/
def dK (x : Nat) : Nat := bitsOf x 113 15 + 1
/-- N of a weight matrix. -/
def dN (x : Nat) : Nat := (bitsOf x 101 12 + 1) * 8
/-- The local address of the block exponents. -/
def dExpBase (x : Nat) : Nat := bitsOf x 83 18 * 8
/-- The local address of the sparse indices. -/
def dIdxBase (x : Nat) : Nat := bitsOf x 65 18 * 8
/-- The number of elements. -/
def dCount (x : Nat) : Nat := dExt0 x * dExt1 x * dExt2 x

/-- The first error among checks in their order. -/
def firstErr (xs : List (Bool × Nat)) : Option Nat := (xs.find? fun x => x.1).map fun x => x.2

/-- Whether a format may carry SCALE ·k16 or ·k32 (R153). -/
def scaleBad (x : Nat) : Bool :=
  (dScale x = 1 || dScale x = 2) && !(match dFmt x with
    | some f => f.isShortFloat
    | none => false)

/-- The checks of a KIND 0 descriptor that hold for every use (R104 to R106, R153, R625). -/
def checkK0 (x : Nat) : Option Nat :=
  firstErr [(dKind x = 1, eSpace), (bitsOf x 48 3 ≠ 0 || dSparse x ≠ 0 || dTr x, eIllegal),
    ((dFmt x).isNone, eFormat), (scaleBad x, eFormat), (dSpace x > 4, eSpace),
    (dSpace x = 4 && dBase x ≥ 8, eSpace)]

/-- The format of a descriptor; RAW8 stands for an invalid code, which is checked before. -/
def fmtOf (x : Nat) : Fmt := (dFmt x).getD .raw8

/-- Bytes of one innermost run as stored outside the activation buffer. -/
def runBytes (x : Nat) : Nat := dExt0 x * (fmtOf x).bits / 8

/-- The runs of a descriptor outside the activation buffer, as (address, bytes), in extent order (R107). -/
def opRuns (x : Nat) : List (Nat × Nat) :=
  (List.range (dExt2 x)).flatMap fun i2 =>
    (List.range (dExt1 x)).map fun i1 => (dBase x + i1 * dStr1 x + i2 * dStr2 x, runBytes x)

/-- Bytes of an element in the activation buffer: 4-bit elements are widened (R109). -/
def abufElem (f : Fmt) : Nat := if f.bits = 4 then 1 else f.bits / 8

/-- The rows of an activation-buffer operand whose elements take `eb` bytes (R109). -/
def abufRuns (x eb : Nat) : List (Nat × Nat) :=
  (List.range (dExt1 x)).map fun i => (bitsOf x 15 1 * 32768 + i * 8192 + bitsOf x 0 13, dExt0 x * eb)

/-- The checks of an activation-buffer operand whose elements take `eb` bytes (R109, R50). -/
def abufCheck (x eb : Nat) : Option Nat :=
  firstErr [(dExt1 x > 4, eShape), (eb ≤ 2 && dExt0 x * eb > 8192, eReduction),
    (bitsOf x 0 13 + dExt0 x * eb > 8192, eShape)]

/-- Total bytes of runs. -/
def runTotal (rs : List (Nat × Nat)) : Nat := (rs.map fun r => r.2).sum

/-- Whether a run passes a bound. -/
def runsPast (rs : List (Nat × Nat)) (n : Nat) : Bool := rs.any fun r => r.2 > 0 && r.1 + r.2 > n

/-- A 4-bit innermost extent must be even (R108). -/
def oddShape (x : Nat) : Bool := (fmtOf x).bits = 4 && dExt0 x % 2 = 1

/-- The checks of an operand in SPACE local (R78, R108, R124). -/
def checkLocal (x : Nat) : Option Nat :=
  match checkK0 x with
  | some e => some e
  | none =>
    firstErr [(dSpace x ≠ 0, eSpace), (oddShape x, eShape), (localBad (opRuns x), eUnmapped)]

/-! Access to the spaces a core reaches directly. -/

/-- Read runs of a space of core u: 0 local, 2 CSM, 3 activation buffer, 4 the head message of a queue. -/
def State.rdRuns (s : State) (u space base : Nat) (rs : List (Nat × Nat)) : List Byte :=
  rs.flatMap fun r =>
    if space = 0 then (if regRun r then s.dev.ownRead u r else s.get (coreBase (u / 256) (u % 256) + r.1) r.2)
    else if space = 2 then s.getCsm (u / 256) r.1 r.2
    else if space = 3 then peekN s.abuf (u * 65536 + r.1) r.2
    else
      match s.dev.qHead u (base % 8) with
      | some m => takeZ r.2 (m.body.drop (r.1 - base))
      | none => zeros r.2

/-- Write bytes over runs of a space of core u, as far as the bytes reach. -/
def State.wrRuns (s : State) (u space : Nat) : List (Nat × Nat) → List Byte → State
  | [], _ => s
  | r :: rs, bs =>
    let x := bs.take r.2
    let t :=
      if space = 0 then s.put (coreBase (u / 256) (u % 256) + r.1) x
      else if space = 2 then s.putCsm (u / 256) r.1 x
      else { s with abuf := pokeN s.abuf (u * 65536 + r.1) x }
    t.wrRuns u space rs (bs.drop r.2)

/-- The elements of bytes, in order. -/
def unpack (bits : Nat) (bs : List Byte) : List Nat :=
  if bits = 4 then bs.flatMap fun b => [b.toNat % 16, b.toNat / 16]
  else (List.range (bs.length / (bits / 8))).map fun i => leAt bs (bits / 8 * i) (bits / 8)

/-- Pairs of 4-bit elements as bytes, the lower-numbered in bits [3:0]. -/
def packNib : List Nat → List Byte
  | a :: b :: r => BitVec.ofNat 8 (a % 16 + b % 16 * 16) :: packNib r
  | [a] => [BitVec.ofNat 8 (a % 16)]
  | [] => []

/-- The bytes of elements. -/
def pack (bits : Nat) (xs : List Nat) : List Byte :=
  if bits = 4 then packNib xs else xs.flatMap fun v => leBytes (bits / 8) v

/-- A widened 4-bit element (R110). -/
def widen (f : Fmt) (v : Nat) : Nat :=
  if f == .i4 then (if v % 16 < 8 then v % 16 else v % 16 + 0xF0)
  else
    let m := [0x00, 0x30, 0x38, 0x3C, 0x40, 0x44, 0x48, 0x4C].getD (v % 8) 0
    if v % 16 > 8 then m + 0x80 else m

/-- The 4-bit element whose widened code a byte of the activation buffer holds; where a byte is no widened code the
manual states no value (assumption 17). -/
def narrow (f : Fmt) (b : Nat) : Nat :=
  match (List.range 16).find? fun v => widen f v == b with
  | some v => v
  | none => Config.abufNarrow f.code b % 16

/-! ECC marks met by reads (R75, R76, R556). -/

/-- The words of 8 B that a local run touches and that carry a mark. -/
def State.marked (s : State) (u mark : Nat) (rs : List (Nat × Nat)) : List Nat :=
  let b := coreBase (u / 256) (u % 256)
  rs.flatMap fun r =>
    if r.2 = 0 then []
    else ((List.range ((r.1 % 8 + r.2 + 7) / 8)).map fun i => r.1 / 8 * 8 + 8 * i).filter fun a =>
      sget s.ecc 0 (b + a) == mark

/-- Count corrected errors of a core's memories (R75). -/
def Dev.countCe (d : Dev) (u : Nat) (las : List Nat) : Dev :=
  d.each las fun d la =>
    let f := if la < 0x100000 then F.COR_ECC_STATUS_CE_WM else F.COR_ECC_STATUS_CE_OTHER
    let d' := d.addSat f u 1
    if d.fld f u < 1024 && d'.fld f u ≥ 1024 then d'.raise (evU bCOR u) 2 0 0 else d'

/-- Count corrected words of a CSM (R556). -/
def Dev.countCsm (d : Dev) (site n off : Nat) : Dev :=
  let k := (d.clu site).csmCe + n
  let d := d.modClu site fun x => { x with csmCe := k % 1024 }
  if k ≥ 1024 then d.raise (evU bCLU site) 11 0 (off / 64) else d

/-- A read of CSM: corrected words count; an uncorrectable word reads zero, and CLU raises CSM_UE (R556). The Boolean
says that one was met. -/
def State.csmRead (s : State) (site a n : Nat) : State × List Byte × Bool :=
  let b := csmBase site
  let words := (List.range ((a % 8 + n + 7) / 8)).map fun i => a / 8 * 8 + 8 * i
  let ce := words.filter fun w => sget s.ecc 0 (b + w) == 1
  let ue := words.filter fun w => sget s.ecc 0 (b + w) == 2
  let bs := ((List.range n).zip (s.getCsm site a n)).map fun x => if ue.contains ((a + x.1) / 8 * 8) then (0 : Byte) else x.2
  let s := s.onDev fun d =>
    let d := d.countEv site evCsm (csmLines a n)
    let d := if ce.isEmpty then d else d.countCsm site ce.length a
    match ue with
    | [] => d
    | w :: _ => d.raise (evU bCLU site) 12 1 (w / 64)
  (s, bs, !ue.isEmpty)

/-! What a word does at its start. -/

/-- The outcome of a word's start: it waits (with the STALL code), meets a descriptor error, consumes an uncorrectable
word, or starts, with the results that it writes when it completes. -/
inductive Start where
  | wait (code : Nat)
  | err (code : Nat)
  | ue (la : Nat) (s : State)
  | ok (s : State) (r : WordRes := WordRes.none)

/-- Go on after checks. -/
def orErr (e : Option Nat) (k : Unit → Start) : Start :=
  match e with
  | some c => .err c
  | none => k ()

/-- Go on after the local reads of a word: corrected words count (R75), and an uncorrectable word stops it (R76). `once` says that the
word reads each 8 B word once, though several of its runs name it. -/
def State.reads (s : State) (u : Nat) (rs : List (Nat × Nat)) (k : State → Start) (once : Bool := false) : Start :=
  let ce := s.marked u 1 rs
  let t := s.onDev fun d => d.countCe u (if once then ce.eraseDups else ce)
  match s.marked u 2 rs with
  | la :: _ => .ue la t
  | [] =>
    match k t with
    | .ok t r => .ok (t.onDev fun d => d.ownReadEnd u rs) r
    | x => x

/-- The bytes of a result over runs of a space, as far as they reach. -/
def resRuns (space : Nat) : List (Nat × Nat) → List Byte → List (Nat × Nat × List Byte)
  | [], _ => []
  | r :: rs, bs => (space, r.1, bs.take r.2) :: resRuns space rs (bs.drop r.2)

/-- A result of bytes alone. -/
def WordRes.ofMem (m : List (Nat × Nat × List Byte)) : WordRes := { WordRes.none with mem := m }

/-- A result of one scalar with flags. -/
def WordRes.ofScal (i v fl : Nat) : WordRes := { WordRes.none with scal := [(i, v)], flags := fl }

/-- The runs of a destination as far as n bytes reach (R118). -/
def cutRuns : List (Nat × Nat) → Nat → List (Nat × Nat)
  | [], _ => []
  | r :: rs, n => if n = 0 then [] else (r.1, min r.2 n) :: cutRuns rs (n - min r.2 n)

/-! Global addresses (R241 to R243). -/

/-- The face of an HBM or Cellar address as (site, port) (R305, R306, R327). -/
def Dev.memFace (d : Dev) (a : Nat) : Nat × Nat :=
  if a < 0x200000000000 then
    let h := (a - 0x100000000000) / 0x1000000000
    (hbmFace h (a / 256 % 2), hbmPort h)
  else (celFace (d.celChan (a - 0x200000000000)), 5)

/-- Where a gateway or edge port of a site sends an access to a global address in an epoch: (DST_SITE, DST_CORE,
logical core); none for an unmapped address (R241). -/
def Dev.route (d : Dev) (site ep a : Nat) : Option (Nat × Nat × Bool) :=
  match d.place (d.mapSite site ep) a with
  | .unmapped => none
  | .host _ => some (244, 61, false)
  | .resv => some (siteOf ((a - 0x20000000) / 0x100000) 0, 63, false)
  | .reg blk inst _ =>
    if blk = 1 || blk = 2 then
      let lg := decide (0x1800000000 ≤ a)
      let ds := if lg then (d.mapSite site ep ((a - 0x1800000000) / 0x8000000)).getD 0 else (a - 0x1000000000) / 0x8000000
      some (ds, if blk = 2 then 60 else (a % 0x8000000 - 0x1000000) / 0x200000, lg)
    else if blk = 3 then some (siteOf (fieldOf inst) 0, 63, false)
    else if blk = 4 || blk = 18 then some (siteOf inst 0, 63, false)
    else
      let f := blockFace blk inst
      some (f.1, edgeCore f.2, false)
  | .mem _ =>
    if a < 0x100000000000 then
      let lg := decide (0x1800000000 ≤ a)
      let ds := if lg then (d.mapSite site ep ((a - 0x1800000000) / 0x8000000)).getD 0 else (a - 0x1000000000) / 0x8000000
      some (ds, if a % 0x8000000 < 0x1000000 then 60 else (a % 0x8000000 - 0x1000000) / 0x200000, lg)
    else
      let f := d.memFace a
      some (f.1, edgeCore f.2, false)

/-- Cut a global range into pieces that one packet carries: at most 2,032 B, inside one HBM granule or 4 KiB (R243). -/
def gPieces : Nat → Nat → Nat → List (Nat × Nat)
  | 0, _, _ => []
  | k + 1, a, n =>
    if n = 0 then []
    else
      let lim := if 0x100000000000 ≤ a && a < 0x200000000000 then 256 - a % 256 else 4096 - a % 4096
      let m := min n (min 2032 lim)
      (a, m) :: gPieces k (a + m) (n - m)

/-- The pieces of runs of global addresses, as (offset in the data, address, bytes). -/
def runPieces (rs : List (Nat × Nat)) : List (Nat × Nat × Nat) :=
  (rs.foldl (fun x r =>
    let ps := gPieces (r.2 / 8 + 1) r.1 r.2
    (ps.foldl (fun y p => (y.1 ++ [(y.2, p.1, p.2)], y.2 + p.2)) x)) ([], 0)).1

/-- A notice of class ADDR_ERR of a core (R10). -/
def Dev.corAddrErr (d : Dev) (u pc : Nat) : Dev := d.raise (evU bCOR u) 12 0 pc

/-- Inject the reads of a word with a global source: unmapped pieces read zero with ADDR_ERR. The answer is the number
of reads outstanding. A global address inside the core's own window goes through the cluster router like any other: R64 names only
addresses outside it (assumption 97). -/
def Dev.issueReads (d : Dev) (u ep seq pc : Nat) (rs : List (Nat × Nat)) : Dev × Nat :=
  (runPieces rs).foldl (fun x p =>
    match x.1.route (u / 256) ep p.2.1 with
    | none => (x.1.corAddrErr u pc, x.2)
    | some (ds, dc, lg) =>
      let w := (p.2.2 + 7) / 8
      let k := mkPkt 2 (u / 256) (u % 256) ds dc (ep = 1) ((w - 1) * 65536) p.2.1 lg []
      (x.1.inject (u / 256) 4 [k] (some (.read u seq p.1 p.2.2)), x.2 + 1)) (d, 0)

/-- Inject the writes of a word with a global destination: an unmapped piece is discarded with ADDR_ERR. Runs past
the end of the bytes are left alone (R118). -/
def Dev.issueWrites (d : Dev) (u ep seq pc : Nat) (rs : List (Nat × Nat)) (bs : List Byte) : Dev :=
  d.each (runPieces (cutRuns rs bs.length)) fun d p =>
    match d.route (u / 256) ep p.2.1 with
    | none => d.corAddrErr u pc
    | some (ds, dc, lg) =>
      let body := (bs.drop p.1).take p.2.2
      let k := mkPkt 1 (u / 256) (u % 256) ds dc (ep = 1) (((body.length + 7) / 8 - 1) * 65536) p.2.1 lg body
      d.inject (u / 256) 4 [k] (some (.write u seq pc))

end Sys2Proof.Machine
end

