-- ==== Sys2Proof/Machine/CubeDot.lean ====
section
/-! DEFINITION. The cube and dot engines: weight matrices in WM, sparse weights, zero-skip, accumulation and the checksum
column (spec/02 R45 to R58, spec/03 R112 to R123, spec/04 R152 to R160, spec/05 R175 to R183). -/

namespace Sys2Proof.Machine

/-- Positions per line of a weight format (R112). -/
def linePos (f : Fmt) : Nat := if f.bits = 4 then 32 else if f.bits = 8 then 16 else 8

/-- Index bytes per line (Table 5-2). -/
def lineIdx (f : Fmt) : Nat := linePos f * 2

/-- Whether the pass is of the 16-bit class (R45). -/
def is16 (a w : Fmt) : Bool := a.bits = 16 || w.bits = 16

/-- k of a cube k-step (Table 2-1). -/
def cubeK (a w : Fmt) : Nat := if is16 a w then 8 else if w.bits = 4 then 32 else 16

/-- The reduction columns of a transposed step (Table 3-9). -/
def trRed (a w : Fmt) : Nat := if is16 a w then 4 else 8

/-- The output positions of a transposed step (Table 3-9). -/
def trOut (a w : Fmt) : Nat := if !is16 a w && w.bits = 4 then 32 else 16

/-- The size of a dot tree (R56). -/
def dotK (a w : Fmt) : Nat := if is16 a w then 8 else 16

/-- The reduction block of a block-scaled matrix (R115). -/
def blkSize (w : Nat) : Nat := if dScale w = 1 then 16 else 32

/-- Stored positions along the reduction (R48). -/
def kStored (w : Nat) : Nat := if dSparse w = 1 then dK w / 2 else if dSparse w = 2 then dK w / 4 else dK w

/-- Lines of a column group (R112). -/
def linesOf (w : Nat) : Nat := (kStored w + linePos (fmtOf w) - 1) / linePos (fmtOf w)

/-- A byte of a core's memory by local address. -/
def State.la (s : State) (u a : Nat) : Nat := (peek s.mem (coreBase (u / 256) (u % 256) + a)).toNat

/-- The logical chunk and element of stored position q of a line, column jj of the group (Table 3-8). -/
def chunkOf (f : Fmt) (q jj : Nat) : Nat × Nat :=
  if f.bits = 4 then (q / 2, q % 2 * 8 + jj) else if f.bits = 8 then (q, jj) else (2 * q + jj / 4, jj % 4)

/-- The bits of the weight at stored position P, column j (R112, R113). -/
def State.wBits (s : State) (u w P j : Nat) : Nat :=
  let f := fmtOf w
  let a := dBase w + 128 * (j / 8 * linesOf w + P / linePos f)
  let c := chunkOf f (P % linePos f) (j % 8)
  let b := a + 8 * ((a / 128 + c.1) % 16)
  if f.bits = 4 then s.la u (b + c.2 / 2) / (if c.2 % 2 = 0 then 1 else 16) % 16
  else if f.bits = 8 then s.la u (b + c.2)
  else s.la u (b + 2 * c.2) + 256 * s.la u (b + 2 * c.2 + 1)

/-- The reduction position that stored position P of column j stands for (R176, R177). -/
def State.redPos (s : State) (u w P j : Nat) : Nat :=
  if dSparse w = 0 then P
  else
    let f := fmtOf w
    let c := chunkOf f (P % linePos f) (j % 8)
    let n := 64 / f.bits * c.1 + c.2
    let a := dIdxBase w + lineIdx f * (j / 8 * linesOf w + P / linePos f)
    let idx := s.la u (a + n / 4) / 4 ^ (n % 4) % 4
    if dSparse w = 1 then 4 * (P / 2) + idx else 4 * P + idx

/-- A weight with its block exponent applied (R115, R152). -/
def State.wVal (s : State) (u w P j : Nat) : Num :=
  let v := numOf (fmtOf w) (s.wBits u w P j)
  if dScale w = 1 || dScale w = 2 then
    let nb := (dK w + blkSize w - 1) / blkSize w
    let e := s.la u (dExpBase w + 8 * (j / 8 * nb + s.redPos u w P j / blkSize w) + j % 8)
    if e = 0xFF then .dnan
    else match v with
      | .fin n m x => .fin n m (x + (e : Int) - 127)
      | y => y
  else v

/-- The zero at a reduction position that a sparse column stores no weight for, with its block exponent (R56, R152). -/
def State.expandZero (s : State) (u w q j : Nat) : Num :=
  if dScale w = 1 || dScale w = 2 then
    let nb := (dK w + blkSize w - 1) / blkSize w
    if s.la u (dExpBase w + 8 * (j / 8 * nb + q / blkSize w) + j % 8) = 0xFF then .dnan else .fin false 0 0
  else .fin false 0 0

/-- The number format in which the activation buffer holds a format: 4-bit elements are widened (R110). -/
def actFmt (f : Fmt) : Fmt := if f == .m4 then .m8 else if f == .i4 then .i8 else f

/-- Whether an activation is skipped at threshold T (R181). -/
def skips (isInt : Bool) (t : Nat) (a : Num) : Bool :=
  match a with
  | .fin _ m e =>
    if m = 0 then true
    else if isInt || t = 0 then false
    else (Num.fin false (m * m * m * m) (4 * e)).cmp (.fin false 1 ((t : Int) - 40)) == .lt
  | _ => false

/-- A product (R156, R158). -/
def prodOf (a w : Num) : Num := if a.isNan || w.isNan then .dnan else (Num.mul a w).1

/-- The magnitude exponent of a finite non-zero value. -/
def magExp : Num → Option Int
  | .fin _ m e => if m = 0 then none else some (e + (bitLen m : Int) - 1)
  | _ => none

/-- A product cut at weight 2^(q − 30), toward zero (R156). -/
def cutAt (q : Int) : Num → Int × Int
  | .fin s m e =>
    let lim := q - 30
    let x : Int := if e < lim then ((m / 2 ^ (lim - e).toNat : Nat) : Int) else (m : Int)
    (if s then -x else x, if e < lim then lim else e)
  | _ => (0, 0)

/-- The sum of a step or tree, steps 1 to 4 of R156 and R158: the binary32 value and whether it overflowed. -/
def stepSum (ps : List Num) : Num × Bool :=
  let pinf := ps.any fun p => p == .inf false
  let ninf := ps.any fun p => p == .inf true
  if ps.any Num.isNan || (pinf && ninf) then (.dnan, false)
  else if pinf then (.inf false, false)
  else if ninf then (.inf true, false)
  else
    let q := (ps.filterMap magExp).foldl (fun a x => match a with
      | none => some x
      | some y => some (if y < x then x else y)) (none : Option Int)
    match q with
    | none => (.fin false 0 0, false)
    | some q =>
      let t := dyadicSum (ps.map (cutAt q))
      let r := toLong .b32 .rne false (.fin (decide (t.1 < 0)) t.1.natAbs t.2)
      (numOf .b32 r.1, r.2 &&& fpOverflow ≠ 0)

/-- Add a step to an accumulator, step 5 of R156 and R158: binary32 bits and flags. -/
def accStep (acc : Nat × Nat) (st : Num × Bool) : Nat × Nat :=
  let a := numOf .b32 acc.1
  let f0 := acc.2 ||| (if st.1.isNan then fpInvalid else 0) ||| (if st.2 then fpOverflow else 0)
  if a.isNan || st.1.isNan then (0x7FC00000, f0)
  else
    let r := Num.add .rne a st.1
    if r.1.isNan then (0x7FC00000, f0 ||| fpInvalid)
    else
      let o := toLong .b32 .rne false r.1
      (o.1, f0 ||| (o.2 &&& fpOverflow))

/-- One output of a floating pass: the steps' products accumulated from +0. Empty steps are left out (R182). -/
def macFp (steps : List (List Num)) : Nat × Nat :=
  (steps.filter fun x => !x.isEmpty).foldl (fun acc ps => accStep acc (stepSum ps)) (0, 0)

/-- One output of an integer pass: exact, modulo 2^32 (R157). -/
def macInt (steps : List (List Num)) : Nat × Nat :=
  let v := (steps.map fun ps => (ps.map fun p => match p with
    | .fin s m e => (if s then -((m * 2 ^ e.toNat : Nat) : Int) else ((m * 2 ^ e.toNat : Nat) : Int))
    | _ => 0).sum).sum
  (ofSigned 32 v, 0)

/-- The sum of weights of a checksum column, exact (R53). -/
def wSum (ws : List Num) : Num :=
  if ws.any Num.isNan then .dnan else ws.foldl (fun a w => if a.isNan then a else (Num.add .rne a w).1) (.fin false 0 0)

/-- The lists [0, k), [k, 2k), … that cover n. -/
def blocks (n k : Nat) : List (List Nat) :=
  (List.range ((n + k - 1) / k)).map fun t => (List.range (min k (n - t * k))).map fun i => t * k + i

/-- The steps of output o: for each step the (reduction position, weight) pairs. `cube` tells the engine. -/
def State.stepsOf (s : State) (u w o : Nat) (a : Fmt) (cube : Bool) : List (List (Nat × Num)) :=
  let f := fmtOf w
  if dTr w then
    (blocks (dN w) (if cube then trRed a f else dotK a f)).map fun b => b.map fun j => (j, s.wVal u w o j)
  else if cube then
    (blocks (kStored w) (cubeK a f)).map fun b => b.map fun p => (s.redPos u w p o, s.wVal u w p o)
  else
    -- the dot engine expands sparse weights to dense form: a position without a stored weight holds a zero (R56)
    let all := (List.range (kStored w)).map fun p => (s.redPos u w p o, s.wVal u w p o)
    (blocks (dK w) (dotK a f)).map fun b => b.flatMap fun q =>
      match all.filter fun x => x.1 == q with
      | [] => [(q, s.expandZero u w q o)]
      | xs => xs

/-- The columns or positions of the checksum blocks (R53, R123). -/
def chkBlocks (w : Nat) (a : Fmt) : List (List Nat) :=
  if dTr w then blocks (dK w) (trOut a (fmtOf w)) else blocks (dN w) 8

/-- The reduction positions of each cube step. -/
def cubePos (w : Nat) (a : Fmt) : List (List Nat) :=
  let k := cubeK a (fmtOf w)
  if dTr w then blocks (dN w) (trRed a (fmtOf w))
  else blocks (dK w) (if dSparse w = 1 then 2 * k else if dSparse w = 2 then 4 * k else k)

/-- The steps of a checksum column over a block of outputs: for each step the (reduction position, weight sum). -/
def State.chkSteps (s : State) (u w : Nat) (a : Fmt) (outs : List Nat) : List (List (Nat × Num)) :=
  let all := outs.map fun o => s.stepsOf u w o a true
  (cubePos w a).zipIdx.map fun x =>
    let items := all.flatMap fun st => st.getD x.2 []
    x.1.map fun p => (p, wSum ((items.filter fun y => y.1 == p).map fun y => y.2))

/-- An activation of a row as the products take it: a skipped element enters as zero (R182). -/
def actAt (isInt : Bool) (t : Nat) (row : List Num) (q : Nat) : Num :=
  let a := row.getD q (.fin false 0 0)
  if skips isInt t a then .fin false 0 0 else a

/-- The products of a row with steps (R152, R156, R182). -/
def rowProds (isInt : Bool) (t : Nat) (row : List Num) (steps : List (List (Nat × Num))) : List (List Num) :=
  steps.map fun st => st.map fun x => prodOf (actAt isInt t row x.1) x.2

/-- The reduction positions of each step of the cube, or of each group of the dot engine (R47, R56). -/
def stepSlices (w : Nat) (a : Fmt) (cube : Bool) : List (List Nat) :=
  if cube then cubePos w a else blocks (if dTr w then dN w else dK w) (dotK a (fmtOf w))

/-- The steps that are made: a step whose activation slice is skipped in every live row is left out (R182). -/
def liveSteps (isInt : Bool) (t : Nat) (rows : List (List Num)) (slices : List (List Nat)) : List Nat :=
  (List.range slices.length).filter fun i =>
    !((slices.getD i []).all fun q => rows.all fun row => skips isInt t (row.getD q (.fin false 0 0)))

/-- The steps with given numbers. -/
def pickSteps {α : Type} (live : List Nat) (steps : List (List α)) : List (List α) := live.map fun i => steps.getD i []

/-- A value as a fraction numerator over 2^200, for exact comparisons of finite binary32 values. -/
def scaled (v : Num) : Int :=
  match v with
  | .fin s m e => (if s then -((m * 2 ^ (e + 200).toNat : Nat) : Int) else ((m * 2 ^ (e + 200).toNat : Nat) : Int))
  | _ => 0

/-- The tolerance of R54: 2^(−TOL_ABS) + 2^(−TOL_REL) · x, over 2^232, where x is over 2^200. -/
def tolOf (abs rel : Nat) (x : Int) : Int :=
  let r := if 4 ≤ rel && rel ≤ 24 then rel else 24
  (if abs = 63 then 0 else (2 ^ (232 - abs) : Int)) + x * 2 ^ (32 - r)

/-- Whether a row passes the check of R54 and R160. -/
def rowPass (isInt : Bool) (abs rel : Nat) (ys : List Nat) (c : Nat) : Bool :=
  if isInt then (ys.sum % 2 ^ 32) == c
  else
    let vs := ys.map (numOf .b32)
    let cv := numOf .b32 c
    if !cv.isFin || vs.any fun v => !v.isFin then false
    else
      let sum := (vs.map scaled).sum
      let mag := (vs.map fun v => ((scaled v).natAbs : Int)).sum
      decide (((sum - scaled cv).natAbs : Int) * 2 ^ 32 ≤ tolOf abs rel mag)

/-- The descriptor errors of a CUBE or DOT word. A weight matrix, its exponents or its indices that run past the end of WM are
UNMAPPED, although AM follows WM (assumption 99) (R45, R50, R109, R111, R114, R116, R121, R153). -/
def macErr (a w p : Nat) : Option Nat :=
  let fa := fmtOf a
  let fw := fmtOf w
  let fp := fmtOf p
  let red := if dTr w then dN w else dK w
  let out := if dTr w then dK w else dN w
  let isI := fw == .i8 || fw == .i4
  let aI := fa == .i8 || fa == .i4
  match checkK0 a, checkK0 p with
  | some e, _ => some e
  | _, some e => some e
  | none, none =>
    -- which code stands when one word breaks several rules is the order of this list (assumption 94)
    firstErr [(dKind w ≠ 1, eSpace), (dSpace a ≠ 3, eSpace), (dSpace w ≠ 0, eSpace), (dSpace p ≠ 0, eSpace),
      (bitsOf w 48 3 ≠ 0 || bitOf w 64 || dSparse w = 3, eIllegal), ((dFmt w).isNone, eFormat), (scaleBad w, eFormat),
      (!(fa == .m8 || fa == .m4 || fa == .e8m7 || fa == .b16 || aI), eFormat),
      (dScale a = 1 || dScale a = 2, eFormat),
      (!(fw == .m8 || fw == .m6 || fw == .m4 || fw == .e8m7 || fw == .b16 || isI), eFormat),
      (isI != aI, eFormat), (if isI then fp ≠ .i32 else fp ≠ .b32, eFormat),
      (dBase w ≥ 0x100000, eSpace), (dBase w % 128 ≠ 0, eAlign),
      (dTr w && (dSparse w ≠ 0 || dScale w = 1 || dScale w = 2 || dBase w % 2048 ≠ 0 || linesOf w % 16 ≠ 0), eTranspose),
      (dSparse w ≠ 0 && dK w % 4 ≠ 0, eShape),
      (oddShape a, eShape), (dExt0 a * abufElem fa > 8192, eReduction), (dExt1 a > 4, eShape),
      (bitsOf a 0 13 + dExt0 a * abufElem fa > 8192, eShape),
      (dExt0 a ≠ red, eShape), (dExt0 p ≠ out, eShape), (dExt1 p < dExt1 a, eShape),
      ((opRuns p).any fun r => r.1 < 0x130000 || r.1 + r.2 > 0x140000, eSpace),
      (dBase w + 128 * (dN w / 8 * linesOf w) > 0x100000, eUnmapped),
      ((dScale w = 1 || dScale w = 2) &&
        dExpBase w + dN w * ((dK w + blkSize w - 1) / blkSize w) > 0x100000, eUnmapped),
      (dSparse w ≠ 0 && dIdxBase w + lineIdx fw * (dN w / 8 * linesOf w) > 0x100000, eUnmapped)]

/-- The bank word that holds stored position P of column j (Table 3-8). -/
def wWord (w P j : Nat) : Nat × Nat :=
  let f := fmtOf w
  let a := dBase w + 128 * (j / 8 * linesOf w + P / linePos f)
  (a + 8 * ((a / 128 + (chunkOf f (P % linePos f) (j % 8)).1) % 16), 8)

/-- The stored positions that step i of a pass along the lines takes: k of them for the cube, for the dot engine those of its
group of expanded positions (R48, R56). -/
def stepStored (w : Nat) (a : Fmt) (cube : Bool) (i : Nat) : Nat × Nat :=
  let k := if cube then cubeK a (fmtOf w)
    else dotK a (fmtOf w) / (if dSparse w = 1 then 2 else if dSparse w = 2 then 4 else 1)
  (i * k, min ((i + 1) * k) (linesOf w * linePos (fmtOf w)))

/-- The local ranges that a CUBE or DOT word reads in the steps that it makes: elements, block exponents and indices in WM, and with
ACC 1 the PM rows of its live rows. A step along the lines of the cube reads whole lines (R67); a transposed step, and the dot
engine, the bank words of their elements. A step that is left out reads nothing (R182). -/
def macReads (w p m : Nat) (a : Fmt) (acc cube : Bool) (slices : List (List Nat)) (live : List Nat) : List (Nat × Nat) :=
  let f := fmtOf w
  let gs := List.range (dN w / 8)
  let nb := (dK w + blkSize w - 1) / blkSize w
  let elems := live.flatMap fun i =>
    if dTr w then (slices.getD i []).flatMap fun j => (List.range (linesOf w * linePos f)).map fun P => wWord w P j
    else
      let st := stepStored w a cube i
      if cube then
        gs.flatMap fun g => (List.range ((st.2 + linePos f - 1) / linePos f - st.1 / linePos f)).map fun n =>
          (dBase w + 128 * (g * linesOf w + st.1 / linePos f + n), 128)
      else gs.flatMap fun g => (List.range 8).flatMap fun j => (List.range (st.2 - st.1)).map fun n => wWord w (st.1 + n) (8 * g + j)
  let exps := if !(dScale w = 1 || dScale w = 2) then [] else
    live.flatMap fun i => (((slices.getD i []).map fun q => q / blkSize w).eraseDups).flatMap fun b =>
      gs.map fun g => (dExpBase w + 8 * (g * nb + b), 8)
  let idxs := if dSparse w = 0 then [] else
    live.flatMap fun i =>
      let st := stepStored w a cube i
      gs.flatMap fun g => (List.range (st.2 - st.1)).map fun n =>
        (dIdxBase w + lineIdx f * (g * linesOf w + (st.1 + n) / linePos f) + 2 * ((st.1 + n) % linePos f), 2)
  elems ++ exps ++ idxs ++ (if acc then (opRuns p).take m else [])

/-- The estimator's events of a CUBE or DOT word: its k-steps or dot groups by operand class, and its 128 B WM reads (R448). -/
def macEvs (a : Fmt) (w : Nat) (cube : Bool) (steps : Nat) (reads : List (Nat × Nat)) : List (Nat × Nat) :=
  let k := cubeK a (fmtOf w)
  let cls := if k = 16 then 0 else if k = 32 then 1 else 2
  [(if cube then 3 * cls + dSparse w else if cls = 2 then 10 else 9, steps), (evWm, ((reads.map fun r => r.1 / 128).eraseDups).length)]

/-- The live rows of an activation operand. -/
def State.actRows (s : State) (u a : Nat) : List (List Num) :=
  let f := fmtOf a
  (abufRuns a (abufElem f)).map fun r =>
    (unpack (actFmt f).bits (s.rdRuns u 3 0 [r])).map (numOf (actFmt f))

/-- Set flags of COR_FP_FLAGS (R168). -/
def Dev.setFlags (d : Dev) (u fl : Nat) : Dev :=
  d.setR R.COR_FP_FLAGS u (BitVec.ofNat 64 ((d.getR R.COR_FP_FLAGS u).toNat ||| fl))

/-- Count the checks of a pass and handle its mismatches, each of which raises its event (R54, R55). In mode 3 the sequencer stops;
the words queued stay, which R55 leaves open (assumption 95). -/
def Dev.checkDone (d : Dev) (u pc mode blks bad : Nat) : Dev :=
  let d := d.addWrap F.COR_CHK_STATUS_CHECKED u blks
  if bad = 0 then d
  else
    let d := (d.addSat F.COR_CHK_STATUS_MISMATCHES u bad).setF F.COR_CHK_STATUS_LAST_PC u pc
    let d := if mode = 3 && d.coreState u ≠ 4 then (d.coreOff u 3).modCore u fun x => { x with held := none, halting := 0 } else d
    if mode ≥ 2 then d.each (List.range bad) fun d _ => d.raise (evU bCOR u) 1 1 pc else d

/-- The power of two at or below a finite non-zero magnitude, over 2^140 (R184). -/
def floorPow : Num → Nat
  | .fin _ m e => if m = 0 then 0 else 2 ^ (e + (bitLen m : Int) - 1 + 140).toNat
  | _ => 0

/-- Add the elements that a word broadcasts to the sums of the cluster's tick (R184): every element of the live rows, once per word
(assumption 101). -/
def Dev.broadcast (d : Dev) (site : Nat) (isInt : Bool) (t : Nat) (rows : List (List Num)) : Dev :=
  let es := rows.flatMap fun r => r
  d.modClu site fun x =>
    { x with bcast := x.bcast + es.length, allSum := x.allSum + (es.map floorPow).sum,
             dropSum := x.dropSum + ((es.filter (skips isInt t)).map floorPow).sum }

/-- A CUBE or DOT word at its start: `cubeWord` tells the word, and a CUBE word of a retired cube runs on the dot engine
(R57, R120, R122, R159). -/
def State.macStart (s : State) (u a w p : Nat) (acc cubeWord : Bool) : Start :=
  orErr (macErr a w p) fun _ =>
    let retired := s.dev.flag F.COR_CTRL_CUBE_RETIRED u
    let cube := cubeWord && !retired
    let fa := fmtOf a
    let fw := fmtOf w
    let isI := fw == .i8 || fw == .i4
    let t := s.dev.fld F.CLU_ZSK_STATUS_THR_CUR (u / 256)
    let rows := s.actRows u a
    let slices := stepSlices w fa cube
    let live := liveSteps isI t rows slices
    s.reads (once := true) u (macReads w p rows.length fa acc cube slices live) fun s =>
    let out := if dTr w then dK w else dN w
    let steps := (List.range out).map fun o => pickSteps live (s.stepsOf u w o fa cube)
    let mac := if isI then macInt else macFp
    let ys := rows.map fun row => steps.map fun st => mac (rowProds isI t row st)
    let flags := ys.foldl (fun f r => r.foldl (fun f y => f ||| y.2) f) 0
    -- ACC = 1 adds to the values in PM
    let prun (i : Nat) : List (Nat × Nat) := [(dBase p + i * dStr1 p, 4 * out)]
    let outs := ys.zipIdx.map fun x =>
      let ns := x.1.map fun y => y.1
      if acc then
        let old := unpack 32 (s.rdRuns u 0 0 (prun x.2))
        (ns.zip old).map fun y =>
          if isI then ((y.1 + y.2) % 2 ^ 32, 0)
          else accStep (if (numOf .b32 y.2).isNan then 0x7FC00000 else y.2, 0)
            (numOf .b32 y.1, false)
      else ns.map fun y => (y, 0)
    let fl := outs.foldl (fun f r => r.foldl (fun f y => f ||| y.2) f) flags
    let res := outs.zipIdx.flatMap fun x => resRuns 0 (prun x.2) (x.1.flatMap fun y => leBytes 4 y.1)
    let skipped := (slices.length - live.length) * (if cube then (chkBlocks w fa).length else 1)
    let mode := s.dev.fld F.COR_CHK_CTRL_MODE u
    let blks := chkBlocks w fa
    let bad := if cube && mode ≠ 0 then
        (blks.map fun b =>
          let cs := pickSteps live (s.chkSteps u w fa b)
          ((rows.zip ys).filter fun x =>
            let c := (mac (rowProds isI t x.1 cs)).1
            !rowPass isI (s.dev.fld F.COR_CHK_CTRL_TOL_ABS u) (s.dev.fld F.COR_CHK_CTRL_TOL_REL u)
              (b.map fun o => (x.2.getD o (0, 0)).1) c).length).sum
      else 0
    .ok (s.onDev fun d => d.broadcast (u / 256) isI t rows)
      { WordRes.ofMem res with evs := macEvs fa w cube (live.length * (if cube then blks.length else (out + 15) / 16))
                                        (macReads w p 0 fa false cube slices live),
                               flags := fl, skipped := skipped, unchecked := cubeWord && retired,
                               chk := if cube && mode ≠ 0 then some (mode, blks.length, bad) else none }

end Sys2Proof.Machine
end

