-- ==== Sys2Proof/Machine/Vector.lean ====
section
/-! DEFINITION. The vector engine: VOP, VRED, CVT and CHK (spec/03 R124 to R127, spec/04 R159 to R170). -/

namespace Sys2Proof.Machine

/-- The rounding attribute of a core (Table 2-16). -/
def Dev.rmode (d : Dev) (u : Nat) : RMode := RMode.ofCode (d.fld F.COR_FP_CTRL_RMODE u)

/-- LONG_SAT of a core. -/
def Dev.longSat (d : Dev) (u : Nat) : Bool := d.flag F.COR_FP_CTRL_LONG_SAT u

/-- The elements of a local operand. -/
def State.elems (s : State) (u x : Nat) : List Nat := unpack (fmtOf x).bits (s.rdRuns u 0 0 (opRuns x))

/-- The elements of a result over a local operand. -/
def resElems (x : Nat) (vs : List Nat) : List (Nat × Nat × List Byte) := resRuns 0 (opRuns x) (pack (fmtOf x).bits vs)

/-- Whether a VOP function reads b (Table 3-13). -/
def vopB (fn : Nat) : Bool := fn ≤ 0x08 || fn = 0x12
/-- Whether a VOP function reads c. -/
def vopC (fn : Nat) : Bool := fn = 0x03 || fn = 0x12

/-- Whether a descriptor's format is long. -/
def longOf (x : Nat) : Bool := match dFmt x with
  | some f => f.isLong
  | none => false

/-- The descriptor errors of a VOP word (R124). -/
def vopErr (fn a b c r : Nat) (bs : Bool) : Option Nat :=
  let ops := [a] ++ (if vopB fn && !bs then [b] else []) ++ (if vopC fn then [c] else [])
  match (ops ++ [r]).findSome? checkLocal with
  | some e => some e
  | none =>
    firstErr [(ops.any fun x => !longOf x || decide (fmtOf x ≠ fmtOf a), eFormat),
      (if fn = 0x13 then !longOf r && decide (fmtOf r ≠ .i32) else decide (fmtOf r ≠ fmtOf a), eFormat),
      ((ops ++ [r]).any fun x => decide (dCount x ≠ dCount a), eShape)]

/-- A VOP word at its start (R59 to R62, R124, R149 to R151). -/
def State.vopStart (s : State) (u fn a b c r sc : Nat) (bs : Bool) : Start :=
  orErr (vopErr fn a b c r bs) fun _ =>
    let rds := opRuns a ++ (if vopB fn && !bs then opRuns b else []) ++ (if vopC fn then opRuns c else [])
    s.reads u rds fun s =>
      let f := fmtOf a
      let md := s.dev.rmode u
      let sat := s.dev.longSat u
      let as := s.elems u a
      let sv := if bs && vopB fn then cpyElem .b32 f md sat sc else (0, 0)
      let xb := if vopB fn then (if bs then as.map fun _ => sv.1 else s.elems u b) else as.map fun _ => 0
      let xc := if vopC fn then s.elems u c else as.map fun _ => 0
      let rs := ((as.zip xb).zip xc).map fun x =>
        if fn = 0x13 then cpyElem f (fmtOf r) md sat x.1.1 else vopElem fn f md sat x.1.1 x.1.2 x.2
      let fl := rs.foldl (fun y x => y ||| x.2) sv.2
      .ok s { WordRes.ofMem (resElems r (rs.map fun x => x.1)) with flags := fl }

/-- The pairwise tree of R125 over lanes: `f` combines two values; lanes without one take no part. -/
def treeOf {α : Type} (f : α → α → α) : Nat → List (Option α) → Option α
  | 0, xs => (xs.head?).getD none
  | n + 1, xs =>
    let rec pairs : List (Option α) → List (Option α)
      | some a :: some b :: r => some (f a b) :: pairs r
      | some a :: none :: r => some a :: pairs r
      | none :: b :: r => b :: pairs r
      | [x] => [x]
      | [] => []
    treeOf f n (pairs xs)

/-- The elements of each lane, in element order. -/
def lanesOf {α : Type} (n : Nat) (xs : List α) : List (List α) :=
  (List.range n).map fun l => (xs.zipIdx.filter fun x => x.2 % n == l).map fun x => x.1

/-- The greater (or least) of indexed values with the lowest index (R125). -/
def argBest (max : Bool) (xs : List (Num × Nat)) : Nat :=
  match xs.foldl (fun (b : Option (Num × Nat)) x =>
    if x.1.isNan then b
    else match b with
      | none => some x
      | some y =>
        let o := y.1.cmp x.1
        if (max && o == .lt) || (!max && o == .gt) then some x else some y) none with
  | some y => y.2
  | none => 0

/-- A VRED word at its start (R125). -/
def State.vredStart (s : State) (u rfn a sd : Nat) : Start :=
  orErr (match checkLocal a with
    | some e => some e
    | none => firstErr [(!(longOf a || dFmt a == some .i32), eFormat)]) fun _ =>
  s.reads u (opRuns a) fun s =>
    let f := fmtOf a
    let sat := s.dev.longSat u
    let es := s.elems u a
    let n := if f.bits = 16 then 64 else 32
    let out (v fl : Nat) : Start := .ok s (WordRes.ofScal sd v fl)
    if f == .i32 then
      let is := es.map (toSigned 32)
      match rfn with
      | 0 => out (ofSigned 32 is.sum) 0
      | 1 => out (ofSigned 32 (is.map fun i => i * i).sum) 0
      | 2 => out (ofSigned 32 (is.foldl (fun m i => if m < i then i else m) (is.headD 0))) 0
      | 3 => out (ofSigned 32 (is.foldl (fun m i => if i < m then i else m) (is.headD 0))) 0
      | _ => out (argBest (rfn = 4) (is.zipIdx.map fun x => (Num.ofInt x.1, x.2))) 0
    else
      -- each element widened exactly to binary32
      let ws := es.map fun e => if f == .b32 then e else (match numOf f e with
        | .nan sg fr => 0x7F800000 + fr + (if sg then 0x80000000 else 0)
        | v => (toLong .b32 .rne false v).1)
      let lanes := lanesOf n ws
      let addf (x y : Nat × Nat) : Nat × Nat :=
        let r := add32 sat x.1 y.1
        (r.1, r.2 ||| x.2 ||| y.2)
      let best (fn : Nat) (x y : Nat × Nat) : Nat × Nat :=
        let r := vopElem fn .b32 .rne sat x.1 y.1 0
        (r.1, r.2 ||| x.2 ||| y.2)
      let fin (r : Option (Nat × Nat)) : Start := out (r.getD (0, 0)).1 (r.getD (0, 0)).2
      match rfn with
      | 0 => fin (treeOf addf 6 (lanes.map fun l => some (l.foldl (fun c e => addf c (e, 0)) (0x80000000, 0))))
      | 1 =>
        let sq (c : Nat × Nat) (e : Nat) : Nat × Nat :=
          let r := vopElem 0x03 .b32 .rne sat e e c.1
          (r.1, r.2 ||| c.2)
        fin (treeOf addf 6 (lanes.map fun l => some (l.foldl sq (0x80000000, 0))))
      | 2 => fin (treeOf (best 0x05) 6 (lanes.map fun l => match l with
          | [] => none
          | e :: r => some (r.foldl (fun c x => best 0x05 c (x, 0)) (e, 0))))
      | 3 => fin (treeOf (best 0x04) 6 (lanes.map fun l => match l with
          | [] => none
          | e :: r => some (r.foldl (fun c x => best 0x04 c (x, 0)) (e, 0))))
      | _ => out (argBest (rfn = 4) (ws.zipIdx.map fun x => (numOf .b32 x.1, x.2))) 0

/-! CVT (R126, R161 to R170). -/

/-- Whether every element of a local operand lies in PM. -/
def inPm (x : Nat) : Bool := !(opRuns x).any fun r => r.1 < 0x130000 || r.1 + r.2 > 0x140000

/-- The block of a block-scaled destination. -/
def cvtBlock (x : Nat) : Nat := if dScale x = 1 then 16 else if dScale x = 2 then 32 else 0

/-- The descriptor errors of a CVT word. -/
def cvtErr (src dst b e : Nat) (ben een : Bool) : Option Nat :=
  let k := cvtBlock dst
  match checkLocal src, checkLocal dst with
  | some x, _ => some x
  | _, some x => some x
  | none, none =>
    match firstErr [(!longOf src && !inPm src, eFormat), (dScale src = 1 || dScale src = 2, eFormat),
      (k ≠ 0 && !een, eFormat), (dCount src ≠ dCount dst, eShape), (k ≠ 0 && dExt0 dst % k ≠ 0, eShape)] with
    | some x => some x
    | none =>
      match if ben then checkLocal b else none with
      | some x => some x
      | none =>
        match firstErr [(ben && !longOf b, eFormat), (ben && dCount b ≠ dExt0 src, eShape)] with
        | some x => some x
        | none =>
          if k = 0 then none
          -- a DE of KIND 1 or outside SPACE local has code SPACE (R104, R124), where R165 says SHAPE (assumption 100)
          else match checkLocal e with
            | some x => some x
            | none => firstErr [(fmtOf e ≠ .raw8, eShape), (dCount e ≠ dCount dst / k, eShape)]

/-- The value of an element after scale, bias and clip, with INVALID when a NaN was made (R161, R163, R166). -/
def cvtPre (md : RMode) (sen ben cen : Bool) (sc bias lo hi x : Num) : Num × Nat :=
  let mulv (a b : Num) : Num × Nat := if a.isNan then (a, 0) else if b.isNan then (b, 0) else Num.mul a b
  let addv (a b : Num) : Num × Nat := if a.isNan then (a, 0) else if b.isNan then (b, 0) else Num.add md a b
  let v := if sen then mulv x sc else (x, 0)
  let w := if ben then addv v.1 bias else (v.1, 0)
  let c :=
    if !cen || w.1.isNan then w.1
    else
      let m := if lo.isNan then w.1 else Num.maxOf w.1 lo
      if hi.isNan then m else Num.minOf m hi
  (c, v.2 ||| w.2)

/-- The least k with m · 2^e ≤ fmax · 2^k. -/
def scaleUp (f : Fmt) (m : Nat) (e : Int) : Int :=
  let x := shortMax f
  let k0 : Int := e + (bitLen m : Int) - x.2 - (bitLen x.1 : Int) - 1
  let ok (k : Int) : Bool := (Num.fin false m e).cmp (.fin false x.1 (x.2 + k)) != .gt
  if ok k0 then k0 else if ok (k0 + 1) then k0 + 1 else k0 + 2

/-- The exponent of a block (R164). -/
def blockExp (f : Fmt) (vs : List Num) : Nat :=
  let mags := vs.filter fun v => v.isFin
  let m := mags.foldl (fun a v => Num.maxOf a (v.setNeg false)) (.fin false 0 0)
  match m with
  | .fin _ n e => if n = 0 then 127 else (min 254 (max 0 (scaleUp f n e + 127))).toNat
  | _ => 127

/-- A value times a power of two. -/
def shiftNum (v : Num) (k : Int) : Num :=
  match v with
  | .fin s m e => .fin s m (e + k)
  | x => x

/-- A CVT word at its start. -/
def State.cvtStart (s : State) (u src dst b e sc lo hi rnd : Nat) (ben sen cen een : Bool) : Start :=
  orErr (cvtErr src dst b e ben een) fun _ =>
    s.reads u (opRuns src ++ (if ben then opRuns b else [])) fun s =>
      let md := if rnd = 0 then RMode.rne else if rnd = 1 then .rtz else s.dev.rmode u
      let sat := s.dev.longSat u
      let fd := fmtOf dst
      let bias := if ben then (s.elems u b).map (numOf (fmtOf b)) else []
      let pre := ((s.elems u src).map (numOf (fmtOf src))).zipIdx.map fun x =>
        cvtPre md sen ben cen (numOf .b32 sc) (bias.getD (x.2 % dExt0 src) (.fin false 0 0)) (numOf .b32 lo)
          (numOf .b32 hi) x.1
      let k := cvtBlock dst
      let exps := if k = 0 then [] else
        (List.range (pre.length / k)).map fun i => blockExp fd (((pre.drop (i * k)).take k).map fun x => x.1)
      let outs := pre.zipIdx.map fun x =>
        let v := if k = 0 then x.1.1 else shiftNum x.1.1 (127 - (exps.getD (x.2 / k) 127 : Int))
        let r := roundSat fd md sat v
        -- the flags of a NaN, an infinity or a created NaN are the table's
        (r.1, r.2 ||| x.1.2)
      let fl := outs.foldl (fun y x => y ||| x.2) 0
      .ok s { WordRes.ofMem (resElems dst (outs.map fun x => x.1) ++ (if k = 0 then [] else resElems e exps)) with flags := fl }

/-! CHK (R127). -/

/-- Set a predicate; p0 ignores writes (R80). -/
def Dev.setPred (d : Dev) (u p : Nat) (v : Bool) : Dev := if p = 0 then d else d.setFbit F.COR_PRED_P u p v

/-- The tolerance test of CHK TOL on one pair. -/
def tolPass (f : Fmt) (abs rel a b : Nat) : Bool :=
  if f.isInt || f == .raw8 then a == b
  else
    let x := numOf f a
    let y := numOf f b
    x.isFin && y.isFin && decide (((scaled x - scaled y).natAbs : Int) * 2 ^ 32 ≤ tolOf abs rel ((scaled x).natAbs : Int))

/-- The fold of CHK SIG over a byte stream. -/
def sigFold (bs : List Byte) : Nat :=
  ((List.range ((bs.length + 3) / 4)).map fun i => leAt bs (4 * i) 4).foldl (fun v w =>
    ((v * 2 % 2 ^ 32 + v / 2 ^ 31) ^^^ w)) 0

/-- The value bits of an element: bits [7:6] of M6 are ignored (Table 3-5). -/
def elemBits (f : Fmt) (v : Nat) : Nat := if f == .m6 then v % 64 else v

/-- A CHK word at its start. -/
def State.chkStart (s : State) (u cfn a b pd sd : Nat) : Start :=
  let two := cfn ≠ 2
  orErr (match checkLocal a, if two then checkLocal b else none with
    | some x, _ => some x
    | _, some x => some x
    | none, none => firstErr [(two && fmtOf a ≠ fmtOf b, eFormat), (two && dCount a ≠ dCount b, eShape)]) fun _ =>
  s.reads u (opRuns a ++ (if two then opRuns b else [])) fun s =>
    let f := fmtOf a
    let bad := if !two then 0 else
      (((s.elems u a).zip (s.elems u b)).filter fun x =>
        if cfn = 0 then elemBits f x.1 != elemBits f x.2
        else !tolPass f (s.dev.fld F.COR_CHK_CTRL_TOL_ABS u) (s.dev.fld F.COR_CHK_CTRL_TOL_REL u) (elemBits f x.1)
          (elemBits f x.2)).length
    let v := if two then min 0xFFFFFFFF bad else sigFold (s.rdRuns u 0 0 (opRuns a))
    .ok s { WordRes.ofScal sd v 0 with pred := [(pd, !two || bad = 0)] }

end Sys2Proof.Machine
end

