-- ==== Sys2Proof/Machine/MoveEngine.lean ====
section
/-! DEFINITION. The move engine: MOV, RECV, SEND, CST.ARM, CST.ADD, SLD, SST and DLD (spec/03 R117 to R119, R128, R625,
R627, spec/02 R63, spec/07 R268 to R273). -/

namespace Sys2Proof.Machine

/-- Change a queued word. -/
def Dev.modWord (d : Dev) (u seq : Nat) (f : QWord → QWord) : Dev :=
  let g (w : QWord) : QWord := if w.seq = seq then f w else w
  d.modCore u fun x => { x with cd := x.cd.map g, v := x.v.map g, m := x.m.map g }

/-- The number of elements of an operand. -/
def opCount (x : Nat) : Nat := if dSpace x = 3 then dExt0 x * dExt1 x else dCount x

/-- Bytes of an operand as stored. -/
def opBytes (x : Nat) : Nat := if dSpace x = 3 then opCount x * abufElem (fmtOf x) else runTotal (opRuns x)

/-- The alignment check of a transfer (R63). -/
def alignBad (x : Nat) : Bool := (dSpace x ≠ 4 && dBase x % 8 ≠ 0) || opBytes x % 8 ≠ 0

/-- The descriptor errors of a move source (R63, R78, R104 to R109, R625). -/
def srcErr (x : Nat) : Option Nat :=
  match checkK0 x with
  | some e => some e
  | none =>
    match if oddShape x then some eShape else if dSpace x = 3 then abufCheck x (abufElem (fmtOf x)) else none with
    | some e => some e
    | none => firstErr [(alignBad x, eAlign), (dSpace x = 0 && localBad (opRuns x), eUnmapped),
        (dSpace x = 2 && runsPast (opRuns x) 0x600000, eUnmapped)]

/-- The descriptor errors of a move destination whose activation-buffer elements take `eb` bytes. -/
def dstErr (y eb : Nat) : Option Nat :=
  match checkK0 y with
  | some e => some e
  | none =>
    match firstErr [(dSpace y = 4, eSpace), (dSpace y ≠ 3 && oddShape y, eShape)] with
    | some e => some e
    | none =>
      match if dSpace y = 3 then abufCheck y eb else none with
      | some e => some e
      | none => firstErr [(dSpace y ≠ 3 && alignBad y, eAlign), (dSpace y = 3 && dBase y % 8 ≠ 0, eAlign),
          (dSpace y = 0 && localBad (opRuns y), eUnmapped),
          (dSpace y = 2 && runsPast (opRuns y) 0x600000, eUnmapped)]

/-- The descriptor errors of a MOV (R117). -/
def movErr (x y : Nat) : Option Nat :=
  match srcErr x, dstErr y (abufElem (fmtOf x)) with
  | some e, _ => some e
  | _, some e => some e
  | none, none =>
    let bad :=
      if dSpace y = 3 then opCount x ≠ opCount y
      else if fmtOf x = fmtOf y then opCount x ≠ opCount y
      else if fmtOf x = .raw8 || fmtOf y = .raw8 then opBytes x ≠ opBytes y
      else true
    firstErr [(bad, eShape), (dSpace y = 3 && opCount y * abufElem (fmtOf x) % 8 ≠ 0, eAlign)]

/-- Bytes as elements of a format are written: bits [7:6] of an M6 element are 0 (Table 3-5). -/
def m6Bytes (f : Fmt) (bs : List Byte) : List Byte := if f == .m6 then bs.map fun b => b &&& 0x3F else bs

/-- The bytes that a MOV writes for the bytes it read (R106, R109, R110). In the activation buffer DD's FMT plays no part. -/
def movBytes (x y : Nat) (raw : List Byte) : List Byte :=
  let f := fmtOf x
  let raw := m6Bytes f (if dSpace y = 3 then raw else m6Bytes (fmtOf y) raw)
  if f.bits = 4 && dSpace x ≠ 3 && dSpace y = 3 then (unpack 4 raw).map fun v => BitVec.ofNat 8 (widen f v)
  else if f.bits = 4 && dSpace x = 3 && dSpace y ≠ 3 && fmtOf y = f then packNib (raw.map fun b => narrow f b.toNat)
  else raw

/-- The result of a move, which is written when the word completes: to a global destination as WRITE_ACK packets (R296). -/
def moveRes (ep y eb : Nat) (bs : List Byte) : WordRes :=
  let evs := [(evMove, (bs.length + 127) / 128)]
  if dSpace y = 1 then { WordRes.none with evs := evs, out := some (ep, opRuns y, bs) }
  else { WordRes.ofMem (resRuns (dSpace y) (if dSpace y = 3 then abufRuns y eb else opRuns y) bs) with evs := evs }

/-- Read CSM runs. -/
def State.csmRuns (s : State) (site : Nat) (rs : List (Nat × Nat)) : State × List Byte :=
  rs.foldl (fun x r =>
    let y := x.1.csmRead site r.1 r.2
    (y.1, x.2 ++ y.2.1)) (s, [])

/-- Read a move source that is not global, and go on with its bytes. -/
def State.moveSrc (s : State) (u x : Nat) (k : State → List Byte → Start) : Start :=
  if dSpace x = 0 then s.reads u (opRuns x) fun t => k t (t.rdRuns u 0 0 (opRuns x))
  else if dSpace x = 2 then
    let r := s.csmRuns (u / 256) (opRuns x)
    k r.1 r.2
  else if dSpace x = 3 then k s (s.rdRuns u 3 0 (abufRuns x (abufElem (fmtOf x))))
  else
    match s.dev.qHead u (dBase x) with
    | none => .wait 6
    | some m =>
      if runsPast ((opRuns x).map fun r => (r.1 - dBase x, r.2)) m.body.length then .err eShape
      else k s (s.rdRuns u 4 (dBase x) (opRuns x))

/-- Start the reads of a word with a global source; when none is outstanding the word goes on at once. -/
def State.moveGlobal (s : State) (w : QWord) (u x : Nat) (k : State → List Byte → Start) : Start :=
  let n := runTotal (opRuns x)
  let r := s.dev.issueReads u (s.dev.epOf u w.mode) w.seq w.pc (opRuns x)
  let t := { s with dev := r.1 }
  if r.2 = 0 then k t (zeros n)
  else .ok (t.onDev fun d => d.modWord u w.seq fun q => { q with buf := zeros n, left := r.2 })

/-- The result of a MOV whose source bytes are there. -/
def State.movRes (s : State) (w : QWord) (u x y : Nat) (raw : List Byte) : WordRes :=
  moveRes (s.dev.epOf u w.mode) y (abufElem (fmtOf x)) (movBytes x y raw)

/-- A MOV at its start. -/
def State.movStart (s : State) (w : QWord) (u x y : Nat) : Start :=
  orErr (movErr x y) fun _ =>
    let k (t : State) (bs : List Byte) : Start := .ok t (t.movRes w u x y bs)
    if dSpace x = 1 then s.moveGlobal w u x k else s.moveSrc u x k

/-- A RECV at its start (R118): the message leaves the queue. -/
def State.recvStart (s : State) (w : QWord) (u q y : Nat) (drop : Bool) : Start :=
  match s.dev.qHead u q with
  | none => .wait 6
  | some m =>
    if drop then .ok (s.onDev fun d => d.qPop u q)
    else
      orErr (if dSpace y = 3 && oddShape y && checkK0 y = none then some eShape else dstErr y (abufElem (fmtOf y))) fun _ =>
        if m.body.length > opBytes y then .err eShape
        else .ok (s.onDev fun d => d.qPop u q) (moveRes (s.dev.epOf u w.mode) y (abufElem (fmtOf y)) (m6Bytes (fmtOf y) m.body))

/-- The errors of a SEND's channel and length (R268). -/
def sendErr (w0 n : Nat) (sig : Bool) : Option Nat :=
  let land := bitsOf w0 59 3
  let scope0 := !bitOf w0 35
  let noCore := (land = 4 && bitOf w0 36) || land = 2 || land = 3
  firstErr [(!bitOf w0 63, eIllegal), (bitOf w0 62 && !(land = 1 || land = 4), eIllegal), (land > 4, eIllegal),
    (sig && scope0 && bitsOf w0 27 8 > 63, eIllegal), (sig && scope0 && noCore, eIllegal), (n > landMax land, eShape)]

/-- Write a status scalar. -/
def Dev.putStatus (d : Dev) (u : Nat) (sreg : Option Nat) (st : Nat) : Dev :=
  match sreg with
  | some r => d.setF F.COR_SCALAR_S u st r
  | none => d

/-- Send the message of a SEND on the channel entry that it read when it started (R128, R268). -/
def State.sendEnd (s : State) (w : QWord) (u chan w0 w1 : Nat) (sig : Option Nat) (sreg : Option Nat)
    (body : List Byte) : State :=
  s.onDev fun d =>
    let r := d.sendOn (u / 256) (u % 256) chan w0 w1 (d.epOf u w.mode) sig (.msg u w.pc sreg) body
    match r.2 with
    | some st => (if st = 4 then r.1.corAddrErr u w.pc else r.1).putStatus u sreg st
    | none => r.1

/-- A SEND at its start: its credit is taken (R272). -/
def State.sendStart (s : State) (w : QWord) (u x chan : Nat) (sig : Option Nat) (sreg : Option Nat) : Start :=
  let w0 := (s.dev.getR R.COR_CHAN0 u chan).toNat
  let w1 := (s.dev.getR R.COR_CHAN1 u chan).toNat
  let n := opBytes x
  let land := bitsOf w0 59 3
  let need := entriesOf n
  orErr (match srcErr x with
    | some e => some e
    | none => sendErr w0 n sig.isSome) fun _ =>
  if land = 0 && bitsOf w1 28 5 < need then .wait 10
  else
    let take (s : State) : State :=
      if land = 0 then s.onDev fun d =>
        (d.setF F.COR_CHAN1_CRED u (bitsOf w1 28 5 - need) chan).addWrap F.COR_CHAN1_SENT u need chan
      else s
    if dSpace x = 1 then
      let t := (take s).onDev fun d => d.modWord u w.seq fun q => { q with ss := [w0, w1] }
      t.moveGlobal w u x fun t bs => .ok (t.sendEnd w u chan w0 w1 sig sreg bs)
    else s.moveSrc u x fun t bs => .ok ((take t).sendEnd w u chan w0 w1 sig sreg bs)

/-- Send a Cistern contribution (R128, R270): CHAN 0, GEN the sender's SGEN, to the slot of a logical cluster or of the
own cluster (255). -/
def State.cstAddEnd (s : State) (w : QWord) (u clu slot : Nat) (body : List Byte) : State :=
  s.onDev fun d =>
    let site := u / 256
    let ep := d.epOf u w.mode
    match if clu = 255 then some site else d.mapSite site ep clu with
    | none => d.corAddrErr u w.pc
    | some ds =>
      d.inject site 4 (msgPackets site (u % 256) ds 60 (ep = 1) 0 (d.fld F.CLU_MSG_CTRL_SGEN site) slot 5 none false 0 0
        false body) (some (.msg u w.pc none))

/-- A CST.ADD at its start. -/
def State.cstAddStart (s : State) (w : QWord) (u x clu slot : Nat) : Start :=
  orErr (match srcErr x with
    | some e => some e
    | none => firstErr [(opBytes x > 16384, eShape)]) fun _ =>
  if dSpace x = 1 then s.moveGlobal w u x fun t bs => .ok (t.cstAddEnd w u clu slot bs)
  else s.moveSrc u x fun t bs => .ok (t.cstAddEnd w u clu slot bs)

/-- The address of SLD, SST and DLD, with its errors (R119). -/
def lsErr (a n : Nat) : Option Nat := firstErr [(a % n ≠ 0, eAlign), (a + n > 0x150000, eUnmapped)]

/-- SLD at its start. -/
def State.sldStart (s : State) (u sr sa off : Nat) : Start :=
  let a := (sa + off) % 2 ^ 21
  orErr (lsErr a 4) fun _ => s.reads u [(a, 4)] fun t =>
    .ok t (WordRes.ofScal sr (leNat (t.rdRuns u 0 0 [(a, 4)])) 0)

/-- SST at its start. -/
def State.sstStart (s : State) (v sa off : Nat) : Start :=
  let a := (sa + off) % 2 ^ 21
  orErr (lsErr a 4) fun _ => .ok s (WordRes.ofMem (resRuns 0 [(a, 4)] (leBytes 4 v)))

/-- DLD at its start. -/
def State.dldStart (s : State) (u sa dd off : Nat) : Start :=
  let a := (sa + off) % 2 ^ 21
  orErr (lsErr a 16) fun _ => s.reads u [(a, 16)] fun t =>
    let bs := t.rdRuns u 0 0 [(a, 16)]
    .ok t { WordRes.none with desc := [(dd, leAt bs 0 8, leAt bs 8 8)] }

/-- The descriptors that a word names and uses, in the order in which it captures them (R92). -/
def wordDescs : WordBody → List Nat
  | .mov _ ds dd => [ds.toNat, dd.toNat]
  | .recv _ _ dd drop => if drop then [] else [dd.toNat]
  | .send _ ds _ _ _ _ _ => [ds.toNat]
  | .cstAdd _ ds _ _ => [ds.toNat]
  | .cube _ da dw dp _ => [da.toNat, dw.toNat, dp.toNat]
  | .dot _ da dw dp _ => [da.toNat, dw.toNat, dp.toNat]
  | .vop _ _ da db dc dd _ => [da.toNat, db.toNat, dc.toNat, dd.toNat]
  | .vred _ _ da _ => [da.toNat]
  | .cvt _ ds dd db _ _ _ _ _ _ de _ => [ds.toNat, dd.toNat, db.toNat, de.toNat]
  | .chk _ _ da db _ _ => [da.toNat, db.toNat]
  | _ => []

/-- The scalars that an engine word captures. -/
def wordScals : WordBody → List Nat
  | .sld _ _ sa _ => [sa.toNat]
  | .sst _ sr sa _ => [sa.toNat, sr.toNat]
  | .dld _ _ sa _ _ => [sa.toNat]
  | .vop _ _ _ db _ _ bs => if bs then [db.toNat % 16] else []
  | .cvt _ _ _ _ _ ss _ sc _ _ _ _ => [ss.toNat, sc.toNat, (sc.toNat + 1) % 16]
  | _ => []

/-- What an engine word does at its start, with what it captured at issue. -/
def State.wordStart (s : State) (u : Nat) (w : QWord) : Start :=
  let x (i : Nat) : Nat := w.ds.getD i 0
  let v (i : Nat) : Nat := w.ss.getD i 0
  match w.body with
  | .mov _ _ _ => s.movStart w u (x 0) (x 1)
  | .recv _ q _ drop => s.recvStart w u q.toNat (x 0) drop
  | .send _ _ chan sig sign sten sreg =>
    s.sendStart w u (x 0) chan.toNat (if sig then some sign.toNat else none) (if sten then some sreg.toNat else none)
  | .cstArm _ slot count chan => .ok (s.onDev fun d => d.cstArm (u / 256) slot.toNat count.toNat chan.toNat)
  | .cstAdd _ _ clu slot => s.cstAddStart w u (x 0) clu.toNat slot.toNat
  | .sld _ sr _ off => s.sldStart u sr.toNat (v 0) off.toNat
  | .sst _ _ _ off => s.sstStart (v 1) (v 0) off.toNat
  | .dld _ _ _ dd off => s.dldStart u (v 0) dd.toNat off.toNat
  | .cube _ _ _ _ acc => s.macStart u (x 0) (x 1) (x 2) acc true
  | .dot _ _ _ _ acc => s.macStart u (x 0) (x 1) (x 2) acc false
  | .vop _ fn _ _ _ _ bs => s.vopStart u fn.toNat (x 0) (x 1) (x 2) (x 3) (v 0) bs
  | .vred _ rfn _ sd => s.vredStart u rfn.toNat (x 0) sd.toNat
  | .cvt _ _ _ _ ben _ sen _ cen rnd _ een =>
    s.cvtStart u (x 0) (x 1) (x 2) (x 3) (v 0) (v 1) (v 2) rnd.toNat ben sen cen een
  | .chk _ cfn _ _ pd sd => s.chkStart u cfn.toNat (x 0) (x 1) pd.toNat sd.toNat
  | _ => .ok s

/-- The end of a word with a global source when its last read is answered. -/
def State.wordRead (s : State) (u : Nat) (w : QWord) : State :=
  let x (i : Nat) : Nat := w.ds.getD i 0
  match w.body with
  | .mov _ _ _ =>
    s.onDev fun d => d.modWord u w.seq fun q => { q with res := s.movRes w u (x 0) (x 1) w.buf }
  | .send _ _ chan sig sign sten sreg =>
    s.sendEnd w u chan.toNat (w.ss.getD 0 0) (w.ss.getD 1 0) (if sig then some sign.toNat else none)
      (if sten then some sreg.toNat else none) w.buf
  | .cstAdd _ _ clu slot => s.cstAddEnd w u clu.toNat slot.toNat w.buf
  | _ => s

/-- CREDIT_WAIT_TIMER: a SEND at the head of the M queue that waits for credit has waited FAB_TMO (R273). -/
def execCreditWaitTimer (c : Core) (s : State) : Host.Outcome State Fault Refusal :=
  s.upd fun d =>
    let u := cu c.site.val c.core.val
    match (d.core u).m with
    | x :: _ =>
      match x.body with
      | .send _ _ chan _ _ _ _ =>
        let ch := chan.toNat
        let short := d.fld F.COR_CHAN0_LAND u ch = 0 && d.fld F.COR_CHAN1_CRED u ch < entriesOf (opBytes (x.ds.headD 0))
        if !x.started && d.flag F.COR_CHAN0_VALID u ch && short then d.creditReq u (d.epOf u x.mode) ch else d
      | _ => d
    | [] => d

end Sys2Proof.Machine
end

