-- ==== Sys2Proof/Machine/Sequencer.lean ====
section
/-! DEFINITION. The sequencer: issue, the engine queues, errors and the core commands (spec/03_schedule_words.md, spec/02
R80 to R82). A word row is the issue of that word by a core, at the core's PC; an engine word that finds its engine free
starts in the same step: it reads its operands then and writes its results when it completes (R97, assumption 18). -/

namespace Sys2Proof.Machine

/-! Pending-write marks (R93). -/

/-- The scalars, descriptors and predicates that an engine word will write. -/
def wordWrites : WordBody → List Nat × List Nat × List Nat
  | .sld _ sr _ _ => ([sr.toNat], [], [])
  | .dld _ _ _ dd _ => ([], [dd.toNat], [])
  | .vred _ _ _ sd => ([sd.toNat], [], [])
  | .chk _ _ _ _ pd sd => ([sd.toNat], [], if pd = 0 then [] else [pd.toNat])
  | .send _ _ _ _ _ sten sreg => (if sten then [sreg.toNat] else [], [], [])
  | _ => ([], [], [])

/-- The scalars, descriptors and predicates that a word reads. -/
def wordUses : WordBody → List Nat × List Nat × List Nat
  | .lset _ src sa _ => (if src then [sa.toNat] else [], [], [])
  | .pset pd _ sa imf sb _ => (if imf then [sa.toNat] else [sa.toNat, sb.toNat], [], [pd.toNat])
  | .plog pd pa pb _ => ([], [], [pd.toNat, pa.toNat, pb.toNat])
  | .salu sd sa sb _ => ([sd.toNat, sa.toNat, sb.toNat], [], [])
  | .salui sd sa _ _ => ([sd.toNat, sa.toNat], [], [])
  | .sli sd _ => ([sd.toNat], [], [])
  | .qrd sd _ _ _ => ([sd.toNat], [], [])
  | .dadd dd imf sa _ => (if imf then [] else [sa.toNat], [dd.toNat], [])
  | .sem _ _ _ vs sv _ => (if vs then [sv.toNat] else [], [], [])
  | .vop _ fn da db dc dd bs =>
    (if bs && vopB fn.toNat then [db.toNat % 16] else [],
      [da.toNat, dd.toNat] ++ (if vopB fn.toNat && !bs then [db.toNat] else []) ++
        (if vopC fn.toNat then [dc.toNat] else []), [])
  | .cvt _ ds dd db ben ss sen sc cen _ de een =>
    ((if sen then [ss.toNat] else []) ++ (if cen then [sc.toNat, sc.toNat + 1] else []),
      [ds.toNat, dd.toNat] ++ (if ben then [db.toNat] else []) ++ (if een then [de.toNat] else []), [])
  | .chk _ cfn da db _ _ => ([], if cfn.toNat = 2 then [da.toNat] else [da.toNat, db.toNat], [])
  | b => (wordScals b, wordDescs b, [])

/-- The request kinds outstanding: answers, tags and the last flits of circuit messages that are awaited. -/
def Dev.kinds (d : Dev) : List ReqKind :=
  d.reqs.map (fun r => r.kind) ++ d.injw.filterMap (fun w => w.kind) ++ d.circNet.filterMap fun c => c.kind

/-- The marks of a core: scalars, descriptors and predicates. -/
def Dev.marks (d : Dev) (u : Nat) : List Nat × List Nat × List Nat :=
  let x := d.core u
  let ws := (x.cd ++ x.v ++ x.m).map fun w => wordWrites w.body
  let sends := d.kinds.filterMap fun k => match k with
    | .msg c _ (some r) => if c = u then some r else none
    | _ => none
  (ws.flatMap (fun w => w.1) ++ sends, ws.flatMap fun w => w.2.1, ws.flatMap fun w => w.2.2)

/-- Whether a word meets a mark on a register that it reads or writes. -/
def Dev.blocked (d : Dev) (u : Nat) (b : WordBody) : Bool :=
  let m := d.marks u
  let r := wordUses b
  let w := wordWrites b
  (r.1 ++ w.1).any m.1.contains || (r.2.1 ++ w.2.1).any m.2.1.contains || (r.2.2 ++ w.2.2).any m.2.2.contains

/-! Stops (R138, R141). -/

/-- A descriptor error (R138): the core stops and COR raises DESC_ERR. -/
def Dev.descErr (d : Dev) (u seq pc opc code : Nat) : Dev := (d.stopAt u seq pc opc code).raise (evU bCOR u) 5 1 pc

/-- A word that consumed an uncorrectable word (R76): no result, STOP_ECC. Whether it makes its POST is open: R76 lets it
complete, and R138 denies the POST of a descriptor error; it makes none (assumption 98). -/
def Dev.eccStop (d : Dev) (u seq pc opc la : Nat) : Dev := (d.stopAt u seq pc opc eStopEcc).eccUe u la false

/-- The words of a queue. -/
def CoreS.queue (x : CoreS) : EngQ → List QWord
  | .cd => x.cd
  | .v => x.v
  | .m => x.m

/-- Replace the words of a queue. -/
def CoreS.setQueue (x : CoreS) (q : EngQ) (ws : List QWord) : CoreS :=
  match q with
  | .cd => { x with cd := ws }
  | .v => { x with v := ws }
  | .m => { x with m := ws }

/-- Whether a core has no word in any engine queue. -/
def CoreS.drained (x : CoreS) : Bool := x.cd.isEmpty && x.v.isEmpty && x.m.isEmpty

/-- The core halts once issue has ended and its queues are empty (R136, R141). -/
def Dev.settle (d : Dev) (u : Nat) : Dev :=
  if (d.core u).halting ≠ 0 && (d.core u).drained then
    (d.coreOff u 0).modCore u fun x => { x with halting := 0, held := none }
  else d

/-! Starting and completing engine words (R91 to R97). -/

/-- Whether the words of a core can run: its cluster is in D0. -/
def Dev.awake (d : Dev) (u : Nat) : Bool := !d.siteOut (u / 256) && (d.dom (u / 256)).level = 0 && d.coreState u ≠ 4

/-- Start the head of a queue, if it has not started and nothing holds it (R91, R96, R272, R118, R625). A CUBE or DOT word of a quiet
cluster first ramps, or waits for the window of its field (R463). -/
def State.startHead (s : State) (u : Nat) (q : EngQ) : State :=
  match (s.dev.core u).queue q with
  | [] => s
  | w :: _ =>
    let y := syncOf w.body
    let sem := y.waitSem.toNat
    let v := s.dev.fld F.COR_SEM_V u sem
    let s := if w.started || (y.waitEn && v = 0) || !isMac w.body then s else s.onDev fun d => d.rampAsk (u / 256)
    if w.started || (y.waitEn && v = 0) || (isMac w.body && s.dev.rampHeld (u / 256)) then s
    else
      let take (t : State) : State := if y.waitEn then t.onDev fun d => d.setF F.COR_SEM_V u (v - 1) sem else t
      match s.wordStart u w with
      | .wait _ => s
      | .err c => (take s).onDev fun d => d.descErr u w.seq w.pc (opcOf w.body).toNat c
      | .ue la t => (take t).onDev fun d => d.eccStop u w.seq w.pc (opcOf w.body).toNat la
      | .ok t r => (take t).onDev fun d => (d.macTook u w.body).modWord u w.seq fun x =>
          { x with started := true, res := if r = WordRes.none then x.res else r }

/-- Whether packets of a type that core u sends, or its circuit flits, have still to enter the fabric through its router port. -/
def Dev.portBusy (d : Dev) (u ty : Nat) : Bool :=
  let here (p : Packet) : Bool := p.srcSite.toNat == u / 256 && p.srcCore.toNat == u % 256 && p.ty.toNat == ty
  (d.stage.any fun f => f.site == u / 256 && f.port == 4 && here f.pkt) ||
  (d.injw.any fun x => x.site == u / 256 && x.port == 4 && x.pkts.any here) ||
  (d.circNet.any fun c => c.site == u / 256 && c.port == 4 && c.slots.isSome && here c.f.pkt)

/-- Whether a word of the M queue that has started still has flits to bring into the router port (R232, Table 3-17). -/
def Dev.wordOut (d : Dev) (u : Nat) (w : QWord) : Bool :=
  match w.body with
  | .mov .. | .recv .. => d.portBusy u 1
  | .send .. | .cstAdd .. => d.portBusy u 4
  | _ => false

/-! Results (R97, R138). -/

/-- HALT (R141): queued words that have not started are discarded, and the core halts when the started ones are complete. -/
def Dev.coreHalt (d : Dev) (u : Nat) : Dev :=
  let st := d.coreState u
  if st = 1 || st = 2 || st = 3 then
    (d.modCore u fun x =>
      let live (ws : List QWord) : List QWord := ws.filter fun w => w.started
      { x with cd := live x.cd, v := live x.v, m := live x.m, held := none, halting := 2 }).settle u
  else d

/-- A write of CUBE_RETIRED: only while HALTED can it change (R58). -/
def Dev.setCubeRetired (d : Dev) (u : Nat) (v : Bool) : Dev :=
  if d.flag F.COR_CTRL_CUBE_RETIRED u == v then d
  else if d.coreState u = 0 then d.setB F.COR_CTRL_CUBE_RETIRED u v
  else d.setF F.COR_STATUS_WR_REJ u 1

/-- A local write of the core to its own registers (R78, R89). While its words run the core is not HALTED: a RUN sets WR_REJ
(R140), and a STEP does nothing (Table 2-9). -/
def Dev.ownWrite (d : Dev) (u a : Nat) (bs : List Byte) : Dev :=
  match findReg bCOR (a - regsAt) with
  | none => d
  | some (r, i) =>
    let m := accMask a bs.length
    let v := if bs.length = 4 && a % 8 ≠ 0 then leNat bs * 2 ^ 32 else leNat bs
    let v := v ||| (d.coreRegVal u r i &&& r.rw &&& (2 ^ 64 - 1 - m))
    if r.code = R.COR_CTRL.code then
      let d := (d.setF F.COR_CTRL_ENTRY u (bitsOf v 16 13)).setCubeRetired u (bitOf v 7)
      let d := if bitOf v 0 then d.setF F.COR_STATUS_WR_REJ u 1 else d
      if bitOf v 1 then d.coreHalt u else d
    else if r.code = R.EVT_ACK.code then d.ackMask (evU bCOR u) (if bitOf v 63 then 0xFFFFFFFE else v &&& 0xFFFFFFFE)
    else if r.blk = 0 then d.plainWrite r (evU bCOR u) i v
    else d.wrCore r u i v

/-- Write the bytes of a result: space 0 local, 2 CSM, 3 activation buffer. -/
def State.putRes (s : State) (u : Nat) (x : Nat × Nat × List Byte) : State :=
  if x.1 = 0 && regRun (x.2.1, x.2.2.length) then s.onDev fun d => d.ownWrite u x.2.1 x.2.2
  else s.wrRuns u x.1 [(x.2.1, x.2.2.length)] x.2.2

/-- The estimator's events that a word's operands give: transfers of a message, vector lane-cycles, one for each element (R448,
assumption 20). -/
def wordEvs (w : QWord) : List (Nat × Nat) :=
  let x := w.ds.getD 0 0
  let lanes (k : Nat) : List (Nat × Nat) := [(k, dCount x)]
  let vec : List (Nat × Nat) := lanes (if fmtOf x == .b16 then 12 else if fmtOf x == .e8m7 then 13 else 11)
  match w.body with
  | .send .. => [(evMove, (opBytes x + 127) / 128)]
  | .cstAdd .. => [(evMove, (opBytes x + 127) / 128)]
  | .vop _ fn _ _ _ _ _ => if 8 ≤ fn.toNat && fn.toNat < 16 then lanes 14 else vec
  | .vred .. => vec
  | .cvt .. => vec
  | .chk .. => vec
  | _ => []

/-- Write the results of a word that completes, and make the check of its pass (R54, R57, R168, R182). -/
def State.applyRes (s : State) (u pc : Nat) (r : WordRes) : State :=
  (s.each r.mem fun s x => s.putRes u x).onDev fun d =>
    let d := d.each r.scal fun d x => d.setF F.COR_SCALAR_S u x.2 x.1
    let d := d.each r.pred fun d x => d.setPred u x.1 x.2
    let d := d.each r.desc fun d x => (d.setR R.COR_DESC0 u (BitVec.ofNat 64 x.2.1) x.1).setR R.COR_DESC1 u
      (BitVec.ofNat 64 x.2.2) x.1
    let d := (d.setFlags u r.flags).addSat F.CLU_ZSK_STATUS_SKIPPED_STEPS (u / 256) r.skipped
    let d := d.each r.evs fun d x => d.countEv (u / 256) x.1 x.2
    let d := if r.unchecked then d.setF F.COR_CHK_STATUS_UNCHECKED u 1 else d
    match r.chk with
    | some (mode, blks, bad) => d.checkDone u pc mode blks bad
    | none => d

/-- Complete a word, the rest of whose queue stays: its results are written, its marks clear, its POST is made (R97). A POST past
0xFFFF is a SEM_RANGE error (R131), and then the word writes no result (R138). -/
def State.finishWord (s : State) (u : Nat) (q : EngQ) (w : QWord) (rest : List QWord) : State :=
  let y := syncOf w.body
  let sem := y.postSem.toNat
  let v := s.dev.fld F.COR_SEM_V u sem
  let s := s.onDev fun d => (d.macTook u w.body).modCore u fun x => x.setQueue q rest
  if y.postEn && v ≥ 0xFFFF then s.onDev fun d => d.descErr u w.seq w.pc (opcOf w.body).toNat eSemRange
  else
    let s := if y.postEn then s.onDev fun d => d.setF F.COR_SEM_V u (v + 1) sem else s
    (s.applyRes u w.pc { w.res with evs := w.res.evs ++ wordEvs w }).onDev fun d => d.settle u

/-- Complete the head of a queue. A move to a global destination sends its writes first, unless its POST cannot be made, and
completes when the last flit has entered the router port (R232, assumption 134). -/
def State.finishHead (s : State) (u : Nat) (q : EngQ) : State :=
  match (s.dev.core u).queue q with
  | [] => s
  | w :: rest =>
    if !w.started || w.left ≠ 0 || s.dev.wordOut u w then s
    else match w.res.out with
      | none => s.finishWord u q w rest
      | some (ep, rs, bs) =>
        if (syncOf w.body).postEn && s.dev.fld F.COR_SEM_V u (syncOf w.body).postSem.toNat ≥ 0xFFFF then s.finishWord u q w rest
        else
          let w' : QWord := { w with res := { w.res with out := none } }
          let t := s.onDev fun d => (d.issueWrites u ep w.seq w.pc rs bs).modWord u w.seq fun _ => w'
          if t.dev.wordOut u w' then t else t.finishWord u q w' rest

/-! Issue (R93, R98 to R103, R142). -/

/-- What a sequencer word does at issue: it goes on at a PC, holds issue with a STALL code, or is a descriptor error. -/
inductive Issue where
  | go (d : Dev) (pc : Nat)
  | hold (code : Nat)
  | err (code : Nat)

/-- A SALU operation (R129). -/
def saluOp (op a b : Nat) : Nat :=
  let sa := toSigned 32 a
  let sb := toSigned 32 b
  let k := b % 32
  (match op with
  | 0 => a + b
  | 1 => a + 2 ^ 32 - b
  | 2 => a &&& b
  | 3 => a ||| b
  | 4 => a ^^^ b
  | 5 => a * 2 ^ k
  | 6 => a / 2 ^ k
  | 7 => ofSigned 32 (sa / (2 ^ k : Nat))
  | 8 => if sa < sb then a else b
  | 9 => if sa < sb then b else a
  | 10 => min a b
  | 11 => max a b
  | _ => a * b) % 2 ^ 32

/-- A PSET comparison (R129). -/
def psetCmp (cmp a b : Nat) : Bool :=
  match cmp with
  | 0 => a == b
  | 1 => a != b
  | 2 => toSigned 32 a < toSigned 32 b
  | 3 => toSigned 32 a ≥ toSigned 32 b
  | 4 => a < b
  | 5 => a ≥ b
  | _ => (a &&& b) ≠ 0

/-- A pending frequency fall of a cluster is applied (R299). Under a deadline throttle (R443) the clock stays at the lower of the
two, and the throttle ends at the fallen frequency. -/
def Dev.applyFall (d : Dev) (site : Nat) : Dev :=
  match (d.clu site).fallTo with
  | none => d
  | some (f, duty) =>
    let thr := d.pwr.throttle.any fun t => t.2.any fun y => y.1 == site
    let d := d.setF F.CLU_PWR_FREQ site (if thr then min f (d.fld F.CLU_PWR_FREQ site) else f)
    let d := (d.setF F.CLU_PWR_DUTY site duty).setF F.CLU_PWR_DEFERRED site 0
    let d : Dev := { d with pwr := { d.pwr with throttle := d.pwr.throttle.map fun t =>
      (t.1, t.2.map fun y => if y.1 = site then (site, f) else y) } }
    -- the setpoint falls at once, after the clock (R431)
    let v := min 60 (vFor (d.slowest site) f)
    let d := if v < d.fld F.CLU_PWR_VSET site then d.setVset site v else d
    (d.modClu site fun x => { x with fallTo := none, steady := x.steady && duty == 8 }).showClk site

/-- Whether FENCE OUTBOUND must hold: a SEND, CST.ADD or global write of the core is not acknowledged (R132, R296). -/
def Dev.unacked (d : Dev) (u : Nat) : Bool :=
  (d.kinds.any fun k => match k with
    | .msg c _ _ => c == u
    | .write c _ _ => c == u
    | _ => false) ||
  (d.core u).m.any fun w => match w.body with
    | .send .. | .cstAdd .. => true
    | .mov .. => dSpace (w.ds.getD 1 0) == 1
    | .recv .. => dSpace (w.ds.getD 0 0) == 1
    | _ => false

/-- Whether words issued to the queues named by ENG are not complete: M bit 2, V bit 1, CD bit 0 (R132). -/
def Dev.engBusy (d : Dev) (u eng : Nat) : Bool :=
  let x := d.core u
  (bitOf eng 2 && !x.m.isEmpty) || (bitOf eng 1 && !x.v.isEmpty) || (bitOf eng 0 && !x.cd.isEmpty)

/-- The value of a SEM word. -/
def Dev.semVal (d : Dev) (u : Nat) (vs : Bool) (sv val : Nat) : Nat :=
  if vs then d.fld F.COR_SCALAR_S u sv % 65536 else val

/-- A SEM word (R131, R294): OP 0 WAIT, 1 ADD, 2 SUB. -/
def Dev.semWord (d : Dev) (u op : Nat) (scope : Bool) (idx n pc : Nat) : Issue :=
  let site := u / 256
  let v := if scope then d.fld F.CLU_SEM_V site idx else d.fld F.COR_SEM_V u idx
  let put (x : Nat) : Dev := if scope then d.setF F.CLU_SEM_V site x idx else d.setF F.COR_SEM_V u x idx
  if op = 0 then (if v ≥ n then .go d (pc + 1) else .hold 5)
  else if op = 1 then (if v + n > 0xFFFF then .err eSemRange else .go (put (v + n)) (pc + 1))
  else if v < n then .err eSemRange else .go (put (v - n)) (pc + 1)

/-- A QRD word (Table 3-16, R98). -/
def Dev.qrdWord (d : Dev) (u sd q w : Nat) (pop : Bool) (pc : Nat) : Issue :=
  match d.qHead u q with
  | none => .hold 6
  | some m =>
    let v := if 4 * w ≥ m.body.length then 0 else leAt m.body (4 * w) 4
    let d := d.setF F.COR_SCALAR_S u v sd
    .go (if pop then d.qPop u q else d) (pc + 1)

/-- A FENCE word (R132): KIND 0 LOCAL, 1 OUTBOUND, 2 FULL. -/
def Dev.fenceWord (d : Dev) (u kind eng pc : Nat) : Issue :=
  if (kind ≠ 1 && d.engBusy u eng) || (kind ≠ 0 && d.unacked u) then .hold 7 else .go d (pc + 1)

/-- End the schedule: no further word issues (R136). -/
def Dev.endIssue (d : Dev) (u : Nat) : Dev := d.modCore u fun x => { x with halting := 1 }

/-- A sequencer word at issue (R129 to R136). -/
def Dev.seqWord (d : Dev) (u pc : Nat) (b : WordBody) : Issue :=
  let s (i : Nat) : Nat := d.fld F.COR_SCALAR_S u i
  let p (i : Nat) : Bool := bitOf (d.fld F.COR_PRED_P u) i || i = 0
  let next (d : Dev) : Issue := .go d (pc + 1)
  match b with
  | .end_ => .go (d.endIssue u) pc
  | .br tgt => .go d tgt.toNat
  | .loop lc tgt =>
    let l := d.fld F.COR_LOOP_L u lc.toNat
    if l = 0 then next d else .go (d.setF F.COR_LOOP_L u (l - 1) lc.toNat) tgt.toNat
  | .lset lc src sa imm => next (d.setF F.COR_LOOP_L u (if src then s sa.toNat % 2 ^ 20 else imm.toNat) lc.toNat)
  | .pset pd cmp sa imf sb imm =>
    next (d.setPred u pd.toNat (psetCmp cmp.toNat (s sa.toNat)
      (if imf then ofSigned 32 (toSigned 16 imm.toNat) else s sb.toNat)))
  | .plog pd pa pb op =>
    let x := p pa.toNat
    let y := p pb.toNat
    next (d.setPred u pd.toNat (match op.toNat with
      | 0 => x && y
      | 1 => x || y
      | 2 => x != y
      | _ => x && !y))
  | .salu sd sa sb op => next (d.setF F.COR_SCALAR_S u (saluOp op.toNat (s sa.toNat) (s sb.toNat)) sd.toNat)
  | .salui sd sa op imm => next (d.setF F.COR_SCALAR_S u (saluOp op.toNat (s sa.toNat) imm.toNat) sd.toNat)
  | .sli sd imm => next (d.setF F.COR_SCALAR_S u imm.toNat sd.toNat)
  | .qrd sd q w pop => d.qrdWord u sd.toNat q.toNat w.toNat pop pc
  | .dadd dd imf sa imm =>
    let x := (d.getR R.COR_DESC0 u dd.toNat).toNat
    let k := toSigned 32 (if imf then imm.toNat else s sa.toNat)
    next (d.setR R.COR_DESC0 u (BitVec.ofNat 64 (putBits x 0 48 (ofSigned 48 ((bitsOf x 0 48 : Int) + k)))) dd.toNat)
  | .sem op scope idx vs sv val => d.semWord u op.toNat scope idx.toNat (d.semVal u vs sv.toNat val.toNat) pc
  | .fence kind eng => d.fenceWord u kind.toNat eng.toNat pc
  | .route mode => next (d.setF F.COR_SEQ_STATUS_EPOCH_MODE u mode.toNat)
  | .phase ph =>
    let d := (d.setF F.COR_SEQ_STATUS_PHASE u ph.toNat).applyFall (u / 256)
    next ((d.setF F.CLU_PWR_PHASE (u / 256) ph.toNat).modClu (u / 256) fun x =>
      { x with phase := ph.toNat, steady := x.steady && x.phase == ph.toNat })
  | .sleep lvl _ =>
    let d := d.setF F.COR_SEQ_STATUS_SLEEP_HINT u lvl.toNat
    if lvl.toNat = 3 then .go (d.endIssue u) pc else next d
  | _ => next d

/-- Whether a word holds issue directly after SLEEP without ending the hint: SEM WAIT and QRD (R135). -/
def keepsHint : WordBody → Bool
  | .sem op _ _ _ _ _ => op == 0
  | .qrd .. => true
  | _ => false

/-- Hold issue with a word (R98, R142): codes 5 to 7 make STATE WAITING. -/
def Dev.holdIssue (d : Dev) (u : Nat) (w : SWord) (step : Bool) (code : Nat) : Dev :=
  let d := d.setF F.COR_STATUS_STALL u code
  let d := d.setF F.COR_STATUS_STATE u (if code = 5 || code = 6 || code = 7 then 2 else 1)
  d.modCore u fun x => { x with held := some (w, step) }

/-- Issue past a word, which executes or not (R103): the next PC, the count, the hint of SLEEP, the end of a STEP, and PC_END past
word 8,191. -/
def Dev.issued (d : Dev) (u : Nat) (b : WordBody) (pc : Nat) (exec wasHeld step : Bool) : Dev :=
  let old := d.fld F.COR_STATUS_PC u
  let isSleep := exec && match b with
    | .sleep .. => true
    | _ => false
  let stays := wasHeld && keepsHint b && (d.core u).sleepHint = 1
  let d := if isSleep || stays then d else d.setF F.COR_SEQ_STATUS_SLEEP_HINT u 0
  let d := (d.addWrap F.COR_STALL_CNT_ISSUED u 1).setF F.COR_STATUS_STATE u 1
  let d := d.modCore u fun x =>
    { x with held := none, sleepHint := b2n isSleep, halting := if step && x.halting = 0 then 1 else x.halting }
  if pc > 8191 then
    let d := d.setF F.COR_STATUS_PC u old
    d.descErr u (d.core u).nextSeq old (opcOf b).toNat ePcEnd
  else (d.setF F.COR_STATUS_PC u pc).settle u

/-- Dispatch an engine word to the tail of its queue with what it captures (R91, R92, R133). -/
def Dev.dispatch (d : Dev) (u pc : Nat) (q : EngQ) (b : WordBody) : Dev :=
  let ds := (wordDescs b).map fun i => (d.getR R.COR_DESC0 u i).toNat + 2 ^ 64 * (d.getR R.COR_DESC1 u i).toNat
  let ss := (wordScals b).map fun i => d.fld F.COR_SCALAR_S u i
  d.modCore u fun x =>
    let w : QWord := ⟨x.nextSeq, pc, b, ds, ss, d.fld F.COR_SEQ_STATUS_EPOCH_MODE u, false, [], 0, WordRes.none⟩
    { x.setQueue q (x.queue q ++ [w]) with nextSeq := x.nextSeq + 1 }

/-- The STALL code of a full queue (R98): 10 while the word at its head is stalled on the fabric, else 8 (assumption 48). -/
def State.fullStall (s : State) (u : Nat) (q : EngQ) : Nat :=
  match (s.dev.core u).queue q with
  | [] => 8
  | w :: _ =>
    let y := syncOf w.body
    if w.started then (if w.left ≠ 0 || s.dev.wordOut u w then 10 else 8)
    else if y.waitEn && s.dev.fld F.COR_SEM_V u y.waitSem.toNat = 0 then 8
    else match s.wordStart u w with
      | .wait 10 => 10
      | _ => 8

/-- Issue a word at the core's PC, or hold issue (R93, R98, R101 to R103). -/
def State.issueWord (s : State) (u : Nat) (w : SWord) (wasHeld step : Bool) : State :=
  let d := s.dev
  let pc := d.fld F.COR_STATUS_PC u
  let pr := w.g.pred.toNat
  let hold (c : Nat) : State := s.onDev fun d => d.holdIssue u w step c
  let stop (c : Nat) : State := s.onDev fun d => d.descErr u (d.core u).nextSeq pc (opcOf w.b).toNat c
  if (d.marks u).2.2.contains pr then hold 8
  else if ((bitOf (d.fld F.COR_PRED_P u) pr || pr = 0) != w.g.pn) = false then
    s.onDev fun d => d.issued u w.b (pc + 1) false wasHeld step
  else if !legalBody w.b then stop eIllegal
  else if d.blocked u w.b then hold 8
  else
    match queueOf w.b with
    | some q =>
      if ((d.core u).queue q).length ≥ 8 then hold (s.fullStall u q)
      else
        let s := s.onDev fun d => (d.dispatch u pc q w.b).issued u w.b (pc + 1) true wasHeld step
        (s.startHead u q).onDev fun d => d.settle u
    | none =>
      match d.seqWord u pc w.b with
      | .go d' pc' => { s with dev := d'.issued u w.b pc' true wasHeld step }
      | .hold c => hold c
      | .err c => stop c

/-- Whether a core issues words: RUNNING or WAITING, awake, with no word held and issue not ended. -/
def Dev.issues (d : Dev) (u : Nat) : Bool :=
  d.awake u && (d.coreState u = 1 || d.coreState u = 2) && (d.core u).held.isNone && (d.core u).halting = 0

/-- Whether a core does not issue because its domain is waking (R98). -/
def Dev.wakeStall (d : Dev) (u : Nat) : Bool :=
  !d.awake u && !d.siteOut (u / 256) && (d.dom (u / 256)).exiting && (d.coreState u = 1 || d.coreState u = 2)

/-- A word row: the core issues this word. -/
def State.word (s : State) (c : Core) (g : Guard) (b : WordBody) : Host.Outcome State Fault Refusal :=
  let u := cu c.site.val c.core.val
  if s.dev.issues u then s.done (s.issueWord u ⟨g, b⟩ false false)
  else if s.dev.wakeStall u then s.done (s.onDev fun d => d.setF F.COR_STATUS_STALL u 9)
  else s.done s

/-! The core commands (R139 to R142, R58). -/

/-- RUN (R140): it also opens every core queue (R279). A core site that is not in service has its clock stopped and stays HALTED
(R79). -/
def Dev.coreRun (d : Dev) (u : Nat) : Dev :=
  if (d.lcoreOf u).isNone then d
  else if d.coreState u = 0 then
    let d := (d.setF F.COR_STATUS_PC u (d.fld F.COR_CTRL_ENTRY u)).setF F.COR_STATUS_STATE u 1
    (d.setF F.COR_QCTRL_OPEN u 0xFF).modCore u fun x =>
      { x with cd := [], v := [], m := [], held := none, halting := 0, sleepHint := 0 }
  else d.setF F.COR_STATUS_WR_REJ u 1

/-- The word at the core's PC (R90). -/
def State.fetchWord (s : State) (u : Nat) : BitVec 64 :=
  BitVec.ofNat 64 (leNat (s.get (coreBase (u / 256) (u % 256) + 0x140000 + 8 * s.dev.fld F.COR_STATUS_PC u) 8))

/-- STEP (Table 2-9): while HALTED, the word at PC issues and the core halts again. A core site that is not in service has no clock
(R79). -/
def State.coreStep (s : State) (u : Nat) : State :=
  if s.dev.coreState u = 0 && s.dev.awake u && (s.dev.lcoreOf u).isSome then
    let pc := s.dev.fld F.COR_STATUS_PC u
    let la := 0x140000 + 8 * pc
    if s.marked u 2 [(la, 8)] ≠ [] then s.onDev fun d => d.eccStop u (d.core u).nextSeq pc 0 la
    else
      let s := s.onDev fun d => d.countCe u (s.marked u 1 [(la, 8)])
      let w := s.fetchWord u
      match decodeWord w with
      | some x => s.issueWord u x false true
      | none =>
        let g := wGuard w
        if (bitOf (s.dev.fld F.COR_PRED_P u) g.pred.toNat || g.pred.toNat = 0) != g.pn then
          s.onDev fun d => d.descErr u (d.core u).nextSeq pc (wFld w 58 6).toNat eIllegal
        else s.onDev fun d => d.issued u .nop (pc + 1) false false true
  else s

/-- A write of COR_CTRL. Where it would change CUBE_RETIRED outside HALTED, only that change is ignored; ENTRY, RUN, HALT and STEP
of the same write act (R58 says that the write is ignored; how much of it is open: assumption 96). -/
def State.wrCorCtrl (s : State) (u v : Nat) : State :=
  let s := s.onDev fun d =>
    let d := (d.setF F.COR_CTRL_ENTRY u (bitsOf v 16 13)).setCubeRetired u (bitOf v 7)
    let d := if bitOf v 0 then d.coreRun u else d
    if bitOf v 1 then d.coreHalt u else d
  if bitOf v 2 then s.coreStep u else s

/-- RUN: a write of 1 to COR_CTRL.RUN. -/
def execRun (c : Core) (s : State) : Host.Outcome State Fault Refusal :=
  s.upd fun d => let u := cu c.site.val c.core.val; if d.coreReach u then d.coreRun u else d

/-- HALT: a write of 1 to COR_CTRL.HALT. -/
def execHalt (c : Core) (s : State) : Host.Outcome State Fault Refusal :=
  s.upd fun d => let u := cu c.site.val c.core.val; if d.coreReach u then d.coreHalt u else d

/-- STEP: a write of 1 to COR_CTRL.STEP. -/
def execStep (c : Core) (s : State) : Host.Outcome State Fault Refusal :=
  s.done (let u := cu c.site.val c.core.val; if s.dev.coreReach u then s.coreStep u else s)

/-- CUBE_RETIRED: a write of COR_CTRL.CUBE_RETIRED. -/
def execCubeRetired (c : Core) (v : Bool) (s : State) : Host.Outcome State Fault Refusal :=
  s.upd fun d => let u := cu c.site.val c.core.val; if d.coreReach u then d.setCubeRetired u v else d

/-! The word rows (Table 3-3). -/

/-- NOP. -/
def execNop (c : Core) (g : Guard) (s : State) : Host.Outcome State Fault Refusal := s.word c g .nop

/-- END (R136). -/
def execEnd (c : Core) (g : Guard) (s : State) : Host.Outcome State Fault Refusal := s.word c g .end_

/-- BR (R130). -/
def execBr (c : Core) (g : Guard) (tgt : BitVec 13) (s : State) : Host.Outcome State Fault Refusal := s.word c g (.br tgt)

/-- LOOP (R130). -/
def execLoop (c : Core) (g : Guard) (lc : BitVec 2) (tgt : BitVec 13) (s : State) : Host.Outcome State Fault Refusal :=
  s.word c g (.loop lc tgt)

/-- LSET. -/
def execLset (c : Core) (g : Guard) (lc : BitVec 2) (src : Bool) (sa : BitVec 4) (imm : BitVec 20) (s : State) :
    Host.Outcome State Fault Refusal := s.word c g (.lset lc src sa imm)

/-- PSET (R129). -/
def execPset (c : Core) (g : Guard) (pd cmp : BitVec 3) (sa : BitVec 4) (imf : Bool) (sb : BitVec 4) (imm : BitVec 16)
    (s : State) : Host.Outcome State Fault Refusal := s.word c g (.pset pd cmp sa imf sb imm)

/-- PLOG. -/
def execPlog (c : Core) (g : Guard) (pd pa pb : BitVec 3) (op : BitVec 2) (s : State) :
    Host.Outcome State Fault Refusal := s.word c g (.plog pd pa pb op)

/-- SALU (R129). -/
def execSalu (c : Core) (g : Guard) (sd sa sb op : BitVec 4) (s : State) : Host.Outcome State Fault Refusal :=
  s.word c g (.salu sd sa sb op)

/-- SALUI (R129). -/
def execSalui (c : Core) (g : Guard) (sd sa op : BitVec 4) (imm : BitVec 32) (s : State) :
    Host.Outcome State Fault Refusal := s.word c g (.salui sd sa op imm)

/-- SLI. -/
def execSli (c : Core) (g : Guard) (sd : BitVec 4) (imm : BitVec 32) (s : State) : Host.Outcome State Fault Refusal :=
  s.word c g (.sli sd imm)

/-- QRD (R98). -/
def execQrd (c : Core) (g : Guard) (sd : BitVec 4) (q : BitVec 3) (w : BitVec 4) (pop : Bool) (s : State) :
    Host.Outcome State Fault Refusal := s.word c g (.qrd sd q w pop)

/-- DADD. -/
def execDadd (c : Core) (g : Guard) (dd : BitVec 5) (imf : Bool) (sa : BitVec 4) (imm : BitVec 32) (s : State) :
    Host.Outcome State Fault Refusal := s.word c g (.dadd dd imf sa imm)

/-- SEM WAIT (R131). -/
def execSemWait (c : Core) (g : Guard) (scope : Bool) (idx : BitVec 8) (vs : Bool) (sv : BitVec 4) (val : BitVec 16)
    (s : State) : Host.Outcome State Fault Refusal := s.word c g (.sem 0 scope idx vs sv val)

/-- SEM ADD (R131). -/
def execSemAdd (c : Core) (g : Guard) (scope : Bool) (idx : BitVec 8) (vs : Bool) (sv : BitVec 4) (val : BitVec 16)
    (s : State) : Host.Outcome State Fault Refusal := s.word c g (.sem 1 scope idx vs sv val)

/-- SEM SUB (R131). -/
def execSemSub (c : Core) (g : Guard) (scope : Bool) (idx : BitVec 8) (vs : Bool) (sv : BitVec 4) (val : BitVec 16)
    (s : State) : Host.Outcome State Fault Refusal := s.word c g (.sem 2 scope idx vs sv val)

/-- FENCE LOCAL (R132). -/
def execFenceLocal (c : Core) (g : Guard) (eng : BitVec 3) (s : State) : Host.Outcome State Fault Refusal :=
  s.word c g (.fence 0 eng)

/-- FENCE OUTBOUND (R132). -/
def execFenceOutbound (c : Core) (g : Guard) (eng : BitVec 3) (s : State) : Host.Outcome State Fault Refusal :=
  s.word c g (.fence 1 eng)

/-- FENCE FULL (R132). -/
def execFenceFull (c : Core) (g : Guard) (eng : BitVec 3) (s : State) : Host.Outcome State Fault Refusal :=
  s.word c g (.fence 2 eng)

/-- ROUTE (R133). -/
def execRoute (c : Core) (g : Guard) (mode : BitVec 2) (s : State) : Host.Outcome State Fault Refusal :=
  s.word c g (.route mode)

/-- PHASE (R134, R299). -/
def execPhase (c : Core) (g : Guard) (ph : BitVec 6) (s : State) : Host.Outcome State Fault Refusal :=
  s.word c g (.phase ph)

/-- SLEEP (R135). -/
def execSleep (c : Core) (g : Guard) (lvl : BitVec 2) (exp : BitVec 16) (s : State) : Host.Outcome State Fault Refusal :=
  s.word c g (.sleep lvl exp)

/-- MOV (R117). -/
def execMov (c : Core) (g : Guard) (y : Sync) (ds dd : BitVec 5) (s : State) : Host.Outcome State Fault Refusal :=
  s.word c g (.mov y ds dd)

/-- RECV (R118). -/
def execRecv (c : Core) (g : Guard) (y : Sync) (q : BitVec 3) (dd : BitVec 5) (drop : Bool) (s : State) :
    Host.Outcome State Fault Refusal := s.word c g (.recv y q dd drop)

/-- SEND (R128). -/
def execSend (c : Core) (g : Guard) (y : Sync) (ds : BitVec 5) (chan : BitVec 8) (sig : Bool) (sign : BitVec 4)
    (sten : Bool) (sreg : BitVec 4) (s : State) : Host.Outcome State Fault Refusal :=
  s.word c g (.send y ds chan sig sign sten sreg)

/-- CST.ARM (R290). -/
def execCstArm (c : Core) (g : Guard) (y : Sync) (slot : BitVec 8) (count : BitVec 12) (chan : BitVec 8) (s : State) :
    Host.Outcome State Fault Refusal := s.word c g (.cstArm y slot count chan)

/-- CST.ADD (R128). -/
def execCstAdd (c : Core) (g : Guard) (y : Sync) (ds : BitVec 5) (clu slot : BitVec 8) (s : State) :
    Host.Outcome State Fault Refusal := s.word c g (.cstAdd y ds clu slot)

/-- SLD (R119). -/
def execSld (c : Core) (g : Guard) (y : Sync) (sr sa : BitVec 4) (off : BitVec 21) (s : State) :
    Host.Outcome State Fault Refusal := s.word c g (.sld y sr sa off)

/-- SST (R119). -/
def execSst (c : Core) (g : Guard) (y : Sync) (sr sa : BitVec 4) (off : BitVec 21) (s : State) :
    Host.Outcome State Fault Refusal := s.word c g (.sst y sr sa off)

/-- DLD (R119). -/
def execDld (c : Core) (g : Guard) (y : Sync) (sr sa : BitVec 4) (dd : BitVec 5) (off : BitVec 21) (s : State) :
    Host.Outcome State Fault Refusal := s.word c g (.dld y sr sa dd off)

/-- CUBE (R120). -/
def execCube (c : Core) (g : Guard) (y : Sync) (da dw dp : BitVec 5) (acc : Bool) (s : State) :
    Host.Outcome State Fault Refusal := s.word c g (.cube y da dw dp acc)

/-- DOT (R120). -/
def execDot (c : Core) (g : Guard) (y : Sync) (da dw dp : BitVec 5) (acc : Bool) (s : State) :
    Host.Outcome State Fault Refusal := s.word c g (.dot y da dw dp acc)

/-- VOP (R124). -/
def execVop (c : Core) (g : Guard) (y : Sync) (fn : BitVec 6) (da db dc dd : BitVec 5) (bs : Bool) (s : State) :
    Host.Outcome State Fault Refusal := s.word c g (.vop y fn da db dc dd bs)

/-- VRED (R125). -/
def execVred (c : Core) (g : Guard) (y : Sync) (rfn : BitVec 4) (da : BitVec 5) (sd : BitVec 4) (s : State) :
    Host.Outcome State Fault Refusal := s.word c g (.vred y rfn da sd)

/-- CVT (R126). -/
def execCvt (c : Core) (g : Guard) (y : Sync) (ds dd db : BitVec 5) (ben : Bool) (ss : BitVec 4) (sen : Bool)
    (sc : BitVec 4) (cen : Bool) (rnd : BitVec 2) (de : BitVec 5) (een : Bool) (s : State) :
    Host.Outcome State Fault Refusal := s.word c g (.cvt y ds dd db ben ss sen sc cen rnd de een)

/-- CHK (R127). -/
def execChk (c : Core) (g : Guard) (y : Sync) (cfn : BitVec 4) (da db : BitVec 5) (pd : BitVec 3) (sd : BitVec 4)
    (s : State) : Host.Outcome State Fault Refusal := s.word c g (.chk y cfn da db pd sd)

/-- ISSUE_RESUME: the condition that held issue is met, and the held word issues (R98). -/
def execIssueResume (c : Core) (s : State) : Host.Outcome State Fault Refusal :=
  let u := cu c.site.val c.core.val
  match (s.dev.core u).held with
  | some (w, step) => if s.dev.awake u then s.done (s.issueWord u w true step) else s.done s
  | none => s.done s

/-- ENGINE_WORD_START: the head of an engine queue starts when nothing holds it (R91, R96). -/
def execEngineWordStart (c : Core) (q : EngQ) (s : State) : Host.Outcome State Fault Refusal :=
  let u := cu c.site.val c.core.val
  if s.dev.awake u then s.done ((s.startHead u q).onDev fun d => d.settle u) else s.done s

/-- ENGINE_WORD_COMPLETE: the running word of an engine completes (R97, Table 3-17). -/
def execEngineWordComplete (c : Core) (q : EngQ) (s : State) : Host.Outcome State Fault Refusal :=
  let u := cu c.site.val c.core.val
  if s.dev.awake u then s.done (s.finishHead u q) else s.done s

/-- The word that a wait timer times: the held SEM WAIT or QRD, or the head of an engine queue that waits with its WAIT field, for a
message to RECV, or for a message on a core-queue operand (R298, R625). -/
def Dev.waiter (d : Dev) (u : Nat) (w : Option EngQ) : Option (Nat × Nat × Nat) :=
  match w with
  | none =>
    match (d.core u).held with
    | some (x, _) => if keepsHint x.b && (d.fld F.COR_STATUS_STALL u = 5 || d.fld F.COR_STATUS_STALL u = 6) then some ((d.core u).nextSeq, d.fld F.COR_STATUS_PC u, (opcOf x.b).toNat) else none
    | none => none
  | some q =>
    match (d.core u).queue q with
    | x :: _ =>
      let y := syncOf x.body
      let recv := match x.body with
        | .recv _ q _ _ => (d.qHead u q.toNat).isNone
        | _ => false
      let queue := x.ds.any fun z => dSpace z = 4 && (d.qHead u (dBase z % 8)).isNone
      if !x.started && ((y.waitEn && d.fld F.COR_SEM_V u y.waitSem.toNat = 0) || recv || queue)
      then some (x.seq, x.pc, (opcOf x.body).toNat) else none
    | [] => none

/-- WAIT_TMO: a wait has lasted longer than the timeout (R298). -/
def execWaitTmo (c : Core) (waiter : Option EngQ) (s : State) : Host.Outcome State Fault Refusal :=
  s.upd fun d =>
    let u := cu c.site.val c.core.val
    if d.fld F.COR_WAIT_TMO_TMO_US u = 0 then d
    else
      match d.waiter u waiter with
      | none => d
      | some (seq, pc, opc) =>
        let d := if d.flag F.COR_WAIT_TMO_ACT u then d.stopAt u seq pc opc eWaitTmo else d
        d.raise (evU bCOR u) 10 1 pc

/-- FREQ_FALL_DEADLINE: no collective boundary came within 8 µs of the decision (R299). -/
def execFreqFallDeadline (site : Site) (s : State) : Host.Outcome State Fault Refusal :=
  s.upd fun d => d.applyFall site.val

end Sys2Proof.Machine
end

