-- ==== Sys2Proof/Machine/Domains.lean ====
section
/-! DEFINITION. Power domains as every block sees them (spec/13_sleep_and_wake.md R474 to R482): demands to leave a state. -/

namespace Sys2Proof.Machine

/-- The stack of an HBM address. -/
def hbmOf (a : Nat) : Nat := (a - 0x100000000000) / 0x1000000000

/-- The domain of a place. -/
def Dev.placeDom (d : Dev) (pl : Place) : Option Nat :=
  match pl with
  | .mem a =>
    if a < 0x100000000000 then some ((a - 0x1000000000) / 0x8000000)
    else if a < 0x200000000000 then some (domHbm (hbmOf a))
    else some (domCel (d.celChan (a - 0x200000000000)))
  | .host _ => some domHost
  | .reg blk inst _ => regDomain blk inst
  | _ => none

/-- The domain that an access that has reached a place must wait for, when it sleeps (R480, R482). -/
def Dev.placeSleeps (d : Dev) (pl : Place) : Option Nat := (d.placeDom pl).filter d.rests

/-- The fabric domains of the routers that a packet passes, by the route tables, in at most n hops (R482). -/
def Dev.pathFabs (d : Dev) (p : Packet) : Nat → Nat → Nat → List Nat
  | 0, _, _ => []
  | n + 1, site, port =>
    domFab (fieldOf site) :: (if p.dstSite.toNat = site then []
      else match d.routePort site port p with
        | none => []
        | some o => match neighbour site o with
          | none => []
          | some t => d.pathFabs p n t (backPort o))

/-- The fabric domains on the way of an access from an edge port to an address (R482). -/
def Dev.accessPath (d : Dev) (site port a : Nat) : List Nat :=
  match d.route site (d.injEpoch site) a with
  | none => []
  | some (ds, c, _) =>
    let p : Packet := { pkt0 with dstSite := BitVec.ofNat 8 ds, dstCore := BitVec.ofNat 6 c, epoch := d.injEpoch site = 1 }
    (d.pathFabs p 32 site port).eraseDups

/-- The domains that an access from an edge port to an address waits for: that of its place and those on its way (R482). -/
def Dev.accessWaits (d : Dev) (site port : Nat) (pl : Place) (a : Nat) : List Nat :=
  ((d.placeDom pl).toList ++ d.accessPath site port a).filter d.rests

end Sys2Proof.Machine
end

