-- ==== Sys2Proof/Machine/Units.lean ====
section
/-! DEFINITION. The cluster units and Transom (spec/05_conditional_computation.md): router unit, key-value selector,
sampling unit, the zero-skip threshold, and TRN. -/

namespace Sys2Proof.Machine

/-- Byte i of a record. -/
def byteAt (bs : List Byte) (i : Nat) : Nat := leAt bs i 1

/-- Whether a message has the length that its header implies; messages are whole in units of 8 B (R270). -/
def lenIs (bs : List Byte) (n : Nat) : Bool := bs.length == n || bs.length == (n + 7) / 8 * 8

/-- Insert by a strict order, behind equal elements. -/
def insertBy {α : Type} (lt : α → α → Bool) (x : α) : List α → List α
  | [] => [x]
  | y :: r => if lt x y then x :: y :: r else y :: insertBy lt x r

/-- A stable sort. -/
def sortBy {α : Type} (lt : α → α → Bool) (xs : List α) : List α := xs.foldl (fun a x => insertBy lt x a) []

/-- Whether a request is the next that a unit processes: the first of those that wait for it (R173, R209). A message that `held`
keeps waiting is passed over; a unit with none waiting takes the request as it arrives. -/
def Dev.unitTurn (d : Dev) (site tgt : Nat) (body : List Byte) (held : List Byte → Bool := fun _ => false) : Bool :=
  match (d.clu site).unitQ.find? fun w => w.1 == tgt && !held w.2.body with
  | none => true
  | some w => w.2.body == body

/-- A unit takes a message that waits for it: the message is committed (R173, R269). -/
def Dev.takeUnit (d : Dev) (site tgt : Nat) (body : List Byte) : Dev :=
  match (d.clu site).unitQ.find? fun w => w.1 == tgt && w.2.body == body with
  | none => d
  | some w =>
    let d := d.modClu site fun x => { x with unitQ := x.unitQ.erase w }
    (d.signal w.2.pkt none).ackMsg w.2.pkt w.2.circ 0

/-- UNIT_REJECT (R174): a unit discards a request whole. -/
def Dev.unitReject (d : Dev) (site tgt : Nat) : Dev :=
  (d.addSat F.CLU_UNIT_STATUS_REJECTS site 1).raise (evU bCLU site) 1 1 tgt

/-! The router unit (R188 to R192). -/

/-- −∞ as a score key. -/
def negInf : Int := -0x7F800000

/-- The order of binary32 scores: a NaN counts as −∞ (R189), the zeros are equal. -/
def scoreKey (b : Nat) : Int :=
  let m := b % 0x80000000
  if m > 0x7F800000 then negInf else if bitOf b 31 then -(m : Int) else (m : Int)

/-- Whether binary32 bits are a NaN. -/
def isNan32 (b : Nat) : Bool := decide (b % 0x80000000 > 0x7F800000)

/-- What the choice for one position does with the next candidates: chosen experts, counts per expert, overflows. -/
def routePick (k cap : Nat) (scores : List Nat) : List Nat → List Nat × SMap Nat × Nat → List Nat × SMap Nat × Nat
  | [], x => x
  | e :: r, (ch, cnt, ov) =>
    if ch.length = k || scoreKey (scores.getD e 0) ≤ negInf then (ch, cnt, ov)
    else if cap ≠ 0 && sget cnt 0 e = cap then routePick k cap scores r (ch, cnt, ov + 1)
    else routePick k cap scores r (ch ++ [e], sset cnt 0 e (sget cnt 0 e + 1), ov)

/-- The candidates of a position: score descending, equal scores lower index first. -/
def routeCand (scores : List Nat) : List Nat :=
  sortBy (fun a b => decide (scoreKey (scores.getD b 0) < scoreKey (scores.getD a 0))) (List.range scores.length)

/-- A binary32 value as a signed whole number of 2^−160; 0 for what is not finite. -/
def fix160 (b : Nat) : Int :=
  match numOf .b32 b with
  | .fin s m e => if s then -((m * 2 ^ (e + 160).toNat : Nat) : Int) else (m * 2 ^ (e + 160).toNat : Nat)
  | _ => 0

/-- Whether binary32 bits are −∞, or a NaN, which a score counts as −∞ (R189). -/
def isLow32 (b : Nat) : Bool := decide (scoreKey b ≤ negInf)

/-- exp (s − t) for binary32 s and t with s ≤ t; zero for −∞. -/
def expBelow (s t : Nat) : Nat × Int := if isLow32 s then (0, 0) else expDown ((fix160 t - fix160 s).toNat / 2 ^ 32)

/-- The sigmoid of a binary32 score. -/
def sigmoid32 (b : Nat) : Nat × Int :=
  match numOf .b32 b with
  | .fin s m e => if m = 0 then (1, -1) else (specialValue 0x0F s m e).2
  | .inf false => (1, 0)
  | _ => (0, 0)

/-- The larger of two binary32 scores. -/
def maxScore (xs : List Nat) : Nat := xs.foldl (fun m x => if scoreKey m < scoreKey x then x else m) 0xFF800000

/-- The exact weight of R190, by its formula: none where binary32 need not form it (a score of +∞, or scores whose sigmoids may all be
0 within the accuracy of R60). -/
def weightValue (norm : Nat) (scores chosen : List Nat) (i : Nat) : Option (Nat × Int) :=
  let own := scores.getD (chosen.getD i 0) 0
  let pool := if norm = 1 then scores else chosen.map fun j => scores.getD j 0
  if norm = 2 then
    let ss := pool.map sigmoid32
    if ss.all fun x => x.1 = 0 || x.2 + (specLen x.1 : Int) ≤ -148 then none else some (fixDiv (sigmoid32 own) (fixSum ss))
  else
    let m := maxScore pool
    if m = 0x7F800000 || isLow32 m then none
    else some (fixDiv (expBelow own m) (fixSum (pool.map fun s => expBelow s m)))

/-- Bits of a non-negative binary32 value within 2 ulp of an exact one: the free value `pick` chooses (R60, assumptions 7 and 8). -/
def near32 (x : Nat × Int) (pick : Nat) : Nat :=
  let r := boundedPick 2 24 (-126) x.1 x.2 pick
  (toLong .b32 .rne false (.fin false r.1 r.2)).1

/-- The weight of a chosen expert (R190): the score itself for NORM 3, else a binary32 value within the accuracy of R60
(assumption 7). -/
def routeW (norm : Nat) (scores chosen : List Nat) (i : Nat) : Nat :=
  if norm = 3 then scores.getD (chosen.getD i 0) 0
  else match weightValue norm scores chosen i with
    | some x => near32 x (Config.routeWeight norm scores chosen i)
    | none => Config.routeWeight norm scores chosen i % 2 ^ 32

/-- The entries of one position of a routing record (Table 5-4). -/
def routeEntries (k norm : Nat) (scores chosen : List Nat) : List Byte :=
  (List.range k).flatMap fun i =>
    if i < chosen.length then leBytes 1 (chosen.getD i 0) ++ [1, 0, 0] ++ leBytes 4 (routeW norm scores chosen i) else zeros 8

/-- The work of the router unit on a request: the record, overflows, short positions and NaN scores. -/
def routeWork (bs : List Byte) : List Byte × Nat × Nat × Nat :=
  let e := byteAt bs 2 + 1
  let b3 := byteAt bs 3
  let k := b3 % 8 + 1
  let p := b3 / 8 % 8 + 1
  let cap := leAt bs 4 2
  let score (i : Nat) : List Nat := (List.range e).map fun j => leAt bs (16 + 4 * (i * e + j)) 4
  let init : List (List Nat × List Nat) × SMap Nat × Nat := ([], [], 0)
  let w := (List.range p).foldl (fun y i =>
    let sc := score i
    let r := routePick k cap sc ((routeCand sc).take (k + 8)) ([], y.2.1, y.2.2)
    (y.1 ++ [(sc, r.1)], r.2.1, r.2.2)) init
  let nans := (w.1.map fun x => (x.1.filter isNan32).length).sum
  let short := (w.1.filter fun x => x.2.length < k).length
  let st := b2n (decide (nans > 0)) + 2 * b2n (decide (short > 0))
  (bs.take 2 ++ leBytes 1 p ++ leBytes 1 k ++ leBytes 1 st ++ zeros 3 ++ takeZ 8 (bs.drop 8) ++
    w.1.flatMap fun x => routeEntries k (b3 / 64) x.1 x.2, w.2.2, short, nans)

/-- Send a record to TRN: a message to the UNIT landing TRN at its edge port (R192, R631). -/
def Dev.toTrn (d : Dev) (site : Nat) (body : List Byte) : Dev :=
  let ps := msgPackets site 60 251 61 (d.injEpoch site = 1) 0 0 3 3 none false 0 0 false body
  d.inject site 4 ps (some .other)

/-- A request at the router unit (R174, R188 to R192). -/
def Dev.routeUnit (d : Dev) (site op : Nat) (bs : List Byte) : Dev :=
  let d := d.takeUnit site 0 bs
  let n := (byteAt bs 2 + 1) * (byteAt bs 3 / 8 % 8 + 1)
  if !d.flag F.CLU_UNIT_CTRL_RTU_EN site || byteAt bs 0 ≠ op || n > 1020 || !lenIs bs (16 + 4 * n) then d.unitReject site 0
  else
    let (rcd, ov, short, nans) := routeWork bs
    let d := (d.addSat F.CLU_UNIT_STATUS_RTU_OVERFLOW site ov).addSat F.CLU_UNIT_STATUS_RTU_SHORT site short
    let d := if nans > 0 then (d.addSat F.CLU_UNIT_STATUS_RTU_NAN site nans).raise (evU bCLU site) 3 0 0 else d
    if op = 2 then d.toTrn site rcd
    else
      let d := d.cluSend site (d.fld F.CLU_UNIT_CTRL_RTU_CHAN site) rcd
      if d.flag F.CLU_UNIT_CTRL_TRN_FWD site then d.toTrn site rcd else d

/-- ROUTE_REQUEST: the router unit takes a ROUTE request (R189). -/
def execRouteRequest (site : Site) (body : List Byte) (s : State) : Host.Outcome State Fault Refusal :=
  s.upd fun d => if d.siteOut site.val || !d.unitTurn site.val 0 body then d else d.routeUnit site.val 1 body

/-- PREDICT_REQUEST: the router unit takes a PREDICT request (R189, R192). -/
def execPredictRequest (site : Site) (body : List Byte) (s : State) : Host.Outcome State Fault Refusal :=
  s.upd fun d => if d.siteOut site.val || !d.unitTurn site.val 0 body then d else d.routeUnit site.val 2 body

/-! The key-value selector (R203 to R209). -/

/-- Bytes of a summary slot for head width dd (R203). -/
def slotSize (dd : Nat) : Nat := (32 + 2 * dd + 2 * (dd / 32) + 63) / 64 * 64

/-- Head width of a selector request. -/
def selD (bs : List Byte) : Nat := 32 * (byteAt bs 2 + 1)

/-- CSM offset of the slot of a block. -/
def selSlot (bs : List Byte) (block : Nat) : Nat := leAt bs 4 4 + block * slotSize (selD bs)

/-- What every selector request is checked for (R174, R203, R204). -/
def Dev.selOk (d : Dev) (site op : Nat) (bs : List Byte) : Bool :=
  d.flag F.CLU_UNIT_CTRL_KVS_EN site && byteAt bs 0 == op && decide (byteAt bs 2 ≤ 7) && leAt bs 4 4 % 64 == 0

/-- An element of a summary: an M8 code under its block exponent (R152). -/
def sumVal (code e : Nat) : Num := if e = 255 then .dnan else shiftNum (numOf .m8 code) ((e : Int) - 127)

/-- Widen one group of 32 elements of a summary towards the keys (R205). `up` is KMAX. An element that a NaN key meets
is free: `nan i` (assumption 9). -/
def widenGroup (up start : Bool) (nan : Nat → Nat) (codes : List Nat) (e : Nat) (keys : List Num) : List Nat × Nat :=
  let old := codes.map fun c => sumVal c e
  let vals := (old.zip keys).map fun x =>
    if start || x.1.isNan then x.2 else if x.2.isNan then x.2 else if up then Num.maxOf x.1 x.2 else Num.minOf x.1 x.2
  let lim := shiftNum (.fin false (shortMax .m8).1 (shortMax .m8).2) ((e : Int) - 127)
  let grow := start || vals.any fun v => v.isFin && (v.setNeg false).cmp lim == .gt
  let ne := if grow then blockExp .m8 vals else e
  let enc (v : Num) : Nat := (roundSat .m8 (if up then .rup else .rdn) false (shiftNum v (127 - (ne : Int)))).1
  let new := vals.zipIdx.map fun x =>
    if x.1.isNan then nan x.2 % 256
    else if !grow && (old.getD x.2 .dnan).cmp x.1 == .eq && !(old.getD x.2 .dnan).isNan then codes.getD x.2 0
    else enc x.1
  (new, ne)

/-- The slot after an UPDATE with a token and its keys (R205). -/
def slotUpdate (old : List Byte) (dd block token : Nat) (free : Nat → Nat) (keys : List Num) : List Byte :=
  let mask := leAt old 16 16
  let start := byteAt old 2 = 0
  let mask' := putBit (if start then 0 else mask) token true
  let side (up : Bool) (o eo fo : Nat) : List Byte × List Byte :=
    let gs := (List.range (dd / 32)).map fun g =>
      widenGroup up start (fun i => free (fo + 32 * g + i)) ((List.range 32).map fun i => byteAt old (o + 32 * g + i))
        (byteAt old (eo + g)) ((keys.drop (32 * g)).take 32)
    (gs.flatMap fun x => x.1.flatMap (leBytes 1), gs.flatMap fun x => leBytes 1 x.2)
  let mx := side true 32 (32 + 2 * dd) 0
  let mn := side false (32 + dd) (32 + 2 * dd + dd / 32) dd
  leBytes 2 block ++ leBytes 1 (popCount mask' 128) ++ (old.drop 3).take 13 ++ leBytes 16 mask' ++ mx.1 ++ mn.1 ++ mx.2 ++ mn.2

/-- UPDATE: the selector adds a key to a block summary (R205). -/
def execUpdate (site : Site) (body : List Byte) (s : State) : Host.Outcome State Fault Refusal :=
  let i := site.val
  if s.dev.siteOut i || !s.dev.unitTurn i 1 body then s.done s
  else
    let s1 := s.onDev fun d => d.takeUnit i 1 body
    let dd := selD body
    let block := leAt body 16 2
    let tok := byteAt body 18
    if !s1.dev.selOk i 0x11 body || block > 4095 || tok > 127 || !lenIs body (32 + 2 * dd) then
      s.done (s1.onDev fun d => d.unitReject i 1)
    else
      let r := s1.csmRead i (selSlot body block) (32 + 2 * dd + 2 * (dd / 32))
      let n := r.1.dev.fresh
      let keys := (List.range dd).map fun j => numOf .b16 (leAt body (32 + 2 * j) 2)
      let new := slotUpdate r.2.1 dd block tok (fun j => (Config.freeWord (n + j)).toNat) keys
      s.done ((r.1.putCsm i (selSlot body block) new).onDev fun d => if keys.any Num.isNan then { d with fresh := n + 2 * dd } else d)

/-- ROLLBACK: the selector clears the mask bits from a token to the end of a block (R206). -/
def execRollback (site : Site) (body : List Byte) (s : State) : Host.Outcome State Fault Refusal :=
  let i := site.val
  if s.dev.siteOut i || !s.dev.unitTurn i 1 body then s.done s
  else
    let s1 := s.onDev fun d => d.takeUnit i 1 body
    let block := leAt body 16 2
    let tok := byteAt body 18
    if !s1.dev.selOk i 0x12 body || block > 4095 || tok > 127 || !lenIs body 32 then s.done (s1.onDev fun d => d.unitReject i 1)
    else
      let a := selSlot body block
      let r := s1.csmRead i a 32
      let mask := leAt r.2.1 16 16 % 2 ^ tok
      s.done ((r.1.putCsm i (a + 2) (leBytes 1 (popCount mask 128))).putCsm i (a + 16) (leBytes 16 mask))

/-- The larger of two products of binary32, none where a NaN leaves it open. -/
def selTerm (q mx mn : Num) : Option Num :=
  if q.isNan || mx.isNan || mn.isNan then none
  else
    let a := (Num.mul q mx).1
    let b := (Num.mul q mn).1
    if a.isNan || b.isNan then none else some (Num.maxOf a b)

/-- Add in binary32 (R207). -/
def sumB32 (a b : Num) : Num := numOf .b32 (toLong .b32 .rne false (Num.add .rne a b).1).1

/-- The score of one head: the terms rounded to binary32 and summed in order of i (assumption 9); none when open. -/
def headScore (q mx mn : List Num) : Option Num :=
  (q.zip (mx.zip mn)).foldl (fun acc x => match acc, selTerm x.1 x.2.1 x.2.2 with
    | some a, some t =>
      let r := sumB32 a (numOf .b32 (toLong .b32 .rne false t).1)
      if r.isNan then none else some r
    | _, _ => none) (some (.fin false 0 0))

/-- The score of a block as a key, from its slot and the queries (R207). -/
def blockScore (block dd : Nat) (slot : List Byte) (qs : List (List Num)) (qbits : List Nat) : Int :=
  if byteAt slot 2 = 0 then negInf
  else
    let vals (o eo : Nat) : List Num := (List.range dd).map fun i => sumVal (byteAt slot (o + i)) (byteAt slot (eo + i / 32))
    let mx := vals 32 (32 + 2 * dd)
    let mn := vals (32 + dd) (32 + 2 * dd + dd / 32)
    let hs := qs.map fun q => headScore q mx mn
    match hs.foldl (fun a h => match a, h with
      | some (some x), some y => some (some (Num.maxOf x y))
      | some none, some y => some (some y)
      | _, _ => none) (some (none : Option Num)) with
    | some (some v) => scoreKey (toLong .b32 .rne false v).1
    | _ => Config.selectScore (block :: qbits ++ slot.map BitVec.toNat)

/-- The blocks chosen (R207): first block, recent blocks, then by score; with no more blocks than NSEL, every block that `full` says
has a non-zero NTOK. -/
def selChoose (nblk nsel nrecent : Nat) (keep : Bool) (full : Nat → Bool) (score : Nat → Int) : List Nat :=
  let base := (if keep then [0] else []) ++ ((List.range nblk).filter fun b => b + nrecent ≥ nblk && !(keep && b == 0))
  let rest := ((List.range nblk).filter fun b => !base.contains b && decide (score b > negInf))
  let keyed := rest.map fun b => (b, score b)
  let order := (sortBy (fun (x y : Nat × Int) => decide (y.2 < x.2)) keyed).map fun x => x.1
  let sel := base ++ order.take (nsel - base.length)
  (List.range nblk).filter fun b => sel.contains b || (decide (nblk ≤ nsel) && full b)

/-- Read the slots of blocks 0 to n − 1. -/
def State.readSlots (s : State) (site dd : Nat) (at_ : Nat → Nat) (n : Nat) : State × List (List Byte) :=
  (List.range n).foldl (fun x b =>
    let r := x.1.csmRead site (at_ b) (32 + 2 * dd + 2 * (dd / 32))
    (r.1, x.2 ++ [r.2.1])) (s, [])

/-- SELECT: the selector scores the blocks and returns those to fetch (R207, R208). -/
def execSelect (site : Site) (body : List Byte) (s : State) : Host.Outcome State Fault Refusal :=
  let i := site.val
  if s.dev.siteOut i || !s.dev.unitTurn i 1 body then s.done s
  else
    let s1 := s.onDev fun d => d.takeUnit i 1 body
    let g := byteAt body 1 + 1
    let dd := selD body
    let nblk := leAt body 16 2
    let nsel := byteAt body 18
    let b19 := byteAt body 19
    let nrec := b19 % 16
    let keep := bitOf b19 7
    if !s1.dev.selOk i 0x10 body || g > 8 || nblk = 0 || nblk > 4096 || nsel = 0 || nsel > 64 || nrec > 8 ||
        b2n keep + nrec > nsel || !lenIs body (32 + 2 * g * dd) then
      s.done (s1.onDev fun d => d.unitReject i 1)
    else
      let qb := (List.range (g * dd)).map fun j => leAt body (32 + 2 * j) 2
      let qs := (List.range g).map fun h => ((qb.drop (h * dd)).take dd).map (numOf .b16)
      let r := s1.readSlots i dd (selSlot body) nblk
      let scores := r.2.zipIdx.map fun x => blockScore x.2 dd x.1 qs qb
      let sel := selChoose nblk nsel nrec keep (fun b => byteAt (r.2.getD b []) 2 != 0) fun b => scores.getD b negInf
      let rcd := [0x13] ++ leBytes 2 sel.length ++ zeros 5 ++ takeZ 8 (body.drop 8) ++ sel.flatMap (leBytes 2)
      s.done (r.1.onDev fun d => d.cluSend i (byteAt body 3) rcd)

/-! The sampling unit (R213 to R221). -/

/-- The generator's next state (R218). -/
def xorshift (x : Word) : Word :=
  let x := x ^^^ (x <<< 13)
  let x := x ^^^ (x >>> 7)
  x ^^^ (x <<< 17)

/-- The value of rng() for a state: 24 bits times 2^−24. -/
def rngVal (x : Word) : Num := .fin false (x.toNat / 2 ^ 40) (-24)

/-- Change the sampling step. -/
def Dev.modAsu (d : Dev) (site : Nat) (f : AsuStep → AsuStep) : Dev := d.modClu site fun x => { x with asu := f x.asu }

/-- A header of a message from the sampling unit (R213). -/
def asuHdr (op slice : Nat) (x : AsuStep) : List Byte :=
  leBytes 1 op ++ leBytes 1 slice ++ leBytes 1 x.p ++ [0] ++ leBytes 4 x.step ++ leBytes 8 x.token

/-- The NORM entry of a slice at position j: (m, z, lx, idx). -/
def normAt (x : AsuStep) (slice j : Nat) : Nat × Nat × Nat × Nat :=
  match x.norms.find? fun r => r.1 == slice with
  | some r =>
    let o := 16 + 16 * j
    (leAt r.2 o 4, leAt r.2 (o + 4) 4, leAt r.2 (o + 8) 4, leAt r.2 (o + 12) 4)
  | none => (0, 0, 0, 0)

/-- The inputs of position j, slice by slice. -/
def normInputs (x : AsuStep) (n j : Nat) : List Nat :=
  (List.range n).flatMap fun s => let e := normAt x s j; [e.1, e.2.1, e.2.2.1, e.2.2.2]

/-- argmax of position j: the index of the largest m, the lowest slice on equal m (R215); open where an m is a NaN. -/
def asuArgmax (x : AsuStep) (n j : Nat) : Nat :=
  let es := (List.range n).map fun s => normAt x s j
  if es.any fun e => isNan32 e.1 then Config.asuPick (normInputs x n j) % 2 ^ 32
  else
    match sortBy (fun (a b : Nat × Nat) => decide (scoreKey b.1 < scoreKey a.1)) (es.map fun e => (e.1, e.2.2.2)) with
    | e :: _ => e.2
    | [] => 0

/-- q of draft position j. -/
def draftQ (x : AsuStep) (j : Nat) : Nat := leAt (x.draft.getD []) (16 + 8 * j + 4) 4

/-- Token of draft position j. -/
def draftTok (x : AsuStep) (j : Nat) : Nat := leAt (x.draft.getD []) (16 + 8 * j) 4

/-- log Z of position j as a signed whole number of 2^−160 (R215), and the larger of the magnitudes that its sum adds: none where an
input is no number that the formula takes. -/
def logZValue (x : AsuStep) (n j : Nat) : Option (Int × Nat) :=
  let es := (List.range n).map fun s => normAt x s j
  let m := maxScore (es.map fun e => e.1)
  let bad (e : Nat × Nat × Nat × Nat) : Bool :=
    isNan32 e.1 || e.2.1 ≥ 0x7F800000 || e.1 == 0x7F800000
  let z := fixSum (es.map fun e => match numOf .b32 e.2.1 with
    | .fin _ a b => let r := expBelow e.1 m; (a * r.1, b + r.2)
    | _ => (0, 0))
  if es.any bad || isLow32 m || z.1 = 0 then none
  else
    let l := log2Fix z.1 z.2
    let ln : Nat := l.2 * fixLn2 / fixOne * 2 ^ 50
    let v := fix160 m + (if l.1 then -(ln : Int) else (ln : Int))
    some (v, max v.natAbs (max (fix160 m).natAbs ln))

/-- log Z of position j as binary32: within 2 units of the last place of the largest magnitude in its sum (R215, assumption 8). -/
def asuLogZ (x : AsuStep) (n j : Nat) : Nat :=
  let pick := Config.asuProb 2 (j :: normInputs x n j)
  match logZValue x n j with
  | none => pick % 2 ^ 32
  | some (v, big) =>
    let ue := ulpExp 24 (-126) big (-160)
    let cs := withinUlps 2 v.natAbs (-160) ue
    (toLong .b32 .rne false (.fin (decide (v < 0)) (cs.getD (pick % max 1 cs.length) 0) ue)).1

/-- p of the draft token of position j: exp (lx − log Z) within the accuracy of R60, with lx of the slice that holds the token,
and 0 where none does (R215, assumption 8). -/
def asuP (x : AsuStep) (n j : Nat) : Nat :=
  let pick := Config.asuProb 1 (j :: normInputs x n j)
  let ls := (List.range n).map fun s => (normAt x s j).2.2.1
  let lx := maxScore ls
  let z := asuLogZ x n j
  if ls.any isNan32 || lx = 0x7F800000 || (logZValue x n j).isNone then pick % 2 ^ 32
  else if isLow32 lx then 0
  else
    let a := (fix160 lx - fix160 z) / 2 ^ 32
    if a > 0 then
      (if a > 80 * (fixOne : Int) then pick % 2 ^ 32
       else near32 (exp2Fix (a * (fixLog2e : Int) / (fixOne : Int))) pick)
    else near32 (expDown (-a).toNat) pick

/-- Whether rng · q < p, in exact arithmetic. -/
def accepts (r : Num) (q p : Nat) : Bool :=
  let a := numOf .b32 q
  let b := numOf .b32 p
  if a.isNan || b.isNan then false
  else
    let m := (Num.mul r a).1
    !m.isNan && m.cmp b == .lt

/-- The accepted prefix from position j on (R216): (a, generator). -/
def asuAccept (x : AsuStep) (n : Nat) (greedy : Bool) : Nat → Nat → Word → Nat × Word
  | 0, j, g => (j, g)
  | k + 1, j, g =>
    if greedy then (if draftTok x j = asuArgmax x n j then asuAccept x n greedy k (j + 1) g else (j, g))
    else
      let g' := xorshift g
      if accepts (rngVal g') (draftQ x j) (asuP x n j) then asuAccept x n greedy k (j + 1) g' else (j, g')

/-- Send the STEP record with its status and tokens, and end the step (R219, R221). -/
def Dev.asuEnd (d : Dev) (site a status : Nat) (toks : List Nat) : Dev :=
  let x := (d.clu site).asu
  let rcd := asuHdr 0x26 0xFF x ++ leBytes 1 (x.p - 1) ++ leBytes 1 a ++ leBytes 1 status ++ [0] ++ toks.flatMap (leBytes 4)
  let d := d.cluSend site (d.fld F.CLU_ASU_CTRL_TOK_CHAN site) rcd
  let d := d.cluSend site (d.fld F.CLU_ASU_CTRL_STEP_CHAN site) rcd
  d.modClu site fun c => { c with asu := AsuStep.init, asuLast := x.step + 1 }

/-- The emitted token is known (R219). -/
def Dev.asuEmit (d : Dev) (site tok : Nat) : Dev :=
  let x := (d.clu site).asu
  let toks := (List.range x.acc).map (draftTok x) ++ [tok]
  ((d.asuEnd site x.acc 0 toks).addWrap F.CLU_ASU_STATUS_STEPS site 1).addSat F.CLU_ASU_STATUS_ACCEPTED site x.acc

/-- Send SAMPLE for position a (R217). -/
def Dev.asuSample (d : Dev) (site : Nat) (resid : Bool) : Dev :=
  let d := d.modAsu site fun x => { x with phase := 1, resid := resid, masses := [] }
  let x := (d.clu site).asu
  let n := d.fld F.CLU_ASU_CTRL_NSLICE site + 1
  let logZ := asuLogZ x n x.acc
  d.cluSend site (d.fld F.CLU_ASU_CTRL_SLICE_CHAN site)
    (asuHdr 0x22 0xFF x ++ leBytes 1 x.acc ++ leBytes 1 (b2n resid) ++ zeros 2 ++ leBytes 4 logZ)

/-- Whether sampling is greedy: MODE other than 1 (Table 5-19). -/
def Dev.asuGreedy (d : Dev) (site : Nat) : Bool := d.fld F.CLU_ASU_CTRL_MODE site ≠ 1

/-- When every record of the step is in, accept the prefix and emit, or start sampling (R214 to R217). -/
def Dev.asuTry (d : Dev) (site : Nat) : Dev :=
  let x := (d.clu site).asu
  let n := d.fld F.CLU_ASU_CTRL_NSLICE site + 1
  if x.phase = 0 && x.norms.length = n && (x.p = 1 || x.draft.isSome) then
    let greedy := d.asuGreedy site
    let r := asuAccept x n greedy (x.p - 1) 0 (d.getR R.CLU_ASU_STATE site)
    let d := (d.setR R.CLU_ASU_STATE site r.2).modAsu site fun y => { y with acc := r.1 }
    if greedy then d.asuEmit site (asuArgmax x n r.1) else d.asuSample site (decide (r.1 < x.p - 1))
  else d

/-- The limits of a record that starts or joins a step (R213). -/
def Dev.asuOk (d : Dev) (site op : Nat) (bs : List Byte) : Bool :=
  let p := byteAt bs 2
  d.flag F.CLU_UNIT_CTRL_ASU_EN site && byteAt bs 0 == op && decide (1 ≤ p ∧ p ≤ 8) &&
    (if op = 0x20 then decide (2 ≤ p) && byteAt bs 1 == 0xFF && lenIs bs (16 + 8 * (p - 1))
     else decide (byteAt bs 1 ≤ d.fld F.CLU_ASU_CTRL_NSLICE site) &&
       lenIs bs (16 + (if op = 0x21 then 16 * p else 4)))

/-- Whether a record that waits for the sampling unit is held back: it is a DRAFT or NORM of a later step than the running one. -/
def AsuStep.holds (x : AsuStep) (bs : List Byte) : Bool :=
  x.active && decide (leAt bs 4 4 > x.step) && (byteAt bs 0 == 0x20 || byteAt bs 0 == 0x21)

/-- Whether a record is the next that the sampling unit processes (R173, R214). -/
def Dev.asuTurn (d : Dev) (site : Nat) (bs : List Byte) : Bool := d.unitTurn site 2 bs (d.clu site).asu.holds

/-- A DRAFT or NORM record (R214): a lower or completed STEP is discarded; a higher one than the running step's waits. -/
def Dev.asuRecord (d : Dev) (site op : Nat) (bs : List Byte) : Dev :=
  let step := leAt bs 4 4
  let x := (d.clu site).asu
  if d.asuOk site op bs && x.active && step > x.step then d
  else
    let d := d.takeUnit site 2 bs
    if !d.asuOk site op bs then d.unitReject site 2
    else if step < (d.clu site).asuLast || (x.active && step < x.step) then d
    else if x.active && byteAt bs 2 ≠ x.p then d.unitReject site 2
    else
      let d := if x.active then d
        else d.modAsu site fun _ =>
          { AsuStep.init with active := true, step := step, token := leAt bs 8 8, p := byteAt bs 2 }
      let d := d.modAsu site fun y =>
        if op = 0x20 then (if y.draft.isSome then y else { y with draft := some bs })
        else if y.norms.any fun r => r.1 == byteAt bs 1 then y
        else { y with norms := y.norms ++ [(byteAt bs 1, bs)] }
      d.asuTry site

/-- DRAFT: the sampling unit takes a DRAFT record (R214). -/
def execDraft (site : Site) (body : List Byte) (s : State) : Host.Outcome State Fault Refusal :=
  s.upd fun d => if d.siteOut site.val || !d.asuTurn site.val body then d else d.asuRecord site.val 0x20 body

/-- NORM: the sampling unit takes a NORM record (R215 to R217). -/
def execNorm (site : Site) (body : List Byte) (s : State) : Host.Outcome State Fault Refusal :=
  s.upd fun d => if d.siteOut site.val || !d.asuTurn site.val body then d else d.asuRecord site.val 0x21 body

/-- Choose the slice whose cumulative mass reaches the target: (slice, remaining target). Sums are binary32 in slice
order (assumption 8). -/
def pickSlice (masses : List Num) (target : Num) : Nat → Num → Option (Nat × Num)
  | i, cum =>
    match masses with
    | [] => none
    | m :: r =>
      let c := sumB32 cum m
      if c.isNan || target.isNan then none
      else if c.cmp target != .lt then some (i, sumB32 target (cum.setNeg (!cum.neg)))
      else pickSlice r target (i + 1) c

/-- Bits of a value as binary32. -/
def bits32 (v : Num) : Nat := (toLong .b32 .rne false v).1

/-- All masses are in (R217). -/
def Dev.asuMasses (d : Dev) (site n : Nat) : Dev :=
  let x := (d.clu site).asu
  let ms := (List.range n).map fun i => ((x.masses.find? fun r => r.1 == i).map fun r => r.2).getD 0
  let vals := ms.map (numOf .b32)
  let bad := vals.any Num.isNan
  let w := if bad then .dnan else vals.foldl sumB32 (.fin false 0 0)
  let zero := match w with
    | .fin _ m _ => m == 0
    | _ => false
  if x.resid && zero then d.asuSample site false
  else
    let g := xorshift (d.getR R.CLU_ASU_STATE site)
    let d := d.setR R.CLU_ASU_STATE site g
    let t := if w.isNan then Num.dnan else numOf .b32 (bits32 (Num.mul (rngVal g) w).1)
    let r := match if bad then none else pickSlice vals t 0 (.fin false 0 0) with
      | some c => (c.1, bits32 c.2)
      | none => (Config.asuPick (0 :: ms) % n, Config.asuPick (1 :: ms) % 2 ^ 32)
    let d := d.modAsu site fun y => { y with phase := 2, masses := [(r.1, 0)] }
    d.cluSend site (d.fld F.CLU_ASU_CTRL_SLICE_CHAN site) (asuHdr 0x24 r.1 x ++ leBytes 4 r.2)

/-- MASS: the sampling unit takes a slice's MASS record (R217). A record outside the wait is discarded (R214). -/
def execMass (site : Site) (body : List Byte) (s : State) : Host.Outcome State Fault Refusal :=
  s.upd fun d =>
    let i := site.val
    if d.siteOut i || !d.asuTurn i body then d
    else
      let d := d.takeUnit i 2 body
      let x := (d.clu i).asu
      let n := d.fld F.CLU_ASU_CTRL_NSLICE i + 1
      let sl := byteAt body 1
      if !d.asuOk i 0x23 body then d.unitReject i 2
      else if !x.active || leAt body 4 4 ≠ x.step || x.phase ≠ 1 || x.masses.any fun r => r.1 == sl then d
      else
        let d := d.modAsu i fun y => { y with masses := y.masses ++ [(sl, leAt body 16 4)] }
        if x.masses.length + 1 = n then d.asuMasses i n else d

/-- TOKEN: the sampling unit takes the picked TOKEN and sends the STEP record (R219). -/
def execToken (site : Site) (body : List Byte) (s : State) : Host.Outcome State Fault Refusal :=
  s.upd fun d =>
    let i := site.val
    if d.siteOut i || !d.asuTurn i body then d
    else
      let d := d.takeUnit i 2 body
      let x := (d.clu i).asu
      if !d.asuOk i 0x25 body then d.unitReject i 2
      else if !x.active || leAt body 4 4 ≠ x.step || x.phase ≠ 2 || x.masses.all fun r => r.1 != byteAt body 1 then d
      else d.asuEmit i (leAt body 16 4)

/-- ASU_TIMEOUT: a step whose records are incomplete after TIMEOUT (R221). -/
def execAsuTimeout (site : Site) (s : State) : Host.Outcome State Fault Refusal :=
  s.upd fun d =>
    let i := site.val
    if d.siteOut i || !(d.clu i).asu.active then d
    else ((d.asuEnd i 0xFF 1 []).addSat F.CLU_ASU_STATUS_TIMEOUTS i 1).raise (evU bCLU i) 4 1 2

/-- A write of CLU_ASU_STATE: 0 stores the reset value (R218). -/
def Dev.wrAsuState (d : Dev) (site : Nat) (v : Word) : Dev :=
  d.setR R.CLU_ASU_STATE site (if v = 0 then 0x9E3779B97F4A7C15 else v)

/-- CLU_ASU_STATE: a write of the generator state. -/
def execCluAsuState (site : Site) (v : Word) (s : State) : Host.Outcome State Fault Refusal :=
  s.upd fun d => if d.siteOut site.val then d else d.wrAsuState site.val v

/-! The zero-skip threshold (R184 to R187). -/

/-- A write of THR_MAX below the current T lowers T (R185). -/
def Dev.wrThrMax (d : Dev) (site v : Nat) : Dev :=
  let d := d.setF F.CLU_ZSK_CTRL_THR_MAX site v
  if d.fld F.CLU_ZSK_STATUS_THR_CUR site > v then d.setF F.CLU_ZSK_STATUS_THR_CUR site v else d

/-- THR_MAX: a write of THR_MAX. -/
def execThrMax (site : Site) (v : BitVec 6) (s : State) : Host.Outcome State Fault Refusal :=
  s.upd fun d => if d.siteOut site.val then d else d.wrThrMax site.val v.toNat

/-- One turn of the threshold loop of a cluster, and the count of pinned ticks (R184, R186): `hot` says that the estimate is over
the allocation; the drop ratio is that of the elements that CUBE and DOT words broadcast since the last tick, whose sums then
start again. -/
def Dev.zskTick (d : Dev) (site : Nat) (hot : Bool) : Dev :=
  let mx := d.fld F.CLU_ZSK_CTRL_THR_MAX site
  let mn := d.fld F.CLU_ZSK_CTRL_THR_MIN site
  let t := d.fld F.CLU_ZSK_STATUS_THR_CUR site
  let x := d.clu site
  let ok := decide (x.dropSum * 2 ^ d.fld F.CLU_ZSK_CTRL_DROP_TGT site ≤ x.allSum)
  let t' := if !d.flag F.CLU_ZSK_CTRL_MODE site then mx
    else if x.bcast = 0 then t
    else min (max (if hot && ok then t + 1 else t - 1) mn) mx
  let d := d.setF F.CLU_ZSK_STATUS_THR_CUR site t'
  let pin := hot && decide (t' = mx)
  let d := if pin then d.addSat F.CLU_ZSK_STATUS_PINNED site 1 else d
  d.modClu site fun x => { x with pinnedRun := if pin then x.pinnedRun + 1 else 0, bcast := 0, dropSum := 0, allSum := 0 }

/-- ZSK_PINNED: 50,000 consecutive pinned ticks (R186). -/
def execZskPinned (site : Site) (s : State) : Host.Outcome State Fault Refusal :=
  s.upd fun d =>
    let i := site.val
    if (d.clu i).pinnedRun ≥ 50000 then (d.modClu i fun x => { x with pinnedRun := 0 }).raise (evU bCLU i) 2 0 0 else d

/-! Transom (R193 to R202). -/

/-- Change Transom's state. -/
def Dev.modTrn (d : Dev) (f : TrnS → TrnS) : Dev := { d with trn := f d.trn }

/-- The expert entry of an expert-table index. -/
def Dev.trnExp (d : Dev) (ix : Nat) : Nat := sget d.trn.exp 0 ix

/-- Store an expert entry. -/
def Dev.putExp (d : Dev) (ix e : Nat) : Dev := d.modTrn fun t => { t with exp := sset t.exp 0 ix e }

/-- KIND of an entry: 0 none, 1 HOME, 2 GUEST, 3 STREAM. -/
def expKind (e : Nat) : Nat := bitsOf e 30 2

/-- The experts whose slots are pinned (R195). A predicted expert is pinned while its record stands. -/
def Dev.trnPinned (d : Dev) : List Nat :=
  (d.trn.live.flatMap fun x => x.2) ++ d.trn.preds.flatMap fun p => p.experts ++ p.holds

/-- Whether a slot is pinned. -/
def Dev.slotPinned (d : Dev) (slot : Nat) : Bool :=
  let x := sget d.trn.slots 0 slot
  decide (sget d.trn.strm 0 slot > 0) || (x ≠ 0 && d.trnPinned.contains (x - 1))

/-- Show PINNED and FREE (Table 5-23). -/
def Dev.trnShow (d : Dev) : Dev :=
  let n := d.fld F.TRN_STATUS_GUEST_N 0
  let ss := List.range n
  (d.setF F.TRN_STATUS_PINNED 0 (ss.filter d.slotPinned).length).setF F.TRN_STATUS_FREE 0
    (ss.filter fun k => sget d.trn.slots 0 k == 0).length

/-- The slot for a stream: a slot that holds no expert, else the unpinned one whose expert was least recently routed. -/
def Dev.trnSlot (d : Dev) : Option Nat :=
  let ss := (List.range (d.fld F.TRN_STATUS_GUEST_N 0)).filter fun k => !d.slotPinned k
  match ss.find? fun k => sget d.trn.slots 0 k == 0 with
  | some k => some k
  | none =>
    let last (k : Nat) : Nat := sget d.trn.used 0 (sget d.trn.slots 0 k - 1)
    (sortBy (fun a b => decide (last a < last b)) ss).head?

/-- The edge clusters of a guest slot: the face sites of every stack (Table 1-3). -/
def guestSites : List Nat := (List.range 16).flatMap fun h => [hbmFace h 0, hbmFace h 1]

/-- The deadline of a pre-wake: LEAD after its record's arrival, with DL_WAKE 1 (R198). -/
def Dev.preDeadline (d : Dev) : Option Nat :=
  if d.flag F.TRN_CTRL_DL_WAKE 0 then some (d.ntAt bTRN 0 + d.fld F.TRN_CTRL_LEAD 0) else none

/-- Pre-wake a cluster to Run (R197, R198): not from Deep sleep unless DEEP_OK. -/
def Dev.preWake (d : Dev) (site : Nat) : Dev :=
  let x := d.dom site
  let deep := x.level ≥ 3 || (x.entering.getD 0) ≥ 3
  if d.siteOut site || (deep && !d.flag F.TRN_CTRL_DEEP_OK 0) then d
  else
    let new := (x.level ≠ 0 || x.entering.isSome) && !x.exiting && !x.demand
    let dl := match d.preDeadline with
      | some t => some t
      | none => x.deadline
    (d.demand site true).setDom site fun y => { y with pre := new || x.pre, deadline := dl }

/-- Wake a cluster for an expert that was missed, with the deadline of the record's arrival (R201). -/
def Dev.missWake (d : Dev) (site : Nat) : Dev :=
  if d.siteOut site then d else (d.demand site true).setDom site fun y => { y with deadline := some (d.ntAt bTRN 0) }

/-- Wake a cluster for a predicted or for a missed expert. -/
def Dev.wakeFor (d : Dev) (pre : Bool) (site : Nat) : Dev := if pre then d.preWake site else d.missWake site

/-- The home clusters of a HOME entry, as sites. -/
def Dev.homeSites (d : Dev) (e : Nat) : List Nat :=
  (List.range (bitsOf e 22 2 + 1)).filterMap fun i => d.newtSite (bitsOf e 14 8 + i)

/-- Start a stream into a slot for a predicted (`pre`) or a routed expert: the slot's expert becomes STREAM, the incoming one GUEST
(R195), a stream request goes to each of the 16 HBM edge blocks, and the slot's edge clusters are woken (Table 5-6). -/
def Dev.trnPlace (d : Dev) (pre : Bool) (ix slot : Nat) : Dev :=
  let old := sget d.trn.slots 0 slot
  let d := if old = 0 then d else d.putExp (old - 1) (putBits (d.trnExp (old - 1)) 30 2 3)
  let d := d.putExp ix (putBits (putBits (d.trnExp ix) 30 2 2) 24 6 slot)
  let d := d.modTrn fun t =>
    { t with slots := sset t.slots 0 slot (ix + 1), strm := sset t.strm 0 slot 16 }
  let r : StreamReq := ⟨bitsOf (d.trnExp ix) 0 14, slot⟩
  let d := d.each (List.range 16) fun d h => d.modHbm h fun x => { x with asked := x.asked ++ [r] }
  d.each guestSites fun d s => d.wakeFor pre s

/-- Start the routed streams that wait, in order, while slots are unpinned, at most n; each wait counts, from its start to now
(R196). -/
def Dev.trnDrain (d : Dev) : Nat → Dev
  | 0 => d.trnShow
  | n + 1 =>
    match d.trn.waits, d.trnSlot with
    | (ix, t0) :: r, some k =>
      let d := d.modTrn fun t => { t with waits := r }
      ((d.trnPlace false ix k).addSat F.TRN_STALL_SLOT_WAIT 0 (d.now - t0)).trnDrain n
    | _, _ => d.trnShow

/-- Act on an expert by its KIND (Table 5-6): `pre` for a prediction, else for a routed expert. -/
def Dev.trnAct (d : Dev) (pre : Bool) (ix : Nat) : Dev :=
  let e := d.trnExp ix
  match expKind e with
  | 1 => d.each (d.homeSites e) fun d s => d.wakeFor pre s
  | 2 => d.each guestSites fun d s => d.wakeFor pre s
  | 3 =>
    if pre then
      (if d.flag F.TRN_CTRL_PREFETCH 0 then
        match d.trnSlot with
        | some k => d.trnPlace true ix k
        | none => d
      else d)
    else if d.trn.waits.any fun w => w.1 == ix then d
    else
      match d.trnSlot with
      | some k => d.trnPlace false ix k
      | none => d.modTrn fun t => { t with waits := t.waits ++ [(ix, d.now)] }
  | _ => d

/-- Length in 512 B units of a descriptor. -/
def descLen (e : Nat) : Nat := bitsOf e 12 16

/-- Bytes of the streams that a stack has been asked for and has not finished. -/
def Dev.stackLoad (d : Dev) (h : Nat) : Nat :=
  let x := d.hbm h
  ((x.asked ++ x.queue ++ x.runs.map fun r => r.req).map fun r => descLen (sget x.descs 0 r.desc) * 512).sum

/-- Whole ns that bytes take at a stack's rate with 31 channels (Table 8-1). -/
def Dev.streamNs (d : Dev) (n : Nat) : Nat :=
  let rate := if (d.boot.image.map fun m => m.hbmRate.val) = some 1 then 15872 else 19840
  (n * 10 + rate - 1) / rate

/-- The bound of R201 on the wait for a missed expert, in ns. -/
def Dev.missBound (d : Dev) (ix : Nat) : Nat :=
  let e := d.trnExp ix
  let t (s : Nat) : Nat := [0, 20, 2000, 60000].getD (d.dom s).level 60000
  match expKind e with
  | 1 => ((d.homeSites e).map t).foldl max 0
  | 2 => (guestSites.map t).foldl max 0
  | 3 => ((List.range 16).map fun h =>
      d.streamNs (d.stackLoad h + descLen (sget (d.hbm h).descs 0 (bitsOf e 0 14)) * 512)).foldl max 0
  | _ => 0

/-- Add the wait on a missed expert to MISS_STALL: a free value within its bound (assumption 21). -/
def Dev.missStall (d : Dev) (ix : Nat) : Dev :=
  let v := d.free.toNat % (d.missBound ix + 1)
  d.took.addSat F.TRN_STALL_MISS_STALL 0 v

/-- The distinct elements of a list, in order. -/
def distinct (xs : List Nat) : List Nat := xs.foldl (fun a x => if a.contains x then a else a ++ [x]) []

/-- TRN_TABLE (R225). -/
def Dev.trnTable (d : Dev) (layer : Nat) : Dev := d.raise (evU bTRN 0) 1 1 layer

/-- The distinct valid experts of a record as expert-table indices; a layer that is absent or an expert outside the
layer raises TRN_TABLE and is left out. -/
def Dev.trnExperts (d : Dev) (bs : List Byte) : Dev × List Nat :=
  let layer := byteAt bs 1
  let dir := sget d.trn.dir 0 layer
  let n := bitsOf dir 0 9
  let es := (List.range (byteAt bs 2 * byteAt bs 3)).filterMap fun i =>
    if bitOf (byteAt bs (16 + 8 * i + 1)) 0 then some (byteAt bs (16 + 8 * i)) else none
  let ok := es.filter fun e => e < n
  (if n = 0 || ok.length ≠ es.length then d.trnTable layer else d, distinct (ok.map fun e => (bitsOf dir 16 14 + e) % 16384))

/-- Whether a PREDICT record is the one of a layer and token. -/
def predIs (layer token : Nat) (p : TrnPred) : Bool := p.layer == layer && p.token == token

/-- The experts that the PREDICT record of a layer and token predicted, if it has come (R199). -/
def Dev.trnSeen (d : Dev) (layer token : Nat) : Option (List Nat) := (d.trn.seen.find? fun x => x.1 == (layer, token)).map (·.2)

/-- PREDICT_RECORD: Transom takes a PREDICT record (R197 to R200). -/
def execPredictRecord (body : List Byte) (s : State) : Host.Outcome State Fault Refusal :=
  s.upd fun d =>
    if !d.unitTurn 251 3 body then d else
    let d := d.takeUnit 251 3 body
    let layer := byteAt body 1
    let token := leAt body 8 8
    if !d.flag F.TRN_CTRL_EN 0 then d
    else if d.trn.routes.contains (layer, token) || (d.trnSeen layer token).isSome then
      d.addSat F.TRN_COUNT1_LATE 0 1
    else
      let (d, es) := d.trnExperts body
      let d := d.addWrap F.TRN_COUNT0_PRED 0 es.length
      let now := d.now
      let d := d.modTrn fun t =>
        { t with preds := t.preds ++ [⟨layer, token, es, es, false, [], now⟩], seen := t.seen ++ [((layer, token), es)] }
      let d := d.each es fun d ix => d.trnAct true ix
      let woken := es.filter fun ix => expKind (d.trnExp ix) == 1 || expKind (d.trnExp ix) == 2
      (d.modTrn fun t => { t with preds := t.preds.map fun p => if predIs layer token p then { p with woken := woken } else p }).trnShow

/-- The layers of other (LAYER, TOKEN) that were routed are complete when a record comes, and so are those predicted for an earlier
one and never routed: their pins are released (R195, assumption 22). -/
def Dev.trnComplete (d : Dev) (layer token : Nat) : Dev :=
  d.modTrn fun t =>
    { t with
        live := t.live.filter fun x => x.1 == (layer, token)
        preds := t.preds.map fun p =>
          if !predIs layer token p && (p.routed || decide (p.token < token ∨ (p.token = token ∧ p.layer < layer)))
          then { p with experts := [] } else p }

/-- Forget the PREDICT records that no longer pin or hold anything. -/
def Dev.trnTidy (d : Dev) : Dev :=
  d.modTrn fun t => { t with preds := t.preds.filter fun p => !p.experts.isEmpty || !p.holds.isEmpty }

/-- ROUTE_RECORD: Transom takes a ROUTE record (R199 to R201). -/
def execRouteRecord (body : List Byte) (s : State) : Host.Outcome State Fault Refusal :=
  s.upd fun d =>
    if !d.unitTurn 251 3 body then d else
    let d := d.takeUnit 251 3 body
    let layer := byteAt body 1
    let token := leAt body 8 8
    if !d.flag F.TRN_CTRL_EN 0 then d
    else
      let (d, es) := d.trnExperts body
      let pred := d.trn.preds.find? fun p => predIs layer token p && !p.routed
      let seen := d.trnSeen layer token
      let known := seen.getD []
      let hit := es.filter fun ix => known.contains ix && expKind (d.trnExp ix) ≠ 0
      let missed := es.filter fun ix => !hit.contains ix
      let d := if seen.isSome then (d.addWrap F.TRN_COUNT0_HIT 0 hit.length).addWrap F.TRN_COUNT1_MISS 0 missed.length else d
      let d := match pred with
        | none => d
        | some p =>
          let un := (p.holds.filter fun ix => !es.contains ix).length
          (d.addSat F.TRN_COUNT1_UNUSED 0 un).modTrn fun t =>
            { t with preds := t.preds.map fun q => if q = p then { q with routed := true } else q }
      let d := d.trnComplete layer token
      let d := d.modTrn fun t =>
        let used := es.foldl (fun u ix => sset u 0 ix (t.stamp + 1)) t.used
        { t with routes := t.routes ++ [(layer, token)], live := t.live ++ [((layer, token), es)], stamp := t.stamp + 1, used := used }
      let d := d.each es fun d ix =>
        let d := if missed.contains ix then d.missStall ix else d
        if missed.contains ix || expKind (d.trnExp ix) = 3 then d.trnAct false ix else d
      (d.trnTidy).trnDrain d.trn.waits.length

/-- SKIP_RECORD: Transom takes a SKIP record (R211). -/
def execSkipRecord (body : List Byte) (s : State) : Host.Outcome State Fault Refusal :=
  s.upd fun d =>
    if !d.unitTurn 251 3 body then d else
    let d := d.takeUnit 251 3 body
    let layer := byteAt body 1
    let token := leAt body 8 8
    if !d.flag F.TRN_CTRL_EN 0 then d
    else
      let d := if bitsOf (sget d.trn.dir 0 layer) 0 9 = 0 then d.trnTable layer else d
      let d := match d.trn.preds.find? fun p => predIs layer token p && !p.routed with
        | some p => (d.addSat F.TRN_COUNT1_UNUSED 0 p.holds.length).modTrn fun t => { t with preds := t.preds.erase p }
        | none => d
      ((d.trnComplete layer token).trnTidy).trnDrain d.trn.waits.length

/-- The clusters that a predicted expert had pre-woken. -/
def Dev.wokenSites (d : Dev) (p : TrnPred) (ix : Nat) : List Nat :=
  let e := d.trnExp ix
  if !p.woken.contains ix then [] else if expKind e = 1 then d.homeSites e else guestSites

/-- Whether the hold of a predicted expert has run out: HOLD after the last of its clusters came up, or after the record where none
had to wake; while one of them is still waking it runs (R200). -/
def Dev.holdOver (d : Dev) (p : TrnPred) (ix : Nat) : Bool :=
  let sites := d.wokenSites p ix
  let t0 := sites.foldl (fun t s => if (d.dom s).level = 0 then max t (d.dom s).upAt else t) p.at_
  !(sites.any fun s => (d.dom s).exiting || (d.dom s).demand) && decide (d.now ≥ t0 + 64 * d.fld F.TRN_CTRL_HOLD 0)

/-- TRN_HOLD_EXPIRY: the hold of a predicted expert expires (R200). -/
def execTrnHoldExpiry (layer : BitVec 8) (token : BitVec 64) (expert : BitVec 8) (s : State) :
    Host.Outcome State Fault Refusal :=
  s.upd fun d =>
    let ix := (bitsOf (sget d.trn.dir 0 layer.toNat) 16 14 + expert.toNat) % 16384
    match d.trn.preds.find? fun p => predIs layer.toNat token.toNat p && p.holds.contains ix with
    | none => d
    | some p =>
      if !d.holdOver p ix then d
      else
        let d := if p.routed then d else d.addSat F.TRN_COUNT1_UNUSED 0 1
        let d := d.modTrn fun t => { t with preds := t.preds.map fun q => if q = p then { q with holds := q.holds.erase ix } else q }
        d.trnTidy.trnDrain d.trn.waits.length

/-- SLOT_WAIT_END: the first routed stream that waits, that of the expert named, starts in a slot that was unpinned; its wait counts
(R196). -/
def execSlotWaitEnd (expert : Fin 16384) (s : State) : Host.Outcome State Fault Refusal :=
  s.upd fun d => if (d.trn.waits.head?.map (·.1)) == some expert.val then d.trnDrain 1 else d

/-- TRN_SLOT_WAIT: a routed stream has waited more than 10 µs for a slot (R225). -/
def execTrnSlotWait (s : State) : Host.Outcome State Fault Refusal :=
  s.upd fun d => if d.trn.waits.isEmpty then d else d.raise (evU bTRN 0) 2 0 0

/-- A stack has finished, or failed, its part of the stream into a slot (R195). -/
def Dev.trnArrived (d : Dev) (slot : Nat) : Dev :=
  (d.modTrn fun t => { t with strm := sset t.strm 0 slot (sget t.strm 0 slot - 1) }).trnShow

/-- Cancel a pre-wake that has not started (R202). -/
def Dev.preCancel (d : Dev) (site : Nat) : Dev :=
  let x := d.dom site
  if x.pre && !x.exiting then
    let d := d.setDom site fun y => { y with demand := false, pre := false, deadline := none }
    { d with pwr := { d.pwr with upWait := d.pwr.upWait.filter fun y => y.1 != site } }
  else d

/-- A session switch: pre-wakes that have not started, pins and the matching state go (R202). -/
def Dev.trnSwitch (d : Dev) : Dev :=
  let d := d.each (List.range 256) fun d s => d.preCancel s
  (d.modTrn fun t => { t with preds := [], routes := [], seen := [] }).trnShow

/-- Store an expert entry from outside: one that is GUEST stands in its slot (Table 5-5, R195). -/
def Dev.loadExp (d : Dev) (ix e : Nat) : Dev :=
  let old := d.trnExp ix
  let k := bitsOf old 24 6
  let d := if expKind old = 2 && sget d.trn.slots 0 k = ix + 1 then d.modTrn fun t => { t with slots := sset t.slots 0 k 0 } else d
  let d := d.putExp ix e
  (if expKind e = 2 then d.modTrn fun t => { t with slots := sset t.slots 0 (bitsOf e 24 6) (ix + 1) } else d).trnShow

/-- Store a TRN table entry as the boot sequencer does: 0 directory, 1 expert table (Table 5-5). -/
def Dev.putTrn (d : Dev) (table ix e : Nat) : Dev :=
  if table = 0 then (if ix < 256 then d.modTrn fun t => { t with dir := sset t.dir 0 ix (e &&& 0x3FFF01FF) } else d)
  else d.loadExp (ix % 16384) (e % 2 ^ 32)

/-- The image configures GUEST_N slots (R194, Table 5-23). -/
def Dev.setGuest (d : Dev) (n : Nat) : Dev := (d.setF F.TRN_STATUS_GUEST_N 0 n).trnShow

/-- A write of TRN_TBL_DATA, accepted while EN is 0 (Table 5-28). -/
def Dev.wrTrnTbl (d : Dev) (v : Nat) : Dev :=
  if d.flag F.TRN_CTRL_EN 0 then d
  else d.putTrn (d.fld F.TRN_TBL_SEL_TABLE 0) (d.fld F.TRN_TBL_SEL_INDEX 0) v

/-- A read of TRN_TBL_DATA. -/
def Dev.rdTrnTbl (d : Dev) : Nat :=
  let ix := d.fld F.TRN_TBL_SEL_INDEX 0
  if d.flag F.TRN_TBL_SEL_TABLE 0 then d.trnExp ix else if ix < 256 then sget d.trn.dir 0 ix else 0

/-- TRN_TBL_DATA: a write of TRN_TBL_DATA. -/
def execTrnTblData (v : BitVec 32) (s : State) : Host.Outcome State Fault Refusal := s.upd fun d => d.wrTrnTbl v.toNat

end Sys2Proof.Machine
end

