-- ==== Sys2Proof/Machine/Memory.lean ====
section
/-! DEFINITION. HBM and the Cellar (spec/08_memory_tiers.md): reads with their errors, channel sparing, maintenance, expert
streams; and the read and the write of a place in device memory. -/

namespace Sys2Proof.Machine

/-! HBM (R305 to R316). -/

/-- The logical channel of an HBM address (R305). -/
def hbmLch (a : Nat) : Nat := a % 0x1000000000 / 256 % 31

/-- The channel address of an HBM address (R305). -/
def hbmChAddr (a : Nat) : Nat := a % 0x1000000000 / 256 / 31 * 256 + a % 256

/-- The physical channel that serves an HBM address (R313). -/
def Dev.hbmPhys (d : Dev) (a : Nat) : Nat := d.hbmMap (hbmOf a) (hbmLch a) % 32

/-- Count corrected HBM sectors (R310): HBM_CE when the count crosses 1,024. -/
def Dev.hbmCe (d : Dev) (h n : Nat) : Dev :=
  let d' := d.addSat F.HBM_ECC_CE h n
  if d.fld F.HBM_ECC_CE h < 1024 && d'.fld F.HBM_ECC_CE h ≥ 1024 then d'.raise (evU bHBM h) 1 0 0 else d'

/-- One hour and 24 hours in ns. -/
def hourNs : Nat := 3600000000000

/-- An uncorrectable HBM sector (R310), and the failure of a channel with more than 4 in one hour (R315). -/
def Dev.hbmUe (d : Dev) (a : Nat) : Dev :=
  let h := hbmOf a
  let ch := d.hbmPhys a
  let ca := hbmChAddr a / 32
  let key := ch * 2 ^ 33 + ca
  let d := ((d.addSat F.HBM_ECC_UE h 1).setF F.HBM_ECC_CH h ch).setF F.HBM_ECC_ADDR h ca
  let d := d.modHbm h fun x =>
    { x with
      repairs := if x.repairs.contains (ch, ca) then x.repairs else x.repairs ++ [(ch, ca)]
      ueLog := (x.ueLog.filter fun e => e.1 != key && decide (d.now < e.2 + hourNs)) ++ [(key, d.now)] }
  let d := d.raise (evU bHBM h) 2 1 ch
  let n := ((d.hbm h).ueLog.filter fun e => e.1 / 2 ^ 33 == ch).length
  if n > 4 then
    let d := d.raise (evU bHBM h) 3 2 ch
    if (d.hbm h).badCh.contains ch then d else d.channelFail h ch
  else d

/-- The addresses of the ECC granules of size g that a range touches. -/
def granules (g a n : Nat) : List Nat :=
  if n = 0 then [] else (List.range ((a % g + n + g - 1) / g)).map fun i => a / g * g + g * i

/-- A read of HBM: the bytes, and whether a sector was uncorrectable; such a read carries zeros (R308, R310). -/
def State.hbmRead (s : State) (a n : Nat) : State × List Byte × Bool :=
  let gs := granules 32 a n
  let ce := gs.filter fun g => sget s.ecc 0 g == 1
  let ue := gs.filter fun g => sget s.ecc 0 g == 2
  let bs := if ue.isEmpty then s.get a n else zeros n
  (s.onDev fun d =>
    let d := if ce.isEmpty then d else d.hbmCe (hbmOf a) ce.length
    d.each ue fun d g => d.hbmUe g, bs, !ue.isEmpty)

/-! The Cellar (R327 to R331). -/

/-- The channel address of an offset of the Cellar window (R327). -/
def Dev.celChAddr (d : Dev) (o : Nat) : Nat := o / 4096 / max 1 d.celN * 4096 + o % 4096

/-- Queue a soft repair of a row (R329). -/
def Dev.celRepair (d : Dev) (c row : Nat) : Dev :=
  d.modCel c fun x => if x.repairs.contains row then x else { x with repairs := x.repairs ++ [row] }

/-- A corrected burst (R328, R329): the 16th of a row within 24 hours queues a repair. -/
def Dev.celCe (d : Dev) (c ca : Nat) : Dev :=
  let row := Config.celRow ca
  let d' := d.addSat F.CEL_ECC_CE c 1
  let d' := d'.modCel c fun x =>
    { x with rowCe := (x.rowCe.filter fun e => decide (d.now < e.2 + 24 * hourNs)) ++ [(row, d.now)] }
  let d' := if ((d'.cel c).rowCe.filter fun e => e.1 == row).length ≥ 16 then d'.celRepair c row else d'
  if d.fld F.CEL_ECC_CE c < 1024 && d'.fld F.CEL_ECC_CE c ≥ 1024 then d'.raise (evU bCEL c) 1 0 0 else d'

/-- An uncorrectable burst (R328, R329). -/
def Dev.celUe (d : Dev) (c ca : Nat) : Dev :=
  let d := (d.addSat F.CEL_ECC_UE c 1).setF F.CEL_ECC_ADDR c (ca / 64)
  (d.celRepair c (Config.celRow ca)).raise (evU bCEL c) 2 1 0

/-- A read of the Cellar. -/
def State.celRead (s : State) (a n : Nat) : State × List Byte × Bool :=
  let gs := granules 64 a n
  let ce := gs.filter fun g => sget s.ecc 0 g == 1
  let ue := gs.filter fun g => sget s.ecc 0 g == 2
  let at_ (d : Dev) (g : Nat) : Nat × Nat := (d.celChan (g - 0x200000000000), d.celChAddr (g - 0x200000000000))
  let bs := if ue.isEmpty then s.get a n else zeros n
  (s.onDev fun d =>
    let d := d.each ce fun d g => d.celCe (at_ d g).1 (at_ d g).2
    d.each ue fun d g => d.celUe (at_ d g).1 (at_ d g).2, bs, !ue.isEmpty)

/-! Device memory by physical address. -/

/-- The register unit of the core whose window holds a physical address, and the local address; none for a CSM. -/
def coreOfAddr (a : Nat) : Option (Nat × Nat) :=
  let o := (a - 0x1000000000) % 0x8000000
  let site := (a - 0x1000000000) / 0x8000000
  if o < 0x1000000 then none else some (cu site ((o - 0x1000000) / 0x200000), (o - 0x1000000) % 0x200000)

/-- The bank of a core's memories that holds a local address: 0 to 15 of WM, 16 to 31 of AM, 32 to 39 of PM, 40 to 43 of SM (Table
2-2, R67, R68). -/
def bankOf (la : Nat) : Nat :=
  match coreMem la with
  | 0 => (la / 8 + la / 128) % 16
  | 1 => 16 + la / 16 % 16
  | 2 => 32 + la / 16 % 8
  | _ => 40 + la / 8 % 4

/-- The spare rows of a bank (Table 2-2). -/
def spareRowsOf (bank : Nat) : Nat := if bank < 16 then 4 else 2

/-- Spare rows in use in the bank of core u that holds a local address. -/
def Dev.rowsUsed (d : Dev) (u la : Nat) : Nat := sget d.nwt.rowUse 0 (u * 64 + bankOf la)

/-- A spare row of that bank comes into use. -/
def Dev.useRow (d : Dev) (u bank : Nat) : Dev :=
  { d with nwt := { d.nwt with rowUse := sset d.nwt.rowUse 0 (u * 64 + bank) (sget d.nwt.rowUse 0 (u * 64 + bank) + 1) } }

/-- A spare column group of that bank comes into use (R65): a bank of WM has 2, any other 1. -/
def Dev.useCol (d : Dev) (u bank : Nat) : Dev :=
  let n := min (if bank < 16 then 2 else 1) (sget d.nwt.colUse 0 (u * 64 + bank) + 1)
  { d with nwt := { d.nwt with colUse := sset d.nwt.colUse 0 (u * 64 + bank) n } }

/-- Whether the bank still has a spare row for a repair, the repairs that wait for a window counted (assumption 115). -/
def Dev.rowFree (d : Dev) (u la : Nat) : Bool :=
  d.rowsUsed u la + (d.nwt.rows.filter fun a => match coreOfAddr a with
    | some (v, lb) => v == u && bankOf lb == bankOf la
    | none => false).length < spareRowsOf (bankOf la)

/-- A read of core memory from outside the core (R75, R76). -/
def State.coreRead (s : State) (u la a n : Nat) : State × List Byte × Bool :=
  let ce := s.marked u 1 [(la, n)]
  let ue := s.marked u 2 [(la, n)]
  (s.onDev fun d =>
    let d := d.countCe u ce
    match ue with
    | [] => d
    | x :: _ => d.eccUe u x false, if ue.isEmpty then s.get a n else zeros n, !ue.isEmpty)

/-- A read of device memory: the bytes and the status, 0 or 5 DATA (R76, R308, R556). -/
def State.memRead (s : State) (a n : Nat) : State × List Byte × Nat :=
  let r :=
    if a < 0x100000000000 then
      match coreOfAddr a with
      | some (u, la) => s.coreRead u la a n
      | none =>
        let site := (a - 0x1000000000) / 0x8000000
        s.csmRead site ((a - 0x1000000000) % 0x8000000) n
    else if a < 0x200000000000 then s.hbmRead a n
    else s.celRead a n
  (r.1, r.2.1, if r.2.2 then 5 else 0)

/-- The session whose key-value allocation holds an address, when it is OPEN or ACTIVE (Table 10-6). -/
def Dev.allocOf (d : Dev) (a : Nat) : Option Nat :=
  (List.range 16).find? fun i =>
    let x := d.sess i
    x.state ≠ 0 && decide (x.base ≤ a ∧ a < x.base + x.len)

/-- Cut captured data into records of at most 2,024 B (Table 10-6), as (address, bytes). -/
def captureCut : Nat → Nat → List Byte → List (Nat × List Byte)
  | 0, _, _ => []
  | n + 1, a, bs => if bs.isEmpty then [] else (a, bs.take 2024) :: captureCut n (a + 2024) (bs.drop 2024)

/-- Capture of a write that an HBM edge block of a lead receives (R403, R404). -/
def Dev.capture (d : Dev) (a : Nat) (bs : List Byte) : Dev :=
  if d.role = 2 && 0x100000000000 ≤ a && a < 0x200000000000 then
    match d.allocOf a with
    | some i => d.each (captureCut (bs.length / 2024 + 1) a bs) fun d x => d.mirrorSend 1 i (leBytes 8 x.1 ++ x.2)
    | none => d
  else d

/-- Whether the capture of a write would wait for room in the mirror buffer (R405). -/
def Dev.captureWaits (d : Dev) (a n : Nat) : Bool :=
  d.role == 2 && decide (0x100000000000 ≤ a ∧ a < 0x200000000000) && (d.allocOf a).isSome &&
    (!d.pair.pending.isEmpty || decide ((d.pair.held.map recBytes).sum + 24 + n > 0x400000))

/-- A write of device memory from outside a core: the status, 0, or 2 REJECTED for one that reaches SM of a core that is not HALTED,
and is discarded whole (R139, assumption 135), with the capture of R404. -/
def State.memWrite (s : State) (a : Nat) (bs : List Byte) : State × Nat :=
  match if a < 0x100000000000 then coreOfAddr a else none with
  | some (u, la) =>
    if (coreMem la = 3 || coreMem (la + bs.length - 1) = 3) && s.dev.coreState u ≠ 0 then
      (s.onDev fun d => d.setF F.COR_STATUS_WR_REJ u 1, 2)
    else (s.put a bs, 0)
  | none =>
    -- a record holds whole 8 B units (Table 10-5)
    let t := (s.put a bs).onDev fun d =>
      if a < 0x100000000000 then d.countEv ((a - 0x1000000000) / 0x8000000) evCsm (csmLines a bs.length) else d
    let a' := a / 8 * 8
    (t.onDev fun d => d.capture a' (t.get a' ((a % 8 + bs.length + 7) / 8 * 8)), 0)

/-! Expert streams (R318 to R323). -/

/-- The sole face that an HBM block stages to: 2 for both (R323). -/
def Dev.soleFace (d : Dev) (h : Nat) : Nat :=
  let v := d.fld F.HBM_CTRL_SOLE_FACE h
  if v = 1 then 0 else if v = 2 then 1 else 2

/-- Whether a face is out (R323). -/
def Dev.isOut (d : Dev) (h face : Nat) : Bool :=
  d.flag (if face = 0 then F.HBM_STATUS_FACE_OUT0 else F.HBM_STATUS_FACE_OUT1) h || d.siteOut (hbmFace h face)

/-- Bytes of a stage buffer of a face. -/
def Dev.stgBytes (d : Dev) (h face : Nat) : Nat := d.fld F.HBM_STG_CFG_BUF h face * 64

/-- The lowest free stage buffer of a face (R319). -/
def Dev.stgFree (d : Dev) (h face : Nat) : Option Nat :=
  (List.range (d.fld F.HBM_STG_CFG_STG_N h face)).find? fun b => !((d.hbm h).taken.any fun t => t.1 == face && t.2.1 == b)

/-- Send an arrival record to a face cluster (R320, Table 8-3). -/
def Dev.arrival (d : Dev) (h face desc slot buf len : Nat) (failed both : Bool) : Dev :=
  let site := hbmFace h face
  let body := leBytes 2 (desc + 32768 * b2n failed) ++ leBytes 1 slot ++ leBytes 1 (buf + 16 * b2n both) ++ leBytes 4 len ++
    leBytes 8 (d.ntAt bHBM h)
  let ps := msgPackets site (edgeCore (hbmPort h)) site 60 (d.injEpoch site = 1) 0 (d.fld F.HBM_STG_CFG_RING_GEN h face)
    (d.fld F.HBM_STG_CFG_RING h face) 2 (some 0) true (d.fld F.HBM_STG_CFG_SEM h face) 0 false body
  d.inject site (hbmPort h) ps (some .other)

/-- A stream has completed: counts, and Transom's slot (R195, Table 8-12). -/
def Dev.streamEnd (d : Dev) (h slot : Nat) (failed : Bool) : Dev :=
  let d := d.addWrap F.HBM_STRM_STATUS_STREAMS h 1
  (if failed then d.addSat F.HBM_STRM_STATUS_FAILED h 1 else d).trnArrived slot

/-- A stream completes with FAILED and takes no buffer: a record to each face that is given. -/
def Dev.streamFail (d : Dev) (h : Nat) (r : StreamReq) (faces : List Nat) : Dev :=
  (d.each faces fun d f => d.arrival h f r.desc r.slot 0 0 true false).streamEnd h r.slot true

/-- The faces that get a FAILED record: those that are not out; none when both are out or the sole face is (R323). -/
def Dev.failFaces (d : Dev) (h : Nat) : List Nat :=
  let sole := d.soleFace h
  if sole < 2 then (if d.isOut h sole then [] else [sole]) else [0, 1].filter fun f => !d.isOut h f

/-- Whether a stream cannot run: it completes with FAILED (R319, R323). -/
def Dev.streamBad (d : Dev) (h : Nat) (r : StreamReq) : Bool :=
  let e := sget (d.hbm h).descs 0 r.desc
  let n := descLen e
  let sole := d.soleFace h
  !bitOf e 63 || !d.hbmServes h || d.fld F.HBM_STATUS_STATE h == 3 ||
    (if sole < 2 then d.isOut h sole || decide (n * 512 > d.stgBytes h sole)
     else d.isOut h 0 || d.isOut h 1 || decide (n * 256 > d.stgBytes h 0) || decide (n * 256 > d.stgBytes h 1))

/-- Whether the faces that a stream needs have free buffers. -/
def Dev.stgReady (d : Dev) (h : Nat) : Bool :=
  let sole := d.soleFace h
  if sole < 2 then (d.stgFree h sole).isSome else (d.stgFree h 0).isSome && (d.stgFree h 1).isSome

/-- Show QUEUED, and count the head request when it has to wait for a buffer (R322). -/
def Dev.hbmLook (d : Dev) (h : Nat) : Dev :=
  let x := d.hbm h
  let d := d.setF F.HBM_STRM_STATUS_QUEUED h x.queue.length
  match x.queue with
  | r :: _ =>
    if !x.waited && !d.streamBad h r && !d.stgReady h then
      (d.addSat F.HBM_STRM_STATUS_STG_WAIT h 1).modHbm h fun x => { x with waited := true }
    else d
  | [] => d

/-- STREAM_REQUEST: a request that TRN has issued arrives at an HBM block, which queues it, or completes it FAILED (R319, Table
8-7). It waits while 64 are queued, and while the edge domain sleeps, which it wakes (R324). -/
def execStreamRequest (h : Fin 16) (desc : BitVec 14) (slot : BitVec 6) (s : State) : Host.Outcome State Fault Refusal :=
  s.upd fun d =>
    let i := h.val
    let r : StreamReq := ⟨desc.toNat, slot.toNat⟩
    if !(d.hbm i).asked.contains r then d
    else if d.rests (domHbm i) then d.demand (domHbm i) true
    else if d.flag F.HBM_CTRL_STRM_EN i && (d.hbm i).queue.length ≥ 64 then d
    else
      let d := d.modHbm i fun x => { x with asked := x.asked.erase r }
      if !d.flag F.HBM_CTRL_STRM_EN i then d.streamFail i r (d.failFaces i)
      else (d.modHbm i fun x => { x with queue := x.queue ++ [r] }).hbmLook i

/-- Start the head stream (R319, R323); streams that have started run side by side. -/
def Dev.streamStart (d : Dev) (h : Nat) : Dev :=
  let x := d.hbm h
  match x.queue with
  | r :: q =>
    let pop (d : Dev) : Dev := d.modHbm h fun x => { x with queue := q, waited := false }
    if d.streamBad h r then (pop (d.streamFail h r (d.failFaces h))).hbmLook h
    else if !d.stgReady h then d.hbmLook h
    else
      let sole := d.soleFace h
      let b0 := if sole = 1 then 16 else (d.stgFree h 0).getD 16
      let b1 := if sole = 0 then 16 else (d.stgFree h 1).getD 16
      let n := descLen (sget x.descs 0 r.desc)
      let tk := (if b0 < 16 then [(0, b0, false)] else []) ++ (if b1 < 16 then [(1, b1, false)] else [])
      ((pop d).modHbm h fun x =>
        { x with runs := x.runs ++ [⟨r, n, b0, b1, sole, sole == 1, sole == 0⟩], taken := x.taken ++ tk }).hbmLook h
  | [] => d

/-- STREAM_START: a queued stream starts (R319). -/
def execStreamStart (h : Fin 16) (s : State) : Host.Outcome State Fault Refusal := s.upd fun d => d.streamStart h.val

/-- Read n granules of one parity of a slice, 512 B apart, and stage them one after another. -/
def State.stagePieces (s : State) (a site o : Nat) : Nat → State
  | 0 => s
  | n + 1 =>
    let r := s.hbmRead a 256
    (r.1.putCsm site o r.2.1).stagePieces (a + 512) site (o + 256) n

/-- A running stream ends with FAILED: its buffers whose halves were not reported are free again, and the faces given
get a FAILED record (R317, R319, R323). -/
def Dev.runFail (d : Dev) (h : Nat) (r : StreamRun) (faces : List Nat) : Dev :=
  let mine (t : Nat × Nat × Bool) : Bool := ((t.1 == 0 && t.2.1 == r.buf0) || (t.1 == 1 && t.2.1 == r.buf1)) && !t.2.2
  let d := d.modHbm h fun x => { x with runs := x.runs.erase r, taken := x.taken.filter fun t => !mine t }
  d.streamFail h r.req faces

/-- Whether a face's half of a running stream has been reported. -/
def StreamRun.done (r : StreamRun) (face : Nat) : Bool := if face = 0 then r.done0 else r.done1

/-- The stage buffer of a running stream at a face; 16 for none. -/
def StreamRun.buf (r : StreamRun) (face : Nat) : Nat := if face = 0 then r.buf0 else r.buf1

/-- Whether a running stream needs a face (R323). -/
def StreamRun.needs (r : StreamRun) (face : Nat) : Bool := r.sole ≥ 2 || r.sole == face

/-- The running streams of a stack that need a face that is out complete with FAILED to the other face (R323). -/
def Dev.faceFails (d : Dev) (h face : Nat) : Dev :=
  (d.each ((d.hbm h).runs.filter fun r => r.needs face) fun d r =>
    d.runFail h r (if r.sole < 2 then [] else d.failFaces h)).hbmLook h

/-- Every stream of a stack completes with FAILED (R317, R319). -/
def Dev.streamsFail (d : Dev) (h : Nat) : Dev :=
  let faces := d.failFaces h
  let d := d.each (d.hbm h).runs fun d r => d.runFail h r (faces.filter fun f => !r.done f)
  let q := (d.hbm h).queue
  let d := d.modHbm h fun x => { x with queue := [], waited := false }
  (d.each q fun d r => d.streamFail h r faces).hbmLook h

/-- STREAM_FACE_DONE: a face's half of the slice in one of its stage buffers, or with a sole face both halves, is in CSM: the
arrival record is sent (R320, R323). On a FAILED stack, and where a face it needs is out, the stream completes with FAILED (R319,
R323). -/
def execStreamFaceDone (h : Fin 16) (half : HalfDone) (s : State) : Host.Outcome State Fault Refusal :=
  let i := h.val
  let f := half.face.val
  let buf := half.buf.toNat
  match (s.dev.hbm i).runs.find? fun r => r.buf f == buf && !r.done f with
  | none => s.done s
  | some r =>
    if !s.dev.hbmServes i then s.done (s.onDev fun d => d.streamsFail i)
    else if s.dev.isOut i 0 && r.needs 0 then s.done (s.onDev fun d => d.faceFails i 0)
    else if s.dev.isOut i 1 && r.needs 1 then s.done (s.onDev fun d => d.faceFails i 1)
    else
      let site := hbmFace i f
      let o := s.dev.fld F.HBM_STG_CFG_BASE i f * 64 + buf * s.dev.stgBytes i f
      let off := bitsOf (sget (s.dev.hbm i).descs 0 r.req.desc) 28 27 * 512
      let a := 0x100000000000 + i * 0x1000000000 + off
      let sole := r.sole < 2
      let s1 := if sole then (s.stagePieces a site o r.len).stagePieces (a + 256) site (o + r.len * 256) r.len
        else s.stagePieces (a + 256 * f) site o r.len
      let bytes := if sole then r.len * 512 else r.len * 256
      s.done (s1.onDev fun d =>
        let d := d.arrival i f r.req.desc r.req.slot buf bytes false sole
        let r' : StreamRun := { r with done0 := r.done0 || f == 0, done1 := r.done1 || f == 1 }
        let d := d.modHbm i fun x =>
          { x with taken := x.taken.map fun t => if t.1 = f ∧ t.2.1 = buf then (t.1, t.2.1, true) else t
                   runs := x.runs.map fun q => if q = r then r' else q }
        if r'.done0 && r'.done1 then
          ((d.modHbm i fun x => { x with runs := x.runs.erase r' }).streamEnd i r.req.slot false).hbmLook i
        else d)

/-- A write to HBM_STG_FREE (R321). -/
def Dev.wrStgFree (d : Dev) (h face buf : Nat) : Dev :=
  if (d.hbm h).taken.contains (face, buf, true) then
    d.modHbm h fun x => { x with taken := x.taken.erase (face, buf, true) }
  else d.addSat F.HBM_STRM_STATUS_BAD_FREE h 1

/-- HBM_STG_FREE: a write names a stage buffer. -/
def execHbmStgFree (h : Fin 16) (face : Fin 2) (buf : BitVec 4) (s : State) : Host.Outcome State Fault Refusal :=
  s.upd fun d => d.wrStgFree h.val face.val buf.toNat

/-- HBM_STG_WAIT: the head stream has waited more than 10 µs for a stage buffer (Table 8-5). -/
def execHbmStgWait (h : Fin 16) (s : State) : Host.Outcome State Fault Refusal :=
  s.upd fun d =>
    let x := d.hbm h.val
    if x.queue.isEmpty || d.stgReady h.val then d else d.raise (evU bHBM h.val) 5 0 0

/-- HBM_FACE_OUT: a face's cluster is retired or off because of a fault (R323); a stream in flight that needs the face
completes with FAILED to the other. -/
def execHbmFaceOut (h : Fin 16) (face : Fin 2) (s : State) : Host.Outcome State Fault Refusal :=
  s.upd fun d =>
    if !d.siteOut (hbmFace h.val face.val) then d else (d.faceOut h.val face.val).faceFails h.val face.val

/-! Scrub, refresh, maintenance and sparing in HBM. -/

/-- HBM_REFRESH: a bank is refreshed; the stack reports its temperature, and above 85 °C the refresh rate is doubled
(R312, Table 8-8). No byte changes. -/
def execHbmRefresh (h : Fin 16) (_ch : Fin 32) (_bank : Nat) (temp : BitVec 8) (s : State) :
    Host.Outcome State Fault Refusal :=
  s.upd fun d =>
    (d.setF F.HBM_STATUS_TEMP h.val temp.toNat).setB F.HBM_STATUS_REFRESH_2X h.val (decide (temp.toNat > 85))

/-- What a scrub's read finds in an ECC granule: `bad` symbols or devices in error, 0 for none beside what the granule already
holds; 1 is corrected, 2 is uncorrectable, and so is the stack's own report (R309, R328). -/
def State.eccFind (s : State) (g bad : Nat) (report : Bool) : State :=
  { s with ecc := sset s.ecc 0 g (max (sget s.ecc 0 g) (if report then 2 else bad)) }

/-- A scrub's granule: a corrected one is written back (R311, R328). -/
def State.scrubBack (s : State) (g : Nat) : State := if sget s.ecc 0 g = 1 then { s with ecc := sset s.ecc 0 g 0 } else s

/-- HBM_SCRUB: patrol scrub reads a sector, as `x` says, and writes back a corrected one (R309, R311). -/
def execHbmScrub (h : Fin 16) (x : SectorMet) (s : State) : Host.Outcome State Fault Refusal :=
  let i := h.val
  let a := 0x100000000000 + i * 0x1000000000 + x.sector * 32
  if !s.dev.flag F.HBM_CTRL_SCRUB_EN i || !s.dev.hbmServes i || x.sector * 32 ≥ 0xBA0000000 then s.done s
  else s.done (((s.eccFind a x.bad.val x.onDie).hbmRead a 32).1.scrubBack a)

/-- STEP_GAP in ns: 0 acts as 1 µs (Table 8-7, R316). -/
def Dev.stepGap (d : Dev) (h : Nat) : Nat := max 1 (d.fld F.HBM_CTRL_STEP_GAP h) * 1000

/-- MAINTENANCE_STEP: a step retrains one physical channel and applies its queued soft repairs, STEP_GAP or more after the last one
(R316). -/
def execMaintenanceStep (h : Fin 16) (ch : Fin 32) (s : State) : Host.Outcome State Fault Refusal :=
  s.upd fun d =>
    let soon := match (d.hbm h.val).lastStep with
      | some t => decide (d.now < t + d.stepGap h.val)
      | none => false
    if d.flag F.HBM_CTRL_STEP_EN h.val && !soon then
      d.modHbm h.val fun x => { x with repairs := x.repairs.filter fun r => r.1 != ch.val, lastStep := some d.now }
    else d

/-- A write of START to HBM_SPARE_CTRL with LCH and SHARE stored (R314). -/
def Dev.spareStart (d : Dev) (h : Nat) : Dev :=
  let l := d.fld F.HBM_SPARE_CTRL_LCH h
  if d.flag F.HBM_SPARE_CTRL_BUSY h then d
  else if !d.hbmSpare h then d.setF F.HBM_SPARE_CTRL_RESULT h 2
  else if l > 30 then d
  else (d.setF F.HBM_SPARE_CTRL_BUSY h 1).modHbm h fun x => { x with move := some l }

/-- HBM_SPARE_START: a write of LCH, SHARE and START. -/
def execHbmSpareStart (h : Fin 16) (lch : BitVec 5) (share : BitVec 3) (s : State) : Host.Outcome State Fault Refusal :=
  s.upd fun d =>
    ((d.setF F.HBM_SPARE_CTRL_LCH h.val lch.toNat).setF F.HBM_SPARE_CTRL_SHARE h.val share.toNat).spareStart h.val

/-- SPARE_COPY_DONE: the map entry changes to the spare (R314). -/
def execSpareCopyDone (h : Fin 16) (s : State) : Host.Outcome State Fault Refusal :=
  s.upd fun d =>
    let i := h.val
    match (d.hbm i).move with
    | none => d
    | some l =>
      let d := (d.setHbmMap i l (d.hbmMap i 31)).setHbmMap i 31 0
      let d := d.modHbm i fun x => { x with move := none }
      ((d.setF F.HBM_STATUS_SPARE_USED i 1).setF F.HBM_SPARE_CTRL_BUSY i 0).setF F.HBM_SPARE_CTRL_RESULT i 1

/-- A write of OFFLINE (R317): READY and OFFLINE change places, streams complete with FAILED. A full retrain that still runs when
OFFLINE is cleared ends unfinished, and its hard repairs are not made (assumption 108). -/
def Dev.hbmOffline (d : Dev) (h : Nat) (v : Bool) : Dev :=
  let d := d.setB F.HBM_CTRL_OFFLINE h v
  let d := if !v && (d.hbm h).retraining then
      let d := d.modHbm h fun x => { x with retraining := false }
      if d.fld F.HBM_STATUS_STATE h = 1 then d.setF F.HBM_STATUS_STATE h 3 else d
    else d
  let st := d.fld F.HBM_STATUS_STATE h
  let d := if v && st = 2 then d.setF F.HBM_STATUS_STATE h 3 else if !v && st = 3 then d.setF F.HBM_STATUS_STATE h 2 else d
  if v then d.streamsFail h else d

/-- HBM_OFFLINE: a write of OFFLINE. -/
def execHbmOffline (h : Fin 16) (v : Bool) (s : State) : Host.Outcome State Fault Refusal :=
  s.upd fun d => d.hbmOffline h.val v

/-- A write of RETRAIN (R317). -/
def Dev.hbmRetrain (d : Dev) (h : Nat) : Dev :=
  if d.flag F.HBM_CTRL_OFFLINE h then
    (if d.fld F.HBM_STATUS_STATE h = 4 then d else d.setF F.HBM_STATUS_STATE h 1).modHbm h fun x => { x with retraining := true }
  else d

/-- HBM_RETRAIN: a write of RETRAIN. -/
def execHbmRetrain (h : Fin 16) (s : State) : Host.Outcome State Fault Refusal := s.upd fun d => d.hbmRetrain h.val

/-- HBM_RETRAIN_DONE: a full retrain, with its hard repairs, completes (R317). -/
def execHbmRetrainDone (h : Fin 16) (s : State) : Host.Outcome State Fault Refusal :=
  s.upd fun d =>
    let i := h.val
    if !(d.hbm i).retraining then d
    else
      let d := d.modHbm i fun x => { x with retraining := false, repairs := [] }
      if d.fld F.HBM_STATUS_STATE i = 4 then d
      else d.setF F.HBM_STATUS_STATE i (if d.flag F.HBM_CTRL_OFFLINE i then 3 else 2)

/-- A write of HBM_STG_CFG: BASE only while no buffer of the face is taken (Table 8-10). -/
def Dev.wrStgCfg (d : Dev) (h face v : Nat) : Dev :=
  let base := if (d.hbm h).taken.any fun t => t.1 == face then d.fld F.HBM_STG_CFG_BASE h face else v % 131072
  d.setR R.HBM_STG_CFG h (BitVec.ofNat 64 (v / 2 ^ 22 * 2 ^ 22 + base)) face

/-- Store a stream descriptor (Table 8-2). -/
def Dev.putDesc (d : Dev) (h ix e : Nat) : Dev :=
  d.modHbm h fun x => { x with descs := sset x.descs 0 ix (e &&& 0x807FFFFFFFFFF000) }

/-! Cellar commands. -/

/-- CEL_SCRUB: patrol scrub reads a burst, as `x` says, and writes back a corrected one (R328). -/
def execCelScrub (ch : Fin 12) (x : BurstMet) (s : State) : Host.Outcome State Fault Refusal :=
  let c := ch.val
  let a := 0x200000000000 + x.burst * 64
  if !s.dev.flag F.CEL_CTRL_SCRUB_EN c || !s.dev.celServes c || s.dev.celN < 6 || x.burst * 64 ≥ s.dev.celN * s.dev.celS ||
      s.dev.celChan (x.burst * 64) ≠ c then s.done s
  else s.done (((s.eccFind a x.bad.val false).celRead a 64).1.scrubBack a)

/-- CEL_SOFT_PPR: a queued soft repair is made, while resources remain on the row's device; else there is none (R329). -/
def execCelSoftPpr (q : SoftRepair) (s : State) : Host.Outcome State Fault Refusal :=
  s.upd fun d =>
    let c := q.ch.val
    match (d.cel c).repairs with
    | [] => d
    | row :: r =>
      let d := d.modCel c fun x => { x with repairs := r, rowCe := x.rowCe.filter fun e => !q.room || e.1 != row }
      if q.room then d.addSat F.CEL_STATUS_SPPR c 1 else d

/-- CEL_CH_FAIL: a channel fails in service (R330). -/
def execCelChFail (ch : Fin 12) (s : State) : Host.Outcome State Fault Refusal :=
  s.upd fun d =>
    let c := ch.val
    if d.fld F.CEL_STATUS_STATE c = 4 then d else (d.celFail c).raise (evU bCEL c) 3 2 0

/-- A write of HPPR while OFFLINE (R329). -/
def Dev.celHppr (d : Dev) (c : Nat) : Dev :=
  if d.flag F.CEL_CTRL_OFFLINE c then d.setF F.CEL_STATUS_SPPR c 0 else d

/-- HPPR: a write of HPPR. -/
def execHppr (ch : Fin 12) (s : State) : Host.Outcome State Fault Refusal := s.upd fun d => d.celHppr ch.val

/-- A write of OFFLINE of a Cellar channel (R331). -/
def Dev.celOffline (d : Dev) (c : Nat) (v : Bool) : Dev :=
  let d := d.setB F.CEL_CTRL_OFFLINE c v
  let st := d.fld F.CEL_STATUS_STATE c
  if v then (if st = 2 then d.setF F.CEL_STATUS_STATE c 3 else d)
  else
    -- a retrain may run only while OFFLINE is 1: it ends (R331, assumption 108)
    let back := st = 3 || (st = 1 && (d.cel c).retraining)
    (if back then d.setF F.CEL_STATUS_STATE c 2 else d).modCel c fun x => { x with retraining := false }

/-- CEL_OFFLINE: a write of OFFLINE. -/
def execCelOffline (ch : Fin 12) (v : Bool) (s : State) : Host.Outcome State Fault Refusal :=
  s.upd fun d => d.celOffline ch.val v

/-- A write of RETRAIN of a Cellar channel (R331). -/
def Dev.celRetrain (d : Dev) (c : Nat) : Dev :=
  if d.flag F.CEL_CTRL_OFFLINE c then
    (if d.fld F.CEL_STATUS_STATE c = 3 then d.setF F.CEL_STATUS_STATE c 1 else d).modCel c fun x => { x with retraining := true }
  else d

/-- CEL_RETRAIN: a write of RETRAIN. -/
def execCelRetrain (ch : Fin 12) (s : State) : Host.Outcome State Fault Refusal := s.upd fun d => d.celRetrain ch.val

/-- CEL_RETRAIN_DONE: a full retrain completes (R331). -/
def execCelRetrainDone (ch : Fin 12) (s : State) : Host.Outcome State Fault Refusal :=
  s.upd fun d =>
    let c := ch.val
    if !(d.cel c).retraining then d
    else
      let d := d.modCel c fun x => { x with retraining := false }
      if d.fld F.CEL_STATUS_STATE c = 1 then d.setF F.CEL_STATUS_STATE c (if d.flag F.CEL_CTRL_OFFLINE c then 3 else 2) else d

end Sys2Proof.Machine
end

