-- ==== Sys2Proof/Machine/Links.lean ====
section
/-! DEFINITION. Chip-to-chip links (spec/10_links_and_pairs.md R380 to R400): retry and credit, lane sparing, fast
retraining, span forwarding, sleep and wake. -/

namespace Sys2Proof.Machine

/-! Retry and credit. -/

/-- Send an ACK item with the BSN expected and the cells freed; with NAK it counts in NAKS (R386, R387, Table 10-14). -/
def Dev.ackOut (d : Dev) (l : Nat) (nak : Bool) : Dev :=
  let x := d.lnk l
  let d := d.quietOut l (.ack nak (BitVec.ofNat 10 x.expBsn) (BitVec.ofNat 16 x.freeCells))
  let d := d.modLnk l fun x => { x with freeCells := 0, accepted := 0 }
  if nak then d.addSat F.LNK_ERR_NAKS l 1 else d

/-- Start a fast retrain of a link that is UP (R388). -/
def Dev.fastRetrain (d : Dev) (l : Nat) : Dev :=
  if d.linkIsUp l then
    ((d.setF F.LNK_STATUS_STATE l 1).addSat F.LNK_ERR_RETRAINS l 1).modLnk l fun x =>
      { x with retraining := true, nakRun := 0 }
  else d

/-- An ACK item that arrived: blocks before ACK_BSN leave the replay buffer, credit returns, a NAK starts a resend, the
eighth NAK of one BSN a fast retrain, and a link whose SLEEP block is acknowledged is ASLEEP (R387, R388, R389, R398). -/
def Dev.ackIn (d : Dev) (l : Nat) (nak : Bool) (bsn credits : Nat) : Dev :=
  let x := d.lnk l
  let first := match x.replay with
    | b :: _ => b.1
    | [] => x.nextBsn
  let k := (bsn + 1024 - first) % 1024
  let k := if k ≤ x.replay.length then k else 0
  let left := x.replay.drop k
  let again := nak || (x.resume && !left.isEmpty)
  let run := if nak then (if bsn = x.nakBsn then x.nakRun + 1 else 1) else x.nakRun
  let asleep := x.sleepSent && !x.sleepWaits && left.isEmpty
  let d := d.modLnk l fun x =>
    { x with replay := left, resume := false, nakRun := run, nakBsn := if nak then bsn else x.nakBsn,
             sleepSent := x.sleepSent && !asleep }
  let d := d.setF F.LNK_STATUS_CREDITS l (min 256 (d.fld F.LNK_STATUS_CREDITS l + credits))
  let d := if asleep then d.setF F.LNK_STATUS_STATE l 3 else d
  let d := if again then d.each left fun d b => d.blockOut l b.1 b.2 else d
  if nak && run ≥ 8 then d.fastRetrain l else d.linkGo l

/-- ACK_ITEM (R387). -/
def execAckItem (l : Fin 48) (nak : Bool) (bsn : BitVec 10) (credits : BitVec 16) (s : State) :
    Host.Outcome State Fault Refusal :=
  s.upd fun d => if d.linkIsUp l.val then d.ackIn l.val nak bsn.toNat credits.toNat else d

/-- NAK_RESEND_TIMER: a receiver still missing the expected block sends NAK again (R386). -/
def execNakResendTimer (l : Fin 48) (s : State) : Host.Outcome State Fault Refusal :=
  s.upd fun d => if d.linkIsUp l.val && (d.lnk l.val).nakDue then d.ackOut l.val true else d

/-- ACK_SEND_TIMER: a receiver acknowledges the numbered blocks it accepted and returns freed cells (R387, R389). -/
def execAckSendTimer (l : Fin 48) (s : State) : Host.Outcome State Fault Refusal :=
  s.upd fun d =>
    let x := d.lnk l.val
    if d.linkIsUp l.val && (x.accepted ≠ 0 || x.freeCells ≠ 0) then d.ackOut l.val false else d

/-- A link comes UP after training: blocks count from BSN 0 and the receive buffer is free, which is returned as credit
(R389). -/
def Dev.linkUp (d : Dev) (l : Nat) : Dev :=
  let d := d.linkDrop l 2
  let d := (d.modLnk l fun x => { x with freeCells := 256 }).ackOut l false
  if d.fld F.LNK_CTRL_ROLE l = 1 then
    let d : Dev := { d with pair := { d.pair with noLinkAt := none } }
    d.mirrorPump d.pair.pending.length
  else d

/-! Fast retraining (R388, R393). -/

/-- FAST_RETRAIN: 50 µs passed with numbered blocks outstanding and none accepted (R388). -/
def execFastRetrain (l : Fin 48) (s : State) : Host.Outcome State Fault Refusal :=
  s.upd fun d => if (d.lnk l.val).replay.isEmpty then d else d.fastRetrain l.val

/-- LINK_RETRAIN: a write of RETRAIN starts a fast retrain (Table 10-11). -/
def execLinkRetrain (l : Fin 48) (s : State) : Host.Outcome State Fault Refusal := s.upd fun d => d.fastRetrain l.val

/-- The physical lane of an active position of the receive direction (Table 10-13). -/
def Dev.laneAt (d : Dev) (l pos : Nat) : Nat := bitsOf (d.fld F.LNK_LANE_MAP l) (4 * pos) 4

/-- The map of a direction of 4 bits a position on given lanes, for the first positions. -/
def mapOn (m : Nat) (lanes : List Nat) : Nat :=
  (List.range lanes.length).foldl (fun m p => putBits m (4 * p) 4 (lanes.getD p 0)) m

/-- The map on given lanes, for the first positions. -/
def Dev.remap (d : Dev) (l : Nat) (lanes : List Nat) : Dev := d.setF F.LNK_LANE_MAP l (mapOn (d.fld F.LNK_LANE_MAP l) lanes)

/-- Show the good spare of the receive direction, or none (Table 10-12, Table 10-13). -/
def Dev.setSpare (d : Dev) (l : Nat) (lane : Option Nat) : Dev :=
  match lane with
  | some n => (d.setF F.LNK_LANE_SPARE l n).setF F.LNK_STATUS_SPARE_OK l 1
  | none => (d.setF F.LNK_LANE_SPARE l 15).setF F.LNK_STATUS_SPARE_OK l 0

/-- The lanes that training found good in the receive direction, without those that a direction at half width has lost (R393). -/
def Dev.goodRx (d : Dev) (l lanes : Nat) : List Nat :=
  (List.range 9).filter fun k => bitOf lanes k && !((d.lnk l).halfDue && (d.lnk l).badLanes.contains k)

/-- The lanes that the far end found good in the send direction. -/
def goodTx (lanes : Nat) : List Nat := (List.range 9).filter fun k => bitOf lanes (9 + k)

/-- The send direction keeps a lane map of its own, at half width below 8 good lanes (R393). -/
def Dev.txSet (d : Dev) (l : Nat) (good : List Nat) : Dev :=
  d.modLnk l fun x =>
    let mapped := (List.range 8).map fun p => bitsOf x.txMap (4 * p) 4
    let keep := !x.txHalf && mapped.all fun k => good.contains k
    { x with txHalf := decide (good.length < 8), txGrant := none,
             txMap := if good.length < 8 then mapOn x.txMap (good.take 4) else if keep then x.txMap else mapOn x.txMap (good.take 8) }

/-- Training found these lanes good in the receive direction: at full width a map whose lanes are good stays, else it takes the
lowest good lanes, 8 of them or, below 8 or where a lane was lost without a spare, 4 at half width; a ninth good lane is the
spare (R391, R393; assumption 109). -/
def Dev.lanesSet (d : Dev) (l : Nat) (good : List Nat) : Dev :=
  let n := good.length
  let half := (d.lnk l).halfDue || decide (n < 8)
  let mapped := (List.range 8).map fun p => d.laneAt l p
  let keep := !d.flag F.LNK_STATUS_HALF l && mapped.eraseDups.length = 8 && mapped.all fun x => good.contains x
  let d := (d.setF F.LNK_STATUS_GOOD_LANES l n).modLnk l fun x =>
    { x with badLanes := (List.range 9).filter fun k => !good.contains k, halfDue := false, asked := none, grant := none }
  if half then ((d.setF F.LNK_STATUS_HALF l 1).remap l (good.take 4)).setSpare l none
  else
    let d := d.setF F.LNK_STATUS_HALF l 0
    let d := if keep then d else d.remap l (good.take 8)
    let used := if keep then mapped else good.take 8
    d.setSpare l (good.find? fun x => !used.contains x)

/-- FAST_RETRAIN_END: training ends with its good lanes. The link resumes, at half width below 8 lanes; with fewer
than 4 it becomes FAILED; one that does not complete goes DOWN (R388, R393). After a fast retrain both ends exchange ACKs;
after the training of an enabled link the link is newly UP. `goodLanes` holds the good lanes of the receive direction in bits 8 to 0
and those of the send direction in bits 17 to 9. -/
def execFastRetrainEnd (l : Fin 48) (ok : Bool) (goodLanes : BitVec 18) (s : State) : Host.Outcome State Fault Refusal :=
  s.upd fun d =>
    let good := d.goodRx l.val goodLanes.toNat
    let tx := goodTx goodLanes.toNat
    if d.fld F.LNK_STATUS_STATE l.val ≠ 1 then d
    else if !ok then (d.linkDown l.val 0).raise (evU bLNK l.val) 3 2 15
    else if good.length < 4 || tx.length < 4 then
      ((d.setF F.LNK_STATUS_GOOD_LANES l.val good.length).linkDown l.val 4).raise (evU bLNK l.val) 3 2 15
    else
      let was := d.flag F.LNK_STATUS_HALF l.val
      let wasTx := (d.lnk l.val).txHalf
      let d := (d.lanesSet l.val good).txSet l.val tx
      let d := if (d.lnk l.val).retraining then
          let d := d.setF F.LNK_STATUS_STATE l.val 2
          (d.modLnk l.val fun x => { x with retraining := false, resume := true }).ackOut l.val false
        else d.linkUp l.val
      if (d.flag F.LNK_STATUS_HALF l.val && !was) || ((d.lnk l.val).txHalf && !wasTx) then d.raise (evU bLNK l.val) 2 1 15 else d

/-! Lane sparing (R391, R392). -/

/-- Corrected symbols of a codeword count on their physical lanes, symbol i on the lane of position i mod W (R381, R391). A window
of 1 ms begins at the first count after the last one has ended (assumption 109). -/
def Dev.laneErrs (d : Dev) (l : Nat) (errs : List Nat) : Dev :=
  let w := if d.flag F.LNK_STATUS_HALF l then 4 else 8
  let d := d.modLnk l fun x => if d.now < x.corrAt + 1000000 && !x.corr.isEmpty then x else { x with corr := [], corrAt := d.now }
  let d := d.modLnk l fun x => errs.foldl (fun x i =>
    let k := d.laneAt l (i % w)
    { x with corr := sset x.corr 0 k (sget x.corr 0 k + 1), worst := sset x.worst 0 k (sget x.worst 0 k + 1) }) x
  let top := (List.range 9).foldl (fun b k => if sget (d.lnk l).worst 0 k > sget (d.lnk l).worst 0 b then k else b) 0
  (d.addSat F.LNK_ERR_CORR_SYM l errs.length).setF F.LNK_ERR_WORST_LANE l top

/-- WORST_LANE counts anew from a read of LNK_ERR on (Table 10-14). -/
def Dev.worstRead (d : Dev) (l : Nat) : Dev := (d.modLnk l fun x => { x with worst := [] }).setF F.LNK_ERR_WORST_LANE l 0

/-- The receiving end wants position pos moved to the spare: it sends a REQUEST; without a good spare the lane is out and
the direction retrains to half width. A spare that a REQUEST has asked for serves no second position (R391, R393). -/
def Dev.laneSwap (d : Dev) (l pos : Nat) : Dev :=
  if !d.linkIsUp l || (d.lnk l).asked = some pos then d
  else if d.flag F.LNK_STATUS_SPARE_OK l && (d.lnk l).asked.isNone then
    Dev.linkItem (l := l) (d.modLnk l fun x => { x with asked := some pos })
      (.lane false (BitVec.ofNat 8 pos) (BitVec.ofNat 8 (d.fld F.LNK_LANE_SPARE l)) 0)
  else
    let lane := d.laneAt l pos
    (d.modLnk l fun x =>
      { x with badLanes := if x.badLanes.contains lane then x.badLanes else lane :: x.badLanes, halfDue := true }).fastRetrain l

/-- The lanes whose count exceeds 256 × SWAP_LIM are to be swapped, each once (R391). -/
def Dev.laneLook (d : Dev) (l : Nat) : Dev :=
  let lim := 256 * d.fld F.LNK_CTRL_SWAP_LIM l
  let w := if d.flag F.LNK_STATUS_HALF l then 4 else 8
  d.each ((List.range w).filter fun p => decide (sget (d.lnk l).corr 0 (d.laneAt l p) > lim)) fun d p =>
    (d.modLnk l fun x => { x with corr := sset x.corr 0 (d.laneAt l p) 0 }).laneSwap l p

/-- LANE_SWAP: the receiver of a lane lost lock (R391). -/
def execLaneSwap (l : Fin 48) (pos : Fin 8) (s : State) : Host.Outcome State Fault Refusal :=
  s.upd fun d => d.laneSwap l.val pos.val

/-- The sending end answers a REQUEST with a GRANT that names a block at least 16 later (R391). -/
def Dev.laneRequest (d : Dev) (l pos phys : Nat) : Dev :=
  if !d.linkIsUp l then d
  else
    let b := ((d.lnk l).nextBsn + 16) % 1024
    let d := d.modLnk l fun x => { x with txGrant := some (pos, phys, b) }
    d.linkItem l (.lane true (BitVec.ofNat 8 pos) (BitVec.ofNat 8 phys) (BitVec.ofNat 16 b))

/-- LANE_REQUEST (R391). -/
def execLaneRequest (l : Fin 48) (pos : Fin 8) (phys : Fin 9) (s : State) : Host.Outcome State Fault Refusal :=
  s.upd fun d => d.laneRequest l.val pos.val phys.val

/-- The receive direction changes its map at the block that the GRANT named: SWAPS counts, the removed lane retrains, and
LNK_LANE_SWAP is raised (R391, R392). -/
def Dev.grantDue (d : Dev) (l : Nat) : Dev :=
  match (d.lnk l).grant with
  | none => d
  | some (pos, phys, b) =>
    if (d.lnk l).expBsn ≠ b then d
    else
      let old := d.laneAt l pos
      let d := d.setF F.LNK_LANE_MAP l (putBits (d.fld F.LNK_LANE_MAP l) (4 * pos) 4 phys)
      let d := ((d.setSpare l none).modLnk l fun x => { x with grant := none, asked := none, laneTrain := some old }).addSat F.LNK_ERR_SWAPS l 1
      d.raise (evU bLNK l) 1 0 old

/-- A GRANT that arrived (R391). -/
def Dev.laneGrant (d : Dev) (l pos phys bsn : Nat) : Dev :=
  if !d.linkIsUp l then d
  else (d.modLnk l fun x => { x with grant := some (pos, phys, bsn) }).grantDue l

/-- LANE_GRANT (R391). -/
def execLaneGrant (l : Fin 48) (pos : Fin 8) (phys : Fin 9) (bsn : BitVec 10) (s : State) :
    Host.Outcome State Fault Refusal :=
  s.upd fun d => d.laneGrant l.val pos.val phys.val bsn.toNat

/-- LANE_RETRAIN_DONE: the lane becomes the spare, or is marked failed (R392). -/
def execLaneRetrainDone (l : Fin 48) (lane : Fin 9) (good : Bool) (s : State) : Host.Outcome State Fault Refusal :=
  s.upd fun d =>
    if (d.lnk l.val).laneTrain ≠ some lane.val then d
    else
      let d := d.modLnk l.val fun x => { x with laneTrain := none }
      if good then d.setSpare l.val (some lane.val)
      else
        (d.modLnk l.val fun x =>
          { x with badLanes := if x.badLanes.contains lane.val then x.badLanes else lane.val :: x.badLanes }).setF
          F.LNK_STATUS_GOOD_LANES l.val (d.fld F.LNK_STATUS_GOOD_LANES l.val - 1)

/-- RETRAIN_LANE on a mapped lane swaps it out; on the spare it retrains the spare alone; without a good spare it is
ignored (R392). -/
def Dev.retrainLane (d : Dev) (l lane : Nat) : Dev :=
  if !d.flag F.LNK_STATUS_SPARE_OK l || (d.lnk l).asked.isSome || !d.linkIsUp l then d
  else if lane = d.fld F.LNK_LANE_SPARE l then (d.setSpare l none).modLnk l fun x => { x with laneTrain := some lane }
  else
    match (List.range (if d.flag F.LNK_STATUS_HALF l then 4 else 8)).find? fun p => d.laneAt l p == lane with
    | some p => d.laneSwap l p
    | none => d

/-- RETRAIN_LANE (R392). -/
def execRetrainLane (l : Fin 48) (lane : BitVec 4) (s : State) : Host.Outcome State Fault Refusal :=
  s.upd fun d => d.retrainLane l.val lane.toNat

/-! Span forwarding (R394 to R397). -/

/-- The far end's role on a link: 7 when no BEAT has been accepted within 15 µs (Table 10-12). -/
def Dev.linkFar (d : Dev) (l : Nat) : Nat :=
  let t := sget d.pair.lastBeat 0 l
  if t ≠ 0 && d.now + 1 ≤ t + 15000 then d.fld F.LNK_STATUS_FAR_ROLE l else 7

/-- Both ends of a SPAN link report LEAD or SOLO (R397). -/
def Dev.spanOpen (d : Dev) (l : Nat) : Bool :=
  (d.role = 1 || d.role = 2) && (d.linkFar l = 1 || d.linkFar l = 2)

/-- The lowest tag that no forwarded message of a link uses. -/
def Dev.fwdTag (d : Dev) (l : Nat) : Option Nat :=
  (List.range 256).find? fun t => !(d.lnk l).fwd.any fun x => x.1 == t

/-- A packet goes over a link. -/
def Dev.linkSend (d : Dev) (l : Nat) (p : Packet) : Dev := d.linkQ l (dataCells p)

/-- Whether two packets belong to one message of one sender. -/
def sameMsg (p q : Packet) : Bool := p.srcSite == q.srcSite && p.srcCore == q.srcCore && p.tag == q.tag

/-- A MSG packet to forward: the packets of a message share a tag of the link; a first packet without a free tag waits,
and so does what follows it (R394, R396). -/
def Dev.fwdSend (d : Dev) (l : Nat) (p : Packet) : Dev :=
  if mKind p = 1 then d.linkSend l p
  else
    let d := if mPart p % 2 = 1 then d.modLnk l fun x => { x with fwd := x.fwd.filter fun y => !sameMsg y.2 p } else d
    match (d.lnk l).fwd.find? fun y => sameMsg y.2 p with
    | some y => d.linkSend l { p with tag := BitVec.ofNat 8 y.1 }
    | none =>
      match d.fwdTag l with
      | some t =>
        if (d.lnk l).fwdWait.isEmpty then
          (d.modLnk l fun x => { x with fwd := x.fwd ++ [(t, p)] }).linkSend l { p with tag := BitVec.ofNat 8 t }
        else d.modLnk l fun x => { x with fwdWait := x.fwdWait ++ [p] }
      | none => d.modLnk l fun x => { x with fwdWait := x.fwdWait ++ [p] }

/-- Forward what waited for a tag, at most n packets (R396). -/
def Dev.fwdPump (d : Dev) (l : Nat) : Nat → Dev
  | 0 => d
  | n + 1 =>
    match (d.lnk l).fwdWait with
    | [] => d
    | p :: rest =>
      match (d.lnk l).fwd.find? fun y => sameMsg y.2 p with
      | some y => ((d.modLnk l fun x => { x with fwdWait := rest }).linkSend l { p with tag := BitVec.ofNat 8 y.1 }).fwdPump l n
      | none =>
        match d.fwdTag l with
        | some t =>
          ((d.modLnk l fun x => { x with fwdWait := rest, fwd := x.fwd ++ [(t, p)] }).linkSend l
            { p with tag := BitVec.ofNat 8 t }).fwdPump l n
        | none => d

/-- What an LNK block does with a packet that reaches it on its edge port (R394, R396, R397). -/
def Dev.spanForward (d : Dev) (l : Nat) (p : Packet) : Dev :=
  if p.ty.toNat ≠ 4 || d.fld F.LNK_CTRL_ROLE l ≠ 2 || !d.flag F.LNK_CTRL_FWD_EN l then d.unmappedAnswer p
  else if !d.spanOpen l then (if mKind p = 1 then d else d.respond p 5 (ackAux 1) [])
  else d.fwdSend l p

/-- SPAN_FORWARD (R394). -/
def execSpanForward (l : Fin 48) (p : Packet) (s : State) : Host.Outcome State Fault Refusal :=
  s.upd fun d => ((d.depart (lnkFace l.val) 15 p).ejected (lnkFace l.val) p).spanForward l.val p

/-- An ACK with a status goes back over a link under the tag of its far end (R395). -/
def Dev.spanAck (d : Dev) (l tag status : Nat) : Dev :=
  d.linkSend l { pkt0 with ty := 5, tag := BitVec.ofNat 8 tag, aux := BitVec.ofNat 24 (ackAux status) }

/-- A MSG packet that came over a link is readdressed by the receive table and injected, or answered with ADDRESS
(R395), or with CLOSED while an end reports neither LEAD nor SOLO (R397). -/
def Dev.farForward (d : Dev) (l : Nat) (p : Packet) : Dev :=
  let e := sget (d.lnk l).table 0 p.chan.toNat
  let site := lnkFace l
  let dst := if bitOf e 30 then d.mapSite site (d.injEpoch site) (bitsOf e 22 8) else some (bitsOf e 22 8)
  let bad := if mKind p = 1 then d else d.spanAck l p.tag.toNat 4
  if d.fld F.LNK_CTRL_ROLE l ≠ 2 || !d.flag F.LNK_CTRL_FWD_EN l || !bitOf e 31 then bad
  else if !d.spanOpen l then (if mKind p = 1 then d else d.spanAck l p.tag.toNat 1)
  else
    match dst with
    | none => bad
    | some ds =>
      let t := p.tag.toNat
      let q := { p with dstSite := BitVec.ofNat 8 ds, dstCore := BitVec.ofNat 6 (bitsOf e 16 6), log := bitOf e 30,
                        srcSite := BitVec.ofNat 8 site, srcCore := BitVec.ofNat 6 (edgeCore (lnkPort l)),
                        epoch := d.injEpoch site = 1, vc := false }
      if mKind p = 1 then d.reply site (lnkPort l) q
      else
        match d.injw.find? fun w => w.kind == some (.span l t) with
        | some w =>
          { d with injw := d.injw.map fun x => if x = w then { w with pkts := w.pkts ++ [q] } else x }
        | none =>
          match d.reqs.find? fun r => r.kind == .span l t with
          | some r => d.inject site (lnkPort l) [{ q with tag := BitVec.ofNat 8 r.tag }] none
          | none => d.inject site (lnkPort l) [q] (some (.span l t))

/-- The ACK of a forwarded message came over the link: it is delivered under the original TAG (R395). -/
def Dev.farAck (d : Dev) (l : Nat) (p : Packet) : Dev :=
  match (d.lnk l).fwd.find? fun y => y.1 == p.tag.toNat with
  | none => d
  | some y =>
    let d := d.modLnk l fun x => { x with fwd := x.fwd.filter fun z => z.1 != y.1 }
    (d.respond y.2 5 p.aux.toNat []).fwdPump l (d.lnk l).fwdWait.length

/-- Write an entry of the receive table: ignored while FWD_EN is 1 (Table 10-15). -/
def Dev.wrFwd (d : Dev) (l v : Nat) : Dev :=
  if d.flag F.LNK_CTRL_FWD_EN l then d
  else d.modLnk l fun x =>
    { x with table := sset x.table 0 (d.fld F.LNK_FWD_SEL_INDEX l) (v / 65536 % 65536 * 65536) }

/-! Sleep and wake (R398 to R400). -/

/-- The links of a quad. -/
def quadLinks (q : Nat) : List Nat := [4 * q, 4 * q + 1, 4 * q + 2, 4 * q + 3]

/-- Whether a link of a quad carries DATA cells: some wait or are not yet acknowledged (R477). -/
def Dev.quadData (d : Dev) (q : Nat) : Bool :=
  (quadLinks q).any fun l => (d.lnk l).txq.any (fun cs => cs.any isData) || (d.lnk l).replay.any fun b => b.2.any isData

/-- A quad that holds a MIRROR link does not sleep while the pair is syncing or formed (R398). -/
def Dev.quadHeld (d : Dev) (q : Nat) : Bool :=
  d.syncSt ≠ 0 && (quadLinks q).any fun l => d.fld F.LNK_CTRL_ROLE l == 1

/-- LINK_SLEEP: a link that is UP sends a SLEEP item in a numbered block (R398). -/
def Dev.linkSleep (d : Dev) (l : Nat) : Dev :=
  if d.linkIsUp l && !(d.lnk l).sleepSent && !d.quadHeld (l / 4) then
    (d.linkItem l .sleep).modLnk l fun x => { x with sleepSent := true }
  else d

/-- LINK_SLEEP (R398). -/
def execLinkSleep (l : Fin 48) (s : State) : Host.Outcome State Fault Refusal := s.upd fun d => d.linkSleep l.val

/-- The links of an awake quad that were ASLEEP carry blocks again (R399), and the others send the DATA cells that waited. -/
def Dev.quadUp (d : Dev) (q : Nat) : Dev :=
  if (d.dom (domQuad (4 * q))).level ≠ 0 then d
  else d.each (quadLinks q) fun d l => (if d.fld F.LNK_STATUS_STATE l = 3 then d.setF F.LNK_STATUS_STATE l 2 else d).linkGo l

/-- WAKE_PATTERN: signal activity on a sleeping quad wakes it, unless the quad ignores wakes, which WAKES_IGN counts
(R399, R400). -/
def execWakePattern (quad : Fin 12) (s : State) : Host.Outcome State Fault Refusal :=
  s.upd fun d =>
    let q := quad.val
    let zs := (quadLinks q).filter fun l => d.fld F.LNK_STATUS_STATE l == 3
    if zs.isEmpty && (d.dom (domQuad (4 * q))).level = 0 then d
    else if d.now < (d.lnk (4 * q)).ignoreUntil then d.each (if zs.isEmpty then quadLinks q else zs) fun d l => d.addSat F.LNK_STATUS_WAKES_IGN l 1
    else
      let d := d.modLnk (4 * q) fun x => { x with wakeAt := some d.now, sawData := false }
      (d.demand (domQuad (4 * q)) true).quadUp q

/-- WAKE_PATTERN_REPEAT: a link end that holds a packet for an ASLEEP link repeats the wake pattern (R399). -/
def execWakePatternRepeat (l : Fin 48) (s : State) : Host.Outcome State Fault Refusal :=
  s.upd fun d =>
    if d.fld F.LNK_STATUS_STATE l.val = 3 && !(d.lnk l.val).txq.isEmpty then d.emit (.wakePattern l.val) else d

/-- SPURIOUS_WAKE: 100 µs after a wake by signal activity, without a DATA cell the wake is spurious; the eighth in a row
makes the quad ignore activity for 10 ms (R400). -/
def execSpuriousWake (quad : Fin 12) (s : State) : Host.Outcome State Fault Refusal :=
  s.upd fun d =>
    let l := 4 * quad.val
    let x := d.lnk l
    if x.wakeAt.isNone then d
    else if x.sawData then d.modLnk l fun x => { x with wakeAt := none, spurious := 0 }
    else if x.spurious + 1 < 8 then d.modLnk l fun x => { x with wakeAt := none, spurious := x.spurious + 1 }
    else
      (d.modLnk l fun x => { x with wakeAt := none, spurious := 0, ignoreUntil := d.now + 10000000 }).raise
        (evU bLNK l) 4 0 15

/-- A write of LNK_CTRL (Table 10-11): EN starts the training of the link or takes it DOWN; RETRAIN and RETRAIN_LANE
act. A FAILED link stays FAILED until a cold start (R393). -/
def Dev.wrLnkCtrl (d : Dev) (l v : Nat) : Dev :=
  let was := d.flag F.LNK_CTRL_EN l
  let d := d.setR R.LNK_CTRL l (BitVec.ofNat 64 (putBits (putBits (putBits (putBits (d.getR R.LNK_CTRL l).toNat 16 8
    (bitsOf v 16 8)) 8 4 (bitsOf v 8 4)) 3 1 (bitsOf v 3 1)) 0 1 (bitsOf v 0 1)))
  let st := d.fld F.LNK_STATUS_STATE l
  let d := if was && !bitOf v 0 && st ≠ 4 then d.linkDown l 0
    else if !was && bitOf v 0 && st = 0 then d.setF F.LNK_STATUS_STATE l 1 else d
  let d := if bitOf v 6 then d.fastRetrain l else d
  if bitOf v 7 then d.retrainLane l (bitsOf v 8 4) else d

end Sys2Proof.Machine
end

