-- ==== Sys2Proof/Machine/Commands.lean ====
section
/-! DEFINITION. The command engine (chapters 9 and 15): the command ring, acceptance and start, sessions, decode steps and
token records, and the commands that need no transfer of data. -/

namespace Sys2Proof.Machine

/-! The command ring (R348 to R353). -/

/-- Entries of the command ring (R348). -/
def Dev.ringLen (d : Dev) : Nat := 64 * 2 ^ min 8 (d.fld F.CMD_RING_CFG_SIZE 0)

/-- Start of the command ring in the host window (Table 9-20). -/
def Dev.ringAt (d : Dev) : Nat :=
  let b := d.fld F.CMD_RING_CFG_BASE 0 * 4096
  if b + 64 * d.ringLen ≤ 0x100000 then b else 0

/-- The entry at HEAD. -/
def Dev.headEntry (d : Dev) : List Byte := d.getJ (d.ringAt + 64 * d.fld F.CMD_RING_HEAD_INDEX 0) 64

/-- Whether the entry at HEAD is new (R350). -/
def Dev.headNew (d : Dev) : Bool := leAt d.headEntry 0 1 % 2 == d.fld F.CMD_RING_HEAD_PHASE 0

/-- The conditions of acceptance (R351). -/
def Dev.canAccept (d : Dev) : Bool :=
  d.flag F.CMD_CTRL_EN 0 && !d.flag F.CMD_CTRL_PAUSE 0 && decide (d.cmds.length < 4096) && d.hrRoom 0 (d.cmds.length + 1)

/-- The command engine examines the entry at HEAD: a new entry that must wait counts once in ACC_WAITS (R350, R351). -/
def Dev.examine (d : Dev) : Dev :=
  if !d.flag F.CMD_STATUS_RESETTING 0 && d.headNew && !d.canAccept && !d.accWaited then
    { (d.addSat F.CMD_STATUS_ACC_WAITS 0 1) with accWaited := true }
  else d

/-- COMMAND_ENTRY_EXAMINE (R350). -/
def execCommandEntryExamine (s : State) : Host.Outcome State Fault Refusal :=
  s.upd fun d => if d.rests domHost then d.demand domHost true else d.examine

/-- Whether a command opcode is defined (Table 9-8). -/
def opKnown (op : Nat) : Bool := op ≤ 7 || op == 0x10 || (0x20 ≤ op && op ≤ 0x22)

/-- The parameter bits that a command names, by word (Tables 9-8, 12-5, 16-11, 18-5). -/
def opMask (op i : Nat) : Nat :=
  let full := 2 ^ 64 - 1
  let m (xs : List Nat) := xs.getD i 0
  if op = 1 then m [full, 0x000F00FFFFFFFFFF, 0xFFFFFFFF00000003, full]
  else if op = 3 then m [full, 0xFFFFFFFF]
  else if op = 4 then m [0x37FFFFFFFF, 0xFFFFFFFF, full, full]
  else if op = 5 then m [full]
  else if op = 6 || op = 7 then m [full, 0xFFFFFFFFFF]
  else if op = 0x10 then m [full, full, 0xFFFFFFFFFF]
  else if op = 0x20 then m [0xFFFFFF0F01]
  else if op = 0x21 then m [0x30F1FFF03, 0xFFFF]
  else if op = 0x22 then m [0x13F01037F, 0x1FFFF]
  else 0

/-- Whether an entry has a reserved bit set (R349, R352, R356). -/
def ceReserved (e : List Byte) : Bool :=
  let w := leAt e 0 4
  bitsOf w 1 7 ≠ 0 || bitsOf w 20 4 ≠ 0 || bitsOf w 26 6 ≠ 0 ||
  (List.range 6).any fun i => ceP e i &&& (2 ^ 64 - 1 - opMask (ceOp e) i) ≠ 0

/-- Accept the entry at HEAD (R351, R352). -/
def Dev.accept (d : Dev) (e : List Byte) : Dev :=
  let seq := (d.getR R.JNL_NEXT_SEQ 0).toNat
  let d := d.setR R.JNL_NEXT_SEQ 0 (BitVec.ofNat 64 (seq + 1))
  let d : Dev := { d with cmds := d.cmds ++ [CmdS.mk seq e false false 0 [] 0 none d.now], accWaited := false }
  let d := d.jnlPut seq (jnlNew seq e d.cmdNt d.term) false
  let d := (d.addWrap F.CMD_COUNT_ACCEPTED 0 1).setF F.CMD_STATUS_INFLIGHT 0 d.cmds.length
  if !opKnown (ceOp e) then d.complete seq 2 0 0
  else if ceReserved e then d.complete seq 3 0 0
  else d

/-- COMMAND_ACCEPT: a new entry is accepted once the conditions hold, and HEAD advances (R351). -/
def execCommandAccept (s : State) : Host.Outcome State Fault Refusal :=
  s.upd fun d =>
    if d.rests domHost then d.demand domHost true
    else if d.canAccept && d.headNew && !d.flag F.CMD_STATUS_RESETTING 0 then
      let e := d.headEntry
      let i := d.fld F.CMD_RING_HEAD_INDEX 0
      let d := if i + 1 ≥ d.ringLen then
          (d.setF F.CMD_RING_HEAD_INDEX 0 0).setF F.CMD_RING_HEAD_PHASE 0 (1 - d.fld F.CMD_RING_HEAD_PHASE 0)
        else d.setF F.CMD_RING_HEAD_INDEX 0 (i + 1)
      (d.accept e).examine
    else d

/-- A write of RING_RESET (R353): the clearing of the PHASE bits ends by RING_RESET_DONE. -/
def Dev.ringResetCmd (d : Dev) : Dev :=
  let d := (d.setF F.CMD_RING_HEAD_INDEX 0 0).setF F.CMD_RING_HEAD_PHASE 0 1
  let b := d.ringAt
  let d := d.each (List.range d.ringLen) fun d i =>
    let v := leAt (d.getJ (b + 64 * i) 1) 0 1
    if v % 2 = 1 then d.putJ (b + 64 * i) (leBytes 1 (v - 1)) else d
  { (d.setF F.CMD_STATUS_RESETTING 0 1) with accWaited := false }

/-- RING_RESET (R353). -/
def execRingReset (s : State) : Host.Outcome State Fault Refusal := s.upd Dev.ringResetCmd

/-- RING_RESET_DONE: the clearing ends and the engine examines the entry at HEAD again (R353). -/
def execRingResetDone (s : State) : Host.Outcome State Fault Refusal :=
  s.upd fun d => (d.setF F.CMD_STATUS_RESETTING 0 0).examine

/-- EN: a write of EN of CMD_CTRL. Outside READY the command engine stays disabled (R350, R532, R537, R547). -/
def Dev.wrCmdEn (d : Dev) (v : Bool) : Dev :=
  if v && d.fld F.BSQ_STATUS_STATE 0 ≠ 2 then d
  else if d.flag F.CMD_CTRL_EN 0 = v then d else (d.setB F.CMD_CTRL_EN 0 v).examine

/-- EN (R350). -/
def execEn (v : Bool) (s : State) : Host.Outcome State Fault Refusal := s.upd fun d => d.wrCmdEn v

/-- PAUSE: a write of PAUSE of CMD_CTRL (R350). -/
def Dev.wrCmdPause (d : Dev) (v : Bool) : Dev :=
  if d.flag F.CMD_CTRL_PAUSE 0 = v then d else (d.setB F.CMD_CTRL_PAUSE 0 v).examine

/-- PAUSE (R350). -/
def execPause (v : Bool) (s : State) : Host.Outcome State Fault Refusal := s.upd fun d => d.wrCmdPause v

/-! Host rings (R364). -/

/-- A host write of HEAD of a host ring: ignored with HEAD_REJ when it passes TAIL or is no multiple of 64 inside the
ring (R364, Table 9-25). -/
def Dev.wrHringHead (d : Dev) (r v : Nat) : Dev :=
  let d : Dev := { d with ntfOut := d.ntfOut.filter fun x => x != r }
  let o := bitsOf v 0 22
  let new := (d.setF F.CMD_HRING_HEAD_OFFSET 0 o r).setF F.CMD_HRING_HEAD_WRAP 0 (bitsOf v 22 1) r
  -- on TAIL's lap it passes TAIL when it lies above it
  let past := bitsOf v 22 1 = d.fld F.CMD_HRING_TAIL_WRAP 0 r && o > d.fld F.CMD_HRING_TAIL_OFFSET 0 r
  if o % 64 = 0 && o < d.hrSize r && !past && new.hrUsed r ≤ d.hrUsed r then new.examine
  else d.setF F.CMD_HRING_CFG_HEAD_REJ 0 1 r

/-- CMD_HRING_HEAD (R364). -/
def execCmdHringHead (ring : Fin 3) (v : Word) (s : State) : Host.Outcome State Fault Refusal :=
  s.upd fun d => d.wrHringHead ring.val v.toNat

/-- RESET of a host ring: while EN is 0, HEAD and TAIL go to offset 0 with WRAP 0 (Table 9-24). -/
def Dev.hringReset (d : Dev) (r : Nat) : Dev :=
  if d.flag F.CMD_HRING_CFG_EN 0 r then d else (d.setR R.CMD_HRING_HEAD 0 0 r).setR R.CMD_HRING_TAIL 0 0 r

/-- HOST_RING_RESET (R364). -/
def execHostRingReset (ring : Fin 3) (s : State) : Host.Outcome State Fault Refusal :=
  s.upd fun d => d.hringReset ring.val

/-- JNL_MIRROR_LAG: an entry version has waited more than 100 µs for the mirror (R378). -/
def execJnlMirrorLag (s : State) : Host.Outcome State Fault Refusal :=
  s.upd fun d =>
    match d.jwait.find? fun w => !w.lagged with
    | none => d
    | some w =>
      let d : Dev := { d with jwait := d.jwait.map fun x => if x = w then { x with lagged := true } else x }
      d.record (evU bJNL 0) 1 1 0

/-! Session switch (R300, R371). -/

/-- The cluster that holds the sampling unit in use: the lowest site with ASU_EN (assumption 24). -/
def Dev.asuSite (d : Dev) : Option Nat :=
  (List.range 256).find? fun x => d.flag F.CLU_UNIT_CTRL_ASU_EN x && !d.siteOut x

/-- The loaded image's value of a field, 0 without an image. -/
def Dev.img (d : Dev) (f : Image → Nat) : Nat := match d.boot.image with
  | some m => f m
  | none => 0

/-- The adapter of the loaded image: where its master and cube copies lie, with their initial bytes (R224). -/
def Dev.adapter (d : Dev) : List MemLoad := match d.boot.image with
  | some m => m.adapter
  | none => []

/-- The adapter copies as they stand, one after another. -/
def State.adapterRead (s : State) : State × List Byte :=
  s.dev.adapter.foldl (fun x e =>
    match x.1.dev.place x.1.dev.edgeSite e.addr.toNat with
    | .mem a =>
      let r := x.1.memRead a e.bytes.length
      (r.1, x.2 ++ r.2.1)
    | _ => (x.1, x.2 ++ zeros e.bytes.length)) (s, [])

/-- Write adapter copies, given one after another, where they lie. -/
def State.adapterWrite (s : State) (bs : List Byte) : State :=
  (s.dev.adapter.foldl (fun (x : State × List Byte) e =>
    (match x.1.dev.place x.1.dev.edgeSite e.addr.toNat with
      | .mem a => (x.1.memWrite a (takeZ e.bytes.length x.2)).1
      | _ => x.1, x.2.drop e.bytes.length)) (s, bs)).1

/-- A save area's contents: the generator state, then the adapter copies (R371; assumption 25). -/
def saveBytes (rng : Nat) (adapter : List Byte) : List Byte := (leBytes 8 rng ++ adapter).take 0x400000

/-- The save area of a session that opens: its seed and the initial adapter of the image (R224). -/
def Dev.openBytes (d : Dev) (rng : Nat) : List Byte := saveBytes rng (d.adapter.flatMap fun e => e.bytes)

/-- The ACTIVE session. -/
def Dev.activeSess (d : Dev) : Option Nat := (List.range 16).find? fun j => (d.sess j).state == 2

/-- The generator state of a session: of the ACTIVE one, the sampling unit's (R218). -/
def Dev.sessRng (d : Dev) (i : Nat) : Nat :=
  if (d.sess i).state = 2 then
    match d.asuSite with
    | some x => (d.getR R.CLU_ASU_STATE x).toNat
    | none => (d.sess i).rng
  else (d.sess i).rng

/-- Store the ACTIVE session's generator state and adapter copies in its save area (R371 step 1). -/
def State.saveActive (s : State) : State :=
  match s.dev.activeSess with
  | none => s
  | some j =>
    let g := s.dev.sessRng j
    let r := s.adapterRead
    ((r.1.memWrite (r.1.dev.sess j).base (saveBytes g r.2)).1).onDev fun d => d.modSess j fun x => { x with rng := g }

/-- Save the ACTIVE session, which becomes OPEN (R371 step 1). -/
def State.sessionSave (s : State) : State :=
  match s.dev.activeSess with
  | none => s
  | some j => s.saveActive.onDev fun d => (d.modSess j fun x => { x with state := 1 }).showSess j

/-- Take a session's generator state and adapter copies from its save area (R371 step 3). A generator state of 0 is the one
that CLU_ASU_STATE stores for it (R218). -/
def State.sessionLoad (s : State) (i : Nat) : State :=
  let n := (s.dev.adapter.map fun e => e.bytes.length).sum
  let r := s.memRead (s.dev.sess i).base (min 0x400000 (8 + n))
  let g := if leAt r.2.1 0 8 = 0 then 0x9E3779B97F4A7C15 else leAt r.2.1 0 8
  (r.1.adapterWrite (r.2.1.drop 8)).onDev fun d =>
    let d := d.modSess i fun x => { x with rng := g }
    match d.asuSite with
    | some a => d.wrAsuState a (BitVec.ofNat 64 g)
    | none => d

/-- A session switch to session i (R300, R371). -/
def State.sessionSwitch (s : State) (i : Nat) : State :=
  let s := s.sessionSave
  let s := s.onDev fun d =>
    let d := d.switchReset.trnSwitch
    let x := d.sess i
    let d := d.each (List.range 256) fun d site =>
      let t := min (d.fld F.CLU_ZSK_CTRL_THR_MIN site) (d.fld F.CLU_ZSK_CTRL_THR_MAX site)
      let d := if d.fld F.CLU_ZSK_STATUS_THR_CUR site = t then d else d.setF F.CLU_ZSK_STATUS_THR_CUR site t
      d.modClu site fun c => { c with asu := AsuStep.init, asuLast := if some site = d.asuSite then x.stepNo + 1 else 0 }
    match d.asuSite with
    | some a => d.setF F.CLU_ASU_CTRL_MODE a x.mode
    | none => d
  (s.sessionLoad i).onDev fun d => ((d.modSess i fun x => { x with state := 2 }).showSess i).showActive

/-- The domains that an access of the command engine waits for (R482). -/
def Dev.cmdWaits (d : Dev) (a : Nat) : List Nat := d.accessWaits 245 5 (d.place d.edgeSite a) a

/-- The domains that sleep under or on the way to a session's save area or an adapter copy: they are woken before it moves (R482). -/
def Dev.saveSleeps (d : Dev) (ss : List Nat) : List Nat :=
  ((ss.map fun i => (d.sess i).base) ++ d.adapter.map fun e => e.addr.toNat).flatMap d.cmdWaits

/-! Start (R354, R361, Table 9-13). -/

/-- Whether the lane of a command and its barrier let it start (R354, R543, R595). -/
def Dev.mayStart (d : Dev) (c : CmdS) : Bool :=
  let before := d.cmds.takeWhile fun x => x.seq != c.seq
  let op := ceOp c.entry
  let lane := if isSessOp op then before.all fun x => !isSessOp (ceOp x.entry)
    else if op = 0x10 then
      (before.all fun x => ceOp x.entry ≠ 0x10 || x.started) &&
        decide ((before.filter fun x => ceOp x.entry == 0x10 && x.started && x.ended.isNone).length < 8)
    else if op = 0x20 || op = 0x21 then before.all fun x => ceOp x.entry ≠ op
    else true
  lane && (!ceBarrier c.entry || before.isEmpty)

/-- The command of a SEQ that is accepted and not ended. -/
def Dev.cmdOf (d : Dev) (seq : Nat) : Option CmdS := d.cmds.find? fun c => c.seq == seq && c.ended.isNone

/-- The command of a SEQ that runs with one of the given opcodes. -/
def Dev.running (d : Dev) (seq op : Nat) : Option CmdS :=
  match d.cmdOf seq with
  | some c => if c.started && ceOp c.entry = op then some c else none
  | none => none

/-- COMMAND_START: a command starts on its lane. A session command first meets the role (Table 10-3), the state of its
session (Table 9-13) and, for an OPEN session, the session switch (R371), which waits while a swap window is open (R597) and for
the memory that it moves to wake (R482). -/
def execCommandStart (seq : BitVec 64) (s : State) : Host.Outcome State Fault Refusal :=
  let d := s.dev
  match d.cmdOf seq.toNat with
  | none => s.done s
  | some c =>
    let n := seq.toNat
    let op := ceOp c.entry
    let i := ceSess c.entry
    if c.started || !d.mayStart c || !d.flag F.CMD_CTRL_EN 0 then s.done s
    else if op ≠ 4 && ceDl c.entry && d.cmdNt > ceDeadline c.entry then s.done (s.onDev fun d => d.complete n 5 0 0)
    else if !isSessOp op then s.done (s.onDev fun d => d.startCmd n)
    else if d.role = 0 || d.role = 3 || d.role = 5 then s.done (s.onDev fun d => d.complete n 9 0 0)
    else if d.role = 4 then s.done (s.onDev fun d => d.complete n 0x0A 0 0)
    else if (decide (op = 1) == decide ((d.sess i).state ≠ 0)) then s.done (s.onDev fun d => d.complete n 4 0 0)
    else if (d.sess i).state = 1 && d.nwt.window then s.done s
    else
      match if (d.sess i).state = 1 then d.saveSleeps (d.activeSess.toList ++ [i]) else [] with
      | k :: ks => s.done (s.onDev fun d => d.demands (k :: ks))
      | [] =>
        let s' := if (d.sess i).state = 1 then s.sessionSwitch i else s
        s.done (s'.onDev fun d => d.startCmd n)

/-- COMMAND_DEADLINE: a command other than DECODE that has not started by its deadline completes with DEADLINE (R361). -/
def execCommandDeadline (seq : BitVec 64) (s : State) : Host.Outcome State Fault Refusal :=
  s.upd fun d =>
    match d.cmdOf seq.toNat with
    | some c =>
      if !c.started && ceOp c.entry ≠ 4 && ceDl c.entry && d.cmdNt ≥ ceDeadline c.entry then d.complete seq.toNat 5 0 0 else d
    | none => d

/-- CMD_NOP (Table 9-8). -/
def execCmdNop (seq : BitVec 64) (s : State) : Host.Outcome State Fault Refusal :=
  s.upd fun d => match d.running seq.toNat 0 with
    | some _ => d.complete seq.toNat 0 0 0
    | none => d

/-! Sessions (R356, R370). -/

/-- The parameters of a SESSION_OPEN are in range and overlap no other session's allocation (Table 9-8, Table 9-9). -/
def Dev.openOk (d : Dev) (i : Nat) (e : List Byte) : Bool :=
  let a := ceP e 0
  let len := bitsOf (ceP e 1) 0 40
  let t := bitsOf (ceP e 2) 32 32
  decide (0x100000000000 ≤ a ∧ a < 0x110000000000) && decide (len ≥ 0x400000) && decide (bitsOf (ceP e 1) 48 4 ≤ 2) &&
  decide (0 < t ∧ t ≤ 0x7F800000) &&
  (List.range 16).all fun j =>
    let x := d.sess j
    j == i || x.state == 0 || decide (a + len ≤ x.base ∨ x.base + x.len ≤ a)

/-- Whether a range lies in the populated memory of one HBM stack that serves accesses (R355). -/
def Dev.inHbm (d : Dev) (a len : Nat) : Bool :=
  decide (a / 0x1000000000 = (a + len - 1) / 0x1000000000) && d.place (fun _ => none) a == .mem a &&
    d.place (fun _ => none) (a + len - 1) == .mem (a + len - 1)

/-- The seed of a SESSION_OPEN (R218). -/
def ceSeed (e : List Byte) : Nat := if ceP e 3 = 0 then 0x9E3779B97F4A7C15 else ceP e 3

/-- SESSION_OPEN (Table 9-8): the context capacity is what the allocation holds past its save area. -/
def Dev.sessionOpen (d : Dev) (n : Nat) (e : List Byte) : Dev :=
  let i := ceSess e
  let a := ceP e 0
  let len := bitsOf (ceP e 1) 0 40
  if !d.openOk i e then d.complete n 3 0 0
  else if !d.inHbm a len then d.complete n 6 0 0
  else
    let fence := bitsOf (ceP e 1) 48 4
    let fence := if fence ≠ 0 then fence else if d.img (fun m => b2n m.fenceStrict) = 1 then 1 else 2
    let cap := (len - 0x400000) / d.img (fun m => m.kvBytes)
    let d := d.modSess i fun _ =>
      { SessS.init with state := 1, fence := fence, base := a, len := len, mode := bitsOf (ceP e 2) 0 2,
                        temp := bitsOf (ceP e 2) 32 32, cap := cap, params := [ceP e 0, ceP e 1, ceP e 2, ceP e 3], rng := ceSeed e }
    (d.showSess i).complete n 0 cap 0

/-- SESSION_OPEN: a session that opens finds its seed and the image's initial adapter in its save area (R224), whose memory is
woken first (R482). -/
def execSessionOpen (seq : BitVec 64) (s : State) : Host.Outcome State Fault Refusal :=
  match s.dev.running seq.toNat 1 with
  | none => s.done s
  | some c =>
    let e := c.entry
    let ok := s.dev.openOk (ceSess e) e && s.dev.inHbm (ceP e 0) (bitsOf (ceP e 1) 0 40)
    match if ok then s.dev.cmdWaits (ceP e 0) else [] with
    | k :: ks => s.done (s.onDev fun d => d.demands (k :: ks))
    | [] =>
      let s := if ok then s.put (ceP e 0) (s.dev.openBytes (ceSeed e)) else s
      s.done (s.onDev fun d => d.sessionOpen seq.toNat e)

/-- SESSION_CLOSE: the session is FREE and holds no allocation (R370, R371). -/
def execSessionClose (seq : BitVec 64) (s : State) : Host.Outcome State Fault Refusal :=
  s.upd fun d => match d.running seq.toNat 2 with
    | some c =>
      let i := ceSess c.entry
      (((d.modSess i fun x => { SessS.init with lastSeq := x.lastSeq }).showSess i).showActive).complete seq.toNat 0 0 0
    | none => d

/-! Decode (R361 to R363). -/

/-- Change the running DECODE. -/
def Dev.modDec (d : Dev) (f : DecodeS → DecodeS) : Dev := { d with dec := d.dec.map f }

/-- Complete the DECODE once its end is decided, no step runs and no token record waits. -/
def Dev.decodeTry (d : Dev) : Dev :=
  match d.dec with
  | none => d
  | some x =>
    match x.fin with
    | some (reason, st) => if !x.permit && x.waiting.isEmpty then d.complete x.seq st x.emitted reason else d
    | none => d

/-- Start a DECODE from its command entry, with its maximum and the index of its first token (R362, R522). -/
def Dev.decodeStart (d : Dev) (seq : Nat) (e : List Byte) (max base : Nat) : Dev :=
  let w := bitsOf (ceP e 0) 32 3
  let i := ceSess e
  let stops := [bitsOf (ceP e 2) 0 32, bitsOf (ceP e 2) 32 32, bitsOf (ceP e 3) 0 32, bitsOf (ceP e 3) 32 32].filter
    fun t => t ≠ 0xFFFFFFFF
  let full := (d.sess i).pos ≥ (d.sess i).cap
  let acc := match d.cmdOf seq with
    | some c => c.accAt
    | none => d.now
  let d : Dev := { d with dec := some (DecodeS.mk seq i (ceCid e) max w (bitOf (ceP e 0) 37) (bitsOf (ceP e 1) 0 32)
    (if ceDl e then some (ceDeadline e) else none) stops 0 false (d.sess i).stepNo 0 []
    (if full then some (4, 0) else if max = 0 then some (0, 0) else none) base acc none []) }
  let d := d.setF F.CMD_DL_MARGIN_LATE_RUN 0 0
  (d.mirrorSend 5 i (e ++ leBytes 8 seq)).decodeTry

/-- DECODE: a started DECODE begins its steps (Table 9-8). -/
def execDecode (seq : BitVec 64) (s : State) : Host.Outcome State Fault Refusal :=
  s.upd fun d =>
    match d.running seq.toNat 4 with
    | none => d
    | some c =>
      let e := c.entry
      let max := bitsOf (ceP e 0) 0 32
      if d.dec.isSome then d
      else if max = 0 || (bitsOf (ceP e 0) 32 3 ≠ 0 && d.img (fun m => b2n m.draftModel) = 0) then d.complete seq.toNat 3 0 0
      else d.decodeStart seq.toNat e max 0

/-- Whether the fence of the session lets the next permit go (R408): strict waits for the token records, relaxed until the STEP
record has been sent. -/
def Dev.permitFence (d : Dev) (x : DecodeS) : Bool :=
  if d.role ≠ 2 || d.syncSt ≠ 2 then true
  else if (d.sess x.session).fence = 1 then x.waiting.isEmpty
  else !d.pair.pending.any fun r => r.kind == 3 && r.session == x.session

/-- Whether a step permit may be granted (R362, R408, R412, R578). -/
def Dev.permitOk (d : Dev) (x : DecodeS) : Bool :=
  !x.permit && x.fin.isNone && decide (x.emitted < x.maxTok) && d.hrRoom 1 (x.waiting.length + 1) && d.permitFence x &&
    (d.role = 1 || d.role = 2) && !d.nwt.window && d.fld F.NWT_STATUS_STATE 0 ≠ 2 && d.flag F.CMD_CTRL_EN 0

/-- The permit message (R363). -/
def Dev.permitMsg (d : Dev) (step : Nat) : Dev :=
  let ep := d.injEpoch 245
  match d.mapSite 245 ep (d.fld F.CMD_STEP_CFG_PERMIT_LCLU 0) with
  | none => d
  | some site =>
    d.inject 245 5 (msgPackets 245 61 site 60 (ep = 1) 0 (d.fld F.CLU_MSG_CTRL_SGEN site) 1 4 (some 0) true
      (d.fld F.CMD_STEP_CFG_PERMIT_SEM 0) (d.fld F.CMD_STEP_CFG_PERMIT_CSM 0) false (leBytes 8 step)) (some .other)

/-- STEP_PERMIT (R362, R363). -/
def execStepPermit (s : State) : Host.Outcome State Fault Refusal :=
  s.upd fun d =>
    match d.dec with
    | none => d
    | some x =>
      if d.permitOk x then
        let n := x.stepNo + 1
        let d : Dev := { d with pair := { d.pair with freeStep := false } }
        (d.modDec fun x => { x with permit := true, stepNo := n }).permitMsg n
      else d

/-- Whether a step runs: its permit is out. -/
def Dev.stepRuns (d : Dev) : Bool :=
  match d.dec with
  | some x => x.permit
  | none => false

/-- The tokens of a STEP record. -/
def stepToks (body : List Byte) : List Nat := (List.range (byteAt body 17 + 1)).map fun i => leAt body (20 + 4 * i) 4

/-- Keep tokens up to and with the first stop token. -/
def untilStop (stops : List Nat) : List Nat → List Nat
  | [] => []
  | t :: ts => if stops.contains t then [t] else t :: untilStop stops ts

/-- The tokens of the running step arrived: the session position moves on, the STEP record goes to the mirror, and the
token record waits for its fence (R362, R403, R404). -/
def Dev.stepTokens (d : Dev) (x : DecodeS) (toks : List Nat) : Dev :=
  let se := d.sess x.session
  let ts := (untilStop x.stops toks).take (min (x.maxTok - x.emitted) (se.cap - se.pos))
  let stop := match ts.getLast? with
    | some t => x.stops.contains t
    | none => false
  let emitted := x.emitted + ts.length
  let pos := se.pos + ts.length
  let fin := if x.fin.isSome then x.fin
    else if stop then some (1, 0)
    else if emitted ≥ x.maxTok then some (0, 0)
    else if pos ≥ se.cap then some (4, 0)
    else none
  let g := match d.asuSite with
    | some a => (d.getR R.CLU_ASU_STATE a).toNat
    | none => se.rng
  let body := leBytes 8 se.pos ++ leBytes 1 ts.length ++ leBytes 1 (b2n stop + 2 * b2n fin.isSome) ++ zeros 2 ++
    leBytes 4 x.cid ++ leBytes 8 g ++ leBytes 8 d.cmdNt ++ ts.flatMap (leBytes 4)
  let d := d.mirrorSend 3 x.session body
  let m := if d.role = 2 then d.lastMseq else 0
  let d : Dev := if d.pair.freeStep then { d with pair := { d.pair with freeTo := m, freeStep := false } } else d
  let d := (d.modSess x.session fun y => { y with pos := pos, rng := g, stepNo := x.stepNo }).showSess x.session
  let r : TokRec := ⟨se.pos, ts, stop, false, x.cid, x.session, x.base + x.emitted, m, false⟩
  (d.modDec fun y => { y with permit := false, tmoRun := 0, emitted := emitted, fin := fin,
                              waiting := if ts.isEmpty then y.waiting else y.waiting ++ [r],
                              sent := y.sent ++ [(se.pos, m)] }).decodeTry

/-- STEP_RECORD: the command engine takes a STEP record of the running step, or discards it as bad (R221, R362, R363). -/
def execStepRecord (body : List Byte) (s : State) : Host.Outcome State Fault Refusal :=
  s.upd fun d =>
    if !d.unitTurn 245 4 body then d else
    let d := d.takeUnit 245 4 body
    match d.dec with
    | none => d.addSat F.CMD_STEP_CFG_BAD_RECORDS 0 1
    | some x =>
      if byteAt body 0 ≠ 0x26 || !x.permit || leAt body 4 4 ≠ x.stepNo % 2 ^ 32 then d.addSat F.CMD_STEP_CFG_BAD_RECORDS 0 1
      else if byteAt body 18 ≠ 0 then
        (d.modDec fun y =>
          { y with permit := false, tmoRun := y.tmoRun + 1,
                   fin := if y.fin.isSome then y.fin else if y.tmoRun + 1 ≥ 3 then some (5, 8) else none }).decodeTry
      else d.stepTokens x (stepToks body)

/-! Token records (R361, R368, R407, R524). -/

/-- Whether the emission fence lets a token record be written (R407). Records of steps that began before the pair was formed carry
no fence (R418). -/
def Dev.fenceOpen (d : Dev) (x : DecodeS) (r : TokRec) : Bool :=
  if d.role = 2 && d.syncSt = 2 && decide (r.mseq > d.pair.freeTo) then
    let acked := (d.getR R.CMD_PAIR_MSEQ 0).toNat
    if (d.sess r.session).fence = 1 then decide (r.mseq ≤ acked)
    else x.sent.all fun y => decide (y.1 + 2 ≥ r.pos + r.toks.length ∨ y.2 ≤ acked)
  else d.role ≠ 4

/-- A 32-bit number in two's complement. -/
def toS32 (v : Nat) : Int := if v < 2 ^ 31 then v else (v : Int) - 2 ^ 32

/-- The registers of R524 for a token record with a deadline, written at NT now. -/
def Dev.dlCount (d : Dev) (dl now : Nat) : Dev :=
  let m : Int := max (-(2 ^ 31)) (min (2 ^ 31 - 1) ((dl : Int) - now))
  let d := if m < toS32 (d.fld F.CMD_DL_MARGIN_MIN_MARGIN 0) then
      d.setF F.CMD_DL_MARGIN_MIN_MARGIN 0 (m % 2 ^ 32).toNat else d
  let d := d.addSat F.CMD_DL_MARGIN_DL_TOKENS 0 1
  if now > dl then d.addSat F.CMD_DL_MARGIN_LATE_RUN 0 1 else d.setF F.CMD_DL_MARGIN_LATE_RUN 0 0

/-- First-token time and token period (R524). -/
def Dev.stepTime (d : Dev) (x : DecodeS) (now : Nat) : Dev :=
  match x.lastRec with
  | none => d.setF F.CMD_STEP_TIME_FIRST_NS 0 (min (2 ^ 24 - 1) (now - x.accNt))
  | some t =>
    let p := now - t
    (d.setF F.CMD_STEP_TIME_LAST_16NS 0 (min 65535 (p / 16))).setF F.CMD_STEP_TIME_MAX_NS 0
      (max (d.fld F.CMD_STEP_TIME_MAX_NS 0) (min (2 ^ 24 - 1) p))

/-- Show LAG: the tokens written whose STEP records no MACK covers (Table 10-17). -/
def Dev.showTokLag (d : Dev) : Dev :=
  d.setF F.CMD_PAIR_STATUS_LAG 0 (min 65535 ((d.pair.lagToks.map fun x => x.2).sum))

/-- The payload of a token record (Table 9-12). -/
def tokBody (r : TokRec) (now : Nat) (late last : Bool) : List Byte :=
  leBytes 8 r.pos ++ leBytes 8 now ++ leBytes 4 r.cid ++ leBytes 1 r.toks.length ++
    leBytes 1 (b2n late + 2 * b2n last + 4 * b2n r.stop) ++ zeros 2 ++ r.toks.flatMap (leBytes 4)

/-- Write a token record (R361, R368, R522, R524). -/
def Dev.putToken (d : Dev) (x : DecodeS) (r : TokRec) : Dev :=
  let now := d.cmdNt
  let dl (k : Nat) : Nat := x.deadline.getD 0 + k * x.interval
  let lates := if r.resent || x.deadline.isNone then 0
    else ((List.range r.toks.length).filter fun i => decide (now > dl (r.k0 + i))).length
  let late := decide (lates > 0)
  -- the DECODE ends after this step: a permit that is out already is withdrawn (R361, assumption 137)
  let stop := late && x.stopLate && x.fin ≠ some (2, 1)
  let fin := if stop then some (3, 5) else x.fin
  let permit := x.permit && !stop
  let last := !r.resent && fin.isSome && !permit && x.waiting.length ≤ 1
  let d := d.hrPut 1 (recHdr 2 r.session (24 + 4 * r.toks.length) ++ tokBody r now late (last || r.last))
  let d := if r.resent then d else d.stepTime x d.now
  let d := if r.resent || x.deadline.isNone then d else d.dlCount (dl r.k0) now
  let d := if late then (d.addSat F.CMD_STATUS_LATE 0 lates).record (evU bCMD 0) 1 1 0 else d
  let d : Dev := if d.role = 2 && decide (r.mseq > (d.getR R.CMD_PAIR_MSEQ 0).toNat) then
      { d with pair := { d.pair with lagToks := d.pair.lagToks ++ [(r.mseq, r.toks.length)] } } else d
  let d := d.showTokLag
  let d := (d.modSess r.session fun y => { y with lastNt := now, stepNo := if stop then x.stepNo else y.stepNo }).showSess r.session
  (d.modDec fun y => { y with waiting := y.waiting.drop 1, fin := fin, permit := permit,
                              lastRec := if r.resent then y.lastRec else some d.now }).decodeTry

/-- TOKEN_RECORD: the oldest waiting token record is written once its fence releases (R368, R407). -/
def execTokenRecord (s : State) : Host.Outcome State Fault Refusal :=
  s.upd fun d =>
    match d.dec with
    | none => d
    | some x =>
      match x.waiting with
      | [] => d
      | r :: _ => if d.fenceOpen x r then d.putToken x r else d

/-! CANCEL (R359). -/

/-- What CANCEL does to its target, and its RESULT0. -/
def Dev.cancelTarget (d : Dev) (t : CmdS) : Dev × Nat :=
  if !t.started then (d.complete t.seq 1 0 (if ceOp t.entry = 4 then 2 else 0), 1)
  else if ceOp t.entry = 4 then
    match d.dec with
    | some x => if x.seq = t.seq then ((d.modDec fun y => { y with fin := some (2, 1) }).decodeTry, 1) else (d, 0)
    | none => (d.complete t.seq 1 0 2, 1)
  else if ceOp t.entry = 0x10 then (d.modCmd t.seq fun x => { x with cancelled := true }, 1)
  else (d, 0)

/-- CANCEL. -/
def execCancel (seq : BitVec 64) (s : State) : Host.Outcome State Fault Refusal :=
  s.upd fun d =>
    match d.running seq.toNat 5 with
    | none => d
    | some c =>
      match d.cmdOf (ceP c.entry 0) with
      | none => d.complete seq.toNat 0 0 0
      | some t =>
        let (d, r) := d.cancelTarget t
        d.complete seq.toNat 0 r 0

end Sys2Proof.Machine
end

