-- ==== Sys2Proof/Machine/Pair.lean ====
section
/-! DEFINITION. The redundant pair (spec/10_links_and_pairs.md R401 to R422): the mirror stream, beats, fencing, takeover and
resync, and the blocks that arrive on a link. -/

namespace Sys2Proof.Machine

/-- Change what the pair holds. -/
def Dev.modPair (d : Dev) (f : PairS → PairS) : Dev := { d with pair := f d.pair }

/-- IMAGE_ROLE (Table 10-16). -/
def Dev.imageRole (d : Dev) : Nat := d.fld F.CMD_PAIR_CTRL_IMAGE_ROLE 0

/-- Set role and SYNC; JNL_STATUS.MIRROR reads 1 in role LEAD (R376). -/
def Dev.setRole (d : Dev) (role sync : Nat) : Dev :=
  ((d.setF F.CMD_PAIR_STATUS_ROLE 0 role).setF F.CMD_PAIR_STATUS_SYNC 0 sync).setB F.JNL_STATUS_MIRROR 0 (role == 2)

/-- What waits for the mirror goes on without it: completions are written, nothing is held (R367, assumption 26). -/
def Dev.dropMirror (d : Dev) : Dev :=
  let done := d.cmds.filter fun c => c.ended.isSome
  let d := d.modPair fun p => { p with held := [], pending := [], lagToks := [] }
  let d : Dev := { d with jwait := [] }
  let d := d.each done fun d c => match c.ended with
    | some (st, r0, r1) => d.completeOut c st r0 r1
    | none => d
  d.showLag.showTokLag

/-- A lead becomes SOLO (R413). -/
def Dev.leadSolo (d : Dev) : Dev := ((d.setRole 1 0).dropMirror).record (evU bCMD 0) 6 1 0

/-! The mirror applies records (R406). -/

/-- Send a MACK on every MIRROR link that is UP. -/
def Dev.sendMack (d : Dev) : Dev :=
  d.each d.mirrorLinks fun d l => d.quietOut l (.mack (d.getR R.CMD_PAIR_MSEQ 0))

/-- A SESSION record (Table 10-6): the status block, and the allocation and sampling parameters from P0 to P2. -/
def Dev.applySession (d : Dev) (i : Nat) (b : List Byte) : Dev :=
  let st := leAt b 0 1
  let d := if st = 0 then d.modSess i fun _ => { SessS.init with lastSeq := leAt b 24 8 }
    else d.modSess i fun x =>
      { state := st, fence := leAt b 1 1, base := leAt b 64 8, len := bitsOf (leAt b 72 8) 0 40,
        mode := bitsOf (leAt b 80 8) 0 2, temp := bitsOf (leAt b 80 8) 32 32, pos := leAt b 8 8, cap := leAt b 16 8,
        lastSeq := leAt b 24 8, lastNt := leAt b 32 8, params := (List.range 4).map fun k => leAt b (64 + 8 * k) 8,
        rng := if x.state = 0 then (if leAt b 88 8 = 0 then 0x9E3779B97F4A7C15 else leAt b 88 8) else x.rng,
        stepNo := x.stepNo }
  (d.showSess i).showActive

/-- A STEP record (Table 10-6): position and generator state of the session, and the tokens counted for its DECODE. -/
def Dev.applyStep (d : Dev) (i : Nat) (b : List Byte) : Dev :=
  let n := leAt b 8 1
  let d := d.modSess i fun x => { x with pos := leAt b 0 8 + n, rng := leAt b 16 8, lastNt := leAt b 24 8 }
  (d.modPair fun p => { p with mirStep := some (i, b), mirCmd := p.mirCmd.map fun c => (c.1, c.2 + n) }).showSess i

/-- A JOURNAL record (R376): stored at the offset of its SEQ. A final version of the running DECODE ends it. SEQs that this
device assigns later follow it (assumption 27). -/
def Dev.applyJournal (d : Dev) (e : List Byte) : Dev :=
  let seq := leAt e 0 8
  let d := d.putJ (jnlOff seq) e
  let d := if (d.getR R.JNL_NEXT_SEQ 0).toNat ≤ seq then d.setR R.JNL_NEXT_SEQ 0 (BitVec.ofNat 64 (seq + 1)) else d
  match d.pair.mirCmd with
  | some c => if leAt c.1 64 8 = seq && leAt e 14 1 ≠ 0xFF then d.modPair fun p => { p with mirCmd := none } else d
  | none => d

/-- A WRITE record: written to the same address; outside every allocation it is discarded and counted (R406). -/
def State.applyWrite (s : State) (b : List Byte) : State :=
  let a := leAt b 0 8
  if (s.dev.allocOf a).isSome then s.put a (b.drop 8) else s.onDev fun d => d.modPair fun p => { p with ignored := p.ignored + 1 }

/-- A SESSION record in memory: a session that opens finds its save area as at its SESSION_OPEN (R224; assumption 25). -/
def State.applyOpen (s : State) (i : Nat) (b : List Byte) : State :=
  if (s.dev.sess i).state = 0 && leAt b 0 1 ≠ 0 then
    s.put (leAt b 64 8) (s.dev.openBytes (if leAt b 88 8 = 0 then 0x9E3779B97F4A7C15 else leAt b 88 8))
  else s

/-- A STEP record in memory: the generator state is kept for takeover where a session switch takes it from (R406). -/
def State.applyRng (s : State) (i : Nat) (b : List Byte) : State :=
  if (s.dev.sess i).state = 0 then s else s.put (s.dev.sess i).base (takeZ 8 (b.drop 16))

/-- Apply one record: kinds of Table 10-6. -/
def State.applyRec (s : State) (mseq kind i : Nat) (b : List Byte) : State :=
  let s := s.onDev fun d => d.setR R.CMD_PAIR_MSEQ 0 (BitVec.ofNat 64 mseq)
  if kind = 1 then s.applyWrite b
  else if kind = 2 then s.onDev fun d => (d.applyJournal (takeZ 64 b)).sendMack
  else if kind = 3 then (s.applyRng i b).onDev fun d => (d.applyStep i b).sendMack
  else if kind = 4 then (s.applyOpen i b).onDev fun d => (d.applySession i b).sendMack
  else if kind = 5 then s.onDev fun d => d.modPair fun p => { p with mirCmd := some (takeZ 80 b, leAt b 72 4) }
  else s

/-- Apply waiting records that are next in order, at most n. -/
def State.applyWaiting (s : State) : Nat → State
  | 0 => s
  | n + 1 =>
    let nx := (s.dev.getR R.CMD_PAIR_MSEQ 0).toNat + 1
    match s.dev.pair.pending.find? fun r => r.mseq == nx with
    | none => s
    | some r =>
      let s := s.onDev fun d => d.modPair fun p => { p with pending := p.pending.filter fun x => x.mseq != nx }
      (s.applyRec r.mseq r.kind r.session r.body).applyWaiting n

/-- A mirror record that arrived: only a mirror that received START applies records, in MSEQ order; one applied already is
discarded, a later one waits (R406, R419). -/
def State.mirrorIn (s : State) (mseq kind session : Nat) (body : List Byte) : State :=
  let d := s.dev
  let at_ := (d.getR R.CMD_PAIR_MSEQ 0).toNat
  if d.role ≠ 3 || !d.pair.started || mseq ≤ at_ then s
  else
    let s := if mseq = at_ + 1 then s.applyRec mseq kind session body
      else if d.pair.pending.any fun r => r.mseq == mseq then s
      else s.onDev fun d => d.modPair fun p => { p with pending := p.pending ++ [MirRec.mk mseq 0 kind session body] }
    let s := s.applyWaiting s.dev.pair.pending.length
    let at2 := (s.dev.getR R.CMD_PAIR_MSEQ 0).toNat
    s.onDev fun d => d.modPair fun p =>
      { p with gapAt := if p.pending.isEmpty then none else if at2 = at_ && p.gapAt.isSome then p.gapAt else some d.now }

/-- MIRROR_WRITE (R406). -/
def execMirrorWrite (mseq : BitVec 64) (addr : BitVec 48) (data : List Byte) (s : State) :
    Host.Outcome State Fault Refusal := s.done (s.mirrorIn mseq.toNat 1 0 (leBytes 8 addr.toNat ++ data))

/-- MIRROR_JOURNAL (R406). -/
def execMirrorJournal (mseq : BitVec 64) (entry : List Byte) (s : State) : Host.Outcome State Fault Refusal :=
  s.done (s.mirrorIn mseq.toNat 2 0 entry)

/-- MIRROR_STEP (R406). -/
def execMirrorStep (mseq : BitVec 64) (session : Fin 16) (body : List Byte) (s : State) :
    Host.Outcome State Fault Refusal := s.done (s.mirrorIn mseq.toNat 3 session.val body)

/-- MIRROR_SESSION (R406). -/
def execMirrorSession (mseq : BitVec 64) (session : Fin 16) (body : List Byte) (s : State) :
    Host.Outcome State Fault Refusal := s.done (s.mirrorIn mseq.toNat 4 session.val body)

/-- MIRROR_COMMAND (R406). -/
def execMirrorCommand (mseq : BitVec 64) (session : Fin 16) (body : List Byte) (s : State) :
    Host.Outcome State Fault Refusal := s.done (s.mirrorIn mseq.toNat 5 session.val body)

/-- MSEQ_GAP: a gap that persisted for 200 µs makes the mirror STALE (R406). -/
def execMseqGap (s : State) : Host.Outcome State Fault Refusal :=
  s.upd fun d => if d.role = 3 && d.pair.gapAt.isSome then d.stale else d

/-- MACK_INTERVAL: a mirror that applies records sends a MACK at least every 1 µs (R406). -/
def execMackInterval (s : State) : Host.Outcome State Fault Refusal :=
  s.upd fun d => if d.role = 3 && d.pair.started then d.sendMack else d

/-! MACK at the lead (R376, R405, R407, R418). -/

/-- A journal version that the mirror acknowledged: MIRRORED while no later version of the entry waits; a final version
lets its command complete (R367, R376). -/
def Dev.jnlAcked (d : Dev) (w : JnlWait) : Dev :=
  let d := if d.jwait.any fun x => x.seq == w.seq then d
    else
      let e := d.jnlGet w.seq
      d.putJ (jnlOff w.seq) (patch e 15 (leBytes 1 (leAt e 15 1 / 2 * 2 + 1)))
  if !w.final then d
  else
    let d := if (d.getR R.JNL_MIRROR_SEQ 0).toNat < w.seq then d.setR R.JNL_MIRROR_SEQ 0 (BitVec.ofNat 64 w.seq) else d
    match d.cmds.find? fun c => c.seq == w.seq with
    | none => d
    | some c => match c.ended with
      | some (st, r0, r1) => d.completeOut c st r0 r1
      | none => d

/-- When MACKs cover every record of the resync, the lead sends DONE and the pair is formed (R418). -/
def Dev.resyncTry (d : Dev) : Dev :=
  if d.role = 2 && d.syncSt = 1 && decide (d.pair.resyncTo ≤ (d.getR R.CMD_PAIR_MSEQ 0).toNat) then
    match d.mirrorLinks with
    | l :: _ =>
      ((d.linkItem l (.resync 2 (BitVec.ofNat 32 d.term))).setF F.CMD_PAIR_STATUS_SYNC 0 2).modPair fun p =>
        { p with freeTo := d.lastMseq, freeStep := d.stepRuns }
    | [] => d
  else d

/-- A MACK that a lead received (R405). -/
def Dev.mackIn (d : Dev) (mseq : Nat) : Dev :=
  let m := min mseq d.lastMseq
  if d.role ≠ 2 || m ≤ (d.getR R.CMD_PAIR_MSEQ 0).toNat then d
  else
    let d := d.setR R.CMD_PAIR_MSEQ 0 (BitVec.ofNat 64 m)
    let d := d.modPair fun p => { p with held := p.held.filter fun r => decide (r.mseq > m),
                                         lagToks := p.lagToks.filter fun x => decide (x.1 > m) }
    let acked := d.jwait.filter fun w => decide (w.mseq ≤ m)
    let d : Dev := { d with jwait := d.jwait.filter fun w => decide (w.mseq > m) }
    let d := d.each acked fun d w => d.jnlAcked w
    let d := d.modDec fun x => { x with sent := x.sent.filter fun y => decide (y.2 > m) }
    (d.showLag.showTokLag.mirrorPump d.pair.pending.length).resyncTry

/-- MACK. -/
def execMack (l : Fin 48) (mseq : BitVec 64) (s : State) : Host.Outcome State Fault Refusal :=
  s.upd fun d => if d.fld F.LNK_CTRL_ROLE l.val = 1 then d.mackIn mseq.toNat else d

/-! Takeover (R415). -/

/-- Rewrite every journal entry still PENDING with a lower TERM as FENCED. -/
def Dev.fenceJournal (d : Dev) : Dev :=
  d.each (List.range 65536) fun d i =>
    let e := d.getJ (0x800000 + 64 * i) 64
    if leAt e 14 1 = 0xFF && leAt e 0 8 ≠ 0 && leAt e 56 4 < d.term then
      d.putJ (0x800000 + 64 * i) (jnlFinal e 0x0A d.cmdNt 0 d.term)
    else d

/-- Write the token record of the last STEP record applied, with LATE 0 (Table 10-7 step 3, R522). -/
def Dev.resend (d : Dev) : Dev :=
  match d.pair.mirStep with
  | none => d
  | some (i, b) =>
    let n := leAt b 8 1
    let r : TokRec := ⟨leAt b 0 8, (List.range n).map fun k => leAt b (32 + 4 * k) 4, bitOf (leAt b 9 1) 0, bitOf (leAt b 9 1) 1,
      leAt b 12 4, i, 0, 0, true⟩
    let d := d.hrPut 1 (recHdr 2 i (24 + 4 * n) ++ tokBody r d.cmdNt false r.last)
    (d.modSess i fun y => { y with lastNt := d.cmdNt }).showSess i

/-- Accept the running DECODE again from its COMMAND record (Table 10-7 step 4, R522). -/
def Dev.reaccept (d : Dev) : Dev :=
  match d.pair.mirCmd with
  | none => d
  | some (b, n) =>
    let e := b.take 64
    let mx := bitsOf (ceP e 0) 0 32 - n
    let seq := (d.getR R.JNL_NEXT_SEQ 0).toNat
    let d := (d.accept (patch e 16 (leBytes 4 mx))).startCmd seq
    match d.cmdOf seq with
    | some c => d.decodeStart seq c.entry mx (leAt b 76 4 + n)
    | none => d

/-- The session switch of a takeover, the token record that is resent and the DECODE that is accepted again (Table 10-7 steps 2 to
4). -/
def State.takeoverRest (s : State) : State :=
  let s := match (List.range 16).find? fun i => (s.dev.sess i).state == 2 with
    | none => s
    | some i => (s.onDev fun d => d.modSess i fun x => { x with state := 1 }).sessionSwitch i
  s.onDev fun d => (d.resend.reaccept).modPair fun p => { p with mirCmd := none, mirStep := none, takeWait := false }

/-- A mirror takes over (R415): Table 10-7. An open swap window completes before the session switch (R597, R609). -/
def State.takeover (s : State) : State :=
  let s := s.onDev fun d =>
    let d := ((d.setF F.CMD_PAIR_STATUS_TERM 0 (d.term + 1)).setRole 1 0).record (evU bCMD 0) 5 0 0
    (d.modPair fun p => { p with pending := [], gapAt := none, started := false, reqAt := none }).fenceJournal
  if s.dev.nwt.window then s.onDev fun d => d.modPair fun p => { p with takeWait := true } else s.takeoverRest

/-- A mirror whose partner is gone takes over when the pair is formed, and else becomes STALE (R411). -/
def State.succeed (s : State) : State := if s.dev.syncSt = 2 then s.takeover else s.onDev Dev.stale

/-! Resync (R418, R419). -/

/-- Send WRITE records for bytes of memory. -/
def State.streamMem (s : State) (i a : Nat) (bs : List Byte) : State :=
  s.onDev fun d => d.each (captureCut (bs.length / 2024 + 1) a bs) fun d x => d.mirrorSend 1 i (leBytes 8 x.1 ++ x.2)

/-- The COMMAND record of a running DECODE that a resync streams: behind the body of Table 10-6, the tokens recorded for the entry
and those of the original DECODE before it, from which R522 counts on (assumption 141). -/
def commandBody (c : CmdS) (x : DecodeS) : List Byte :=
  c.entry ++ leBytes 8 x.seq ++ (if x.base + x.emitted = 0 then [] else leBytes 4 x.emitted ++ leBytes 4 x.base)

/-- Stream the JOURNAL record of a SEQ; its MACK sets MIRRORED (R376, R418). -/
def Dev.jnlStream (d : Dev) (n : Nat) : Dev :=
  let e := d.jnlGet n
  let d := d.mirrorSend 2 0 e
  { d with jwait := d.jwait ++ [JnlWait.mk d.lastMseq n (decide (leAt e 14 1 ≠ 0xFF)) false] }

/-- Answer a REQUEST with START and stream the state (R418): SESSION records, WRITE records of every session's allocation
up to its position, COMMAND records and JOURNAL records. -/
def State.resyncStart (s : State) (l : Nat) : State :=
  let s := s.onDev fun d =>
    let d := ((d.setRole 2 1).dropMirror).modDec fun x => { x with waiting := x.waiting.map fun r => { r with mseq := 0 }, sent := [] }
    let d := d.modPair fun p => { p with nextMseq := 1, resyncTo := 2 ^ 64, freeTo := 0, freeStep := false }
    (d.setR R.CMD_PAIR_MSEQ 0 0).linkItem l (.resync 1 (BitVec.ofNat 32 d.term))
  let ss := List.range 16
  let s := s.onDev fun d => d.each ss fun d i =>
    d.mirrorSend 4 i (takeZ 96 (sessBlock (d.sess i) ++ ((d.sess i).params.flatMap (leBytes 8))))
  let s := s.each ss fun s i =>
    let x := s.dev.sess i
    if x.state = 0 then s
    else s.streamMem i x.base (s.get x.base ((min x.len (0x400000 + x.pos * s.dev.img (fun m => m.kvBytes)) + 7) / 8 * 8))
  s.onDev fun d =>
    let d := match d.dec with
      | some x => match d.cmdOf x.seq with
        | some c => d.mirrorSend 5 x.session (commandBody c x)
        | none => d
      | none => d
    let next := (d.getR R.JNL_NEXT_SEQ 0).toNat
    let d := d.each ((List.range (min 65536 (next - 1))).map fun k => next - min 65536 (next - 1) + k) fun d n =>
      d.jnlStream n
    (d.showLag.modPair fun p => { p with resyncTo := d.lastMseq }).resyncTry

/-- A RESYNC REQUEST that arrived (R418, R419): a SOLO device answers by its image role. -/
def State.resyncReq (s : State) (l : Nat) : State :=
  let d := s.dev
  if d.role = 2 || (d.role = 1 && d.imageRole ≠ 0) then s.resyncStart l else s

/-- RESYNC_REQUEST. -/
def execResyncRequest (l : Fin 48) (_term : BitVec 32) (s : State) : Host.Outcome State Fault Refusal :=
  s.done (if s.dev.fld F.LNK_CTRL_ROLE l.val = 1 then s.resyncReq l.val else s)

/-- A mirror that waits for START begins to apply records (R418, R419). -/
def Dev.resyncBegin (d : Dev) (term : Nat) : Dev :=
  if d.role = 3 && d.pair.reqAt.isSome then
    let d := (d.setF F.CMD_PAIR_STATUS_TERM 0 term).setF F.CMD_PAIR_STATUS_SYNC 0 1
    (d.setR R.CMD_PAIR_MSEQ 0 0).modPair fun p =>
      { p with started := true, reqAt := none, pending := [], gapAt := none, mirCmd := none, mirStep := none }
  else d

/-- RESYNC_START. -/
def execResyncStart (l : Fin 48) (term : BitVec 32) (s : State) : Host.Outcome State Fault Refusal :=
  s.upd fun d => if d.fld F.LNK_CTRL_ROLE l.val = 1 then d.resyncBegin term.toNat else d

/-- The mirror of a formed pair takes its clusters that rest deeper than Idle out of it (R417). -/
def Dev.holdIdle (d : Dev) : Dev :=
  d.each ((List.range 256).filter fun n => decide ((d.dom n).level ≥ 2) || decide ((d.dom n).entering.getD 0 ≥ 2)) fun d n => d.demand n false

/-- A syncing mirror that receives DONE considers the pair formed (R418). -/
def Dev.resyncEnd (d : Dev) : Dev :=
  if d.role = 3 && d.pair.started then (d.setF F.CMD_PAIR_STATUS_SYNC 0 2).holdIdle else d

/-- RESYNC_DONE. -/
def execResyncDone (l : Fin 48) (_term : BitVec 32) (s : State) : Host.Outcome State Fault Refusal :=
  s.upd fun d => if d.fld F.LNK_CTRL_ROLE l.val = 1 then d.resyncEnd else d

/-- RESYNC_NO_START: a requesting mirror that received no START within JOIN_WAIT becomes STALE (R419). -/
def execResyncNoStart (s : State) : Host.Outcome State Fault Refusal :=
  s.upd fun d =>
    if d.role = 3 && d.pair.reqAt.isSome then (d.modPair fun p => { p with reqAt := none }).stale else d

/-! Beats (R402, R409 to R413). -/

/-- The package power estimate in W as binary32 (Table 10-2). -/
def Dev.estW (d : Dev) : Nat := bits32 (Num.div (Num.ofInt (d.pwr.hist.headD 0)) (Num.ofInt 1000)).1

/-- A BEAT item of this device. -/
def Dev.beatItem (d : Dev) (echo : Bool) (ans : Nat) : LinkItem :=
  .beat (BitVec.ofNat 8 d.role) echo (BitVec.ofNat 8 d.syncSt) (BitVec.ofNat 32 d.term) (BitVec.ofNat 32 d.pair.beatNo)
    (BitVec.ofNat 32 ans) (BitVec.ofNat 32 d.estW) (BitVec.ofNat 64 d.cmdNt) (BitVec.ofNat 8 d.imageRole)

/-- The SPAN links that are UP. -/
def Dev.spanLinks (d : Dev) : List Nat := (List.range 48).filter fun l => d.fld F.LNK_CTRL_ROLE l == 2 && d.linkIsUp l

/-- Whether a device is silent: in FAILSAFE (R608), in Off, and in Sleep and Deep sleep as neither lead nor mirror (R602). -/
def Dev.silent (d : Dev) : Bool :=
  d.failsafed || d.pstate = 4 || (d.pstate ≥ 2 && d.role ≠ 2 && d.role ≠ 3)

/-- BEAT_TIMER: every 5 µs a device sends BEATs, and by role a LIVE or NOFAIL pulse (R409). A mirror sends them on SPAN
links only (assumption 28). A silent device sends nothing. -/
def execBeatTimer (s : State) : Host.Outcome State Fault Refusal :=
  s.upd fun d => if d.silent then d else
    let d := d.modPair fun p => { p with beatNo := (p.beatNo + 1) % 2 ^ 32 }
    let ls := (if d.role = 3 then [] else d.mirrorLinks) ++ d.spanLinks
    let d := d.each ls fun d l => d.quietOut l (d.beatItem false 0)
    if d.role = 2 then d.emit (.pulse true) else if d.role = 1 || d.role = 5 then d.emit (.pulse false) else d

/-- Count what R410 ignores; HB_FLOOD when the sum crosses 256 (R410, Table 10-9). -/
def Dev.pairIgn (d : Dev) (pulse : Bool) : Dev :=
  let sum (d : Dev) := d.fld F.CMD_PAIR_IGN_PULSES 0 + d.fld F.CMD_PAIR_IGN_BEATS 0
  let d' := if pulse then d.addSat F.CMD_PAIR_IGN_PULSES 0 1 else d.addSat F.CMD_PAIR_IGN_BEATS 0 1
  if sum d < 256 && sum d' ≥ 256 then d'.record (evU bCMD 0) 3 0 0 else d'

/-- No session is open: a pair of two WAITING devices is formed with none (R402). -/
def Dev.dropSessions (d : Dev) : Dev :=
  (d.each ((List.range 16).filter fun i => decide ((d.sess i).state ≠ 0)) fun d i =>
    (d.modSess i fun x => { SessS.init with lastSeq := x.lastSeq }).showSess i).showActive

/-- A WAITING device hears a beat (R402). -/
def Dev.waitingBeat (d : Dev) (l role term image : Nat) : Dev :=
  let d := d.modPair fun p => { p with waitDone := true }
  if role = 1 || role = 2 then
    let d := (d.setRole 3 0).setF F.CMD_PAIR_STATUS_TERM 0 term
    (d.modPair fun p => { p with reqAt := some d.now, started := false, pending := [], gapAt := none }).linkItem l
      (.resync 0 (BitVec.ofNat 32 term))
  else if role = 0 && image ≠ d.imageRole then
    let d := (d.setF F.CMD_PAIR_STATUS_TERM 0 (max d.term term)).dropSessions
    if d.imageRole = 1 then
      ((d.setRole 2 2).setR R.CMD_PAIR_MSEQ 0 0).modPair fun p => { p with nextMseq := 1, held := [], pending := [], freeTo := 0, freeStep := false }
    else if d.imageRole = 2 then
      (((d.setRole 3 2).setR R.CMD_PAIR_MSEQ 0 0).modPair fun p =>
        { p with started := true, pending := [], gapAt := none, reqAt := none, mirCmd := none, mirStep := none }).holdIdle
    else d.setRole 1 0
  else if role = 0 && !d.pair.configRaised then
    (d.modPair fun p => { p with configRaised := true }).record (evU bCMD 0) 9 1 0
  else d

/-- What an accepted beat on a MIRROR link does (R402, R409, R411, R413). -/
def State.beatAct (s : State) (l role : Nat) (echo : Bool) (term num power image : Nat) : State :=
  let d := s.dev
  if d.failsafed then s
  else if d.role = 0 then s.onDev fun d => d.waitingBeat l role term image
  else if d.role = 2 then (if role = 5 then s.onDev Dev.leadSolo else s)
  else if d.role = 3 then
    let s := s.onDev fun d => { d with pwr := { d.pwr with leadEst := power } }
    if role = 4 && term = d.term then s.succeed
    else if !echo && role = 2 then s.onDev fun d => d.quietOut l (d.beatItem true num)
    else s
  else s

/-- A BEAT item arrives on a link (R410): too soon after the last, with a lower TERM, or an echo of no recent beat, it is
ignored, which a MIRROR link counts. -/
def State.beatIn (s : State) (l : Nat) (i : LinkItem) : State :=
  match i with
  | .beat role echo _ term num ans power _ image =>
    let d := s.dev
    let mirror := d.fld F.LNK_CTRL_ROLE l = 1
    let t := sget d.pair.lastBeat 0 l
    let soon := t ≠ 0 && d.now + 1 < t + 2500
    let stale := d.role = 2 && echo && mirror &&
      decide ((d.pair.beatNo + 2 ^ 32 - ans.toNat) % 2 ^ 32 ≥ 4)
    if soon || term.toNat < d.term || stale then (if mirror then s.onDev fun d => d.pairIgn false else s)
    else
      let s := s.onDev fun d =>
        let d := d.modPair fun p => { p with lastBeat := sset p.lastBeat 0 l (d.now + 1) }
        d.setF F.LNK_STATUS_FAR_ROLE l role.toNat
      if !mirror then s
      else
        let s := s.onDev fun d => (d.modPair fun p => { p with linkAt := some d.now }).setF F.CMD_PAIR_STATUS_FAR_ROLE 0 role.toNat
        s.beatAct l role.toNat echo term.toNat num.toNat power.toNat image.toNat
  | _ => s

/-- BEAT. -/
def execBeat (l : Fin 48) (i : LinkItem) (s : State) : Host.Outcome State Fault Refusal :=
  s.done (if s.dev.linkIsUp l.val then s.beatIn l.val i else s)

/-- HBT_IN_PULSE: a pulse of a width in ns (R409, R410, R413). -/
def execHbtInPulse (width : Nat) (s : State) : Host.Outcome State Fault Refusal :=
  s.upd fun d =>
    let live := decide (50 ≤ width ∧ width ≤ 200)
    let nofail := decide (300 ≤ width ∧ width ≤ 600)
    let soon := match d.pair.wireAt with
      | some t => decide (d.now < t + 2500)
      | none => false
    if soon || !(live || nofail) then d.pairIgn true
    else
      let d := d.modPair fun p => { p with wireAt := some d.now }
      if live then (if d.role = 3 then d.emit (.pulse true) else d)
      else if d.role = 2 then d.leadSolo
      else if d.role = 3 then d.stale
      else d

/-- Time since an NT in ns, saturated; without one the largest value (assumption 29). -/
def Dev.ageOf (d : Dev) (t : Option Nat) : Nat := match t with
  | some t => min 0xFFFFFFFF (d.now - t)
  | none => 0xFFFFFFFF

/-- AGE_CHECK: the beat ages are evaluated (R411); FAR_ROLE reads 7 after 15 µs without a beat. -/
def execAgeCheck (s : State) : Host.Outcome State Fault Refusal :=
  let s := s.onDev fun d =>
    let a := d.ageOf d.pair.linkAt
    let w := d.ageOf d.pair.wireAt
    let d := (d.setF F.CMD_PAIR_AGE_LINK 0 a).setF F.CMD_PAIR_AGE_WIRE 0 w
    let d := if a ≥ 15000 then d.setF F.CMD_PAIR_STATUS_FAR_ROLE 0 7 else d
    d.each (List.range 48) fun d l => if d.linkFar l = 7 && d.fld F.LNK_STATUS_FAR_ROLE l ≠ 7 then
      d.setF F.LNK_STATUS_FAR_ROLE l 7 else d
  let a := s.dev.ageOf s.dev.pair.linkAt
  let w := s.dev.ageOf s.dev.pair.wireAt
  s.done (if s.dev.role = 2 && a ≥ 30000 && w ≥ 30000 then s.onDev Dev.fence
    else if s.dev.role = 3 && a ≥ 40000 && w ≥ 40000 then s.succeed
    else s)

/-- JOIN_WAIT_EXPIRY: no BEAT came; a device whose image role is lead becomes SOLO (R402). -/
def execJoinWaitExpiry (s : State) : Host.Outcome State Fault Refusal :=
  s.upd fun d => if d.role = 0 && !d.failsafed && !d.pair.waitDone && d.imageRole = 1 then d.setRole 1 0 else d

/-- MLINK_TMO: no MIRROR link has been UP for MLINK_TMO; a lead becomes SOLO (R413). -/
def execMlinkTmo (s : State) : Host.Outcome State Fault Refusal :=
  s.upd fun d => if d.role = 2 && d.mirrorLinks.isEmpty then d.leadSolo else d

/-! The host's writes (Table 10-16). -/

/-- FENCE: a planned switchover (R412). -/
def Dev.pairFence (d : Dev) : Dev := if d.role = 2 then d.fence else d

/-- PAIR_FENCE. -/
def execPairFence (s : State) : Host.Outcome State Fault Refusal := s.upd Dev.pairFence

/-- JOIN takes a FENCED, STALE or SOLO device to WAITING (R418). -/
def Dev.pairJoin (d : Dev) : Dev :=
  if d.role = 4 || d.role = 5 || d.role = 1 then
    (d.setRole 0 0).modPair fun p => { p with waitDone := false, configRaised := false, reqAt := none, started := false }
  else d

/-- SOLO takes a WAITING, STALE or FENCED device to SOLO with TERM increased by 1 (R420). -/
def Dev.pairSolo (d : Dev) : Dev :=
  if d.role = 0 || d.role = 4 || d.role = 5 then (d.setF F.CMD_PAIR_STATUS_TERM 0 (d.term + 1)).setRole 1 0 else d

/-! Blocks that arrive (R382 to R387). -/

/-- The payload of a message's packet ends with the message: the first packet names its length (R270), and the rest follows it. -/
def Dev.msgTrim (d : Dev) (l : Nat) (p : Packet) : Dev × Packet :=
  if mKind p = 1 then (d, p)
  else
    let t := p.tag.toNat
    let left := if mPart p % 2 = 1 then mLen p else sget (d.lnk l).rxLeft 0 t
    let q := { p with payload := p.payload.take left }
    (d.modLnk l fun x => { x with rxLeft := sset x.rxLeft 0 t (left - q.payload.length) }, q)

/-- A whole packet that came over a link in its cells: a mirror record (Table 10-5), a message to forward, or the ACK of one. -/
def State.linkPacket (s : State) (l : Nat) (cs : List (BitVec 1024)) : State :=
  let h := headOf (cs.headD 0)
  let bs := cellBytes cs
  let t := bitsOf h 96 4
  if t = 8 then
    (if s.dev.fld F.LNK_CTRL_ROLE l = 1 then
      s.mirrorIn (bitsOf h 0 64) (bitsOf h 84 6) (bitsOf h 100 4) (bs.take (8 * (bitsOf h 72 8 + 1)))
    else s)
  else if t = 4 then s.onDev fun d => (fun x => x.1.farForward l x.2) (d.msgTrim l (pktOf h bs))
  else if t = 5 then s.onDev fun d => d.farAck l (pktOf h [])
  else s

/-- A control item that arrived (Table 10-2). -/
def State.linkItemIn (s : State) (l : Nat) (i : LinkItem) : State :=
  let mirror := s.dev.fld F.LNK_CTRL_ROLE l = 1
  match i with
  | .none => s
  | .ack nak bsn cr => s.onDev fun d => d.ackIn l nak bsn.toNat cr.toNat
  | .beat _ _ _ _ _ _ _ _ _ => s.beatIn l i
  | .mack m => if mirror then s.onDev fun d => d.mackIn m.toNat else s
  | .lane grant pos phys bsn =>
    if pos.toNat < 8 && phys.toNat < 9 then
      s.onDev fun d => if grant then d.laneGrant l pos.toNat phys.toNat (bsn.toNat % 1024) else d.laneRequest l pos.toNat phys.toNat
    else s
  | .sleep => s.onDev fun d => (d.ackOut l false).setF F.LNK_STATUS_STATE l 3
  | .resync op term =>
    if !mirror then s
    else if op = 0 then s.resyncReq l
    else if op = 1 then s.onDev fun d => d.resyncBegin term.toNat
    else if op = 2 then s.onDev fun d => d.resyncEnd
    else s
  | .reserved => s

/-- A cell that arrived; a DATA cell's room is free once its packet has left the receive buffer (R384, R389). -/
def State.linkCell (s : State) (l : Nat) (c : LinkCell) : State :=
  let saw (d : Dev) : Dev := (d.modLnk (l / 4 * 4) fun x => { x with sawData := true }).demand (domQuad l) true
  match c with
  | .idle => s
  | .reserved => s
  | .data b =>
    let cs := (s.dev.lnk l).rxCells ++ [b]
    if cs.length < bitsOf (headOf (cs.headD 0)) 90 4 + 1 then s.onDev fun d => (saw d).modLnk l fun x => { x with rxCells := cs }
    else (s.onDev fun d => (saw d).modLnk l fun x => { x with freeCells := x.freeCells + cs.length, rxCells := [] }).linkPacket l cs
  | .ctrl is => s.each is fun s i => s.linkItemIn l i

/-- Whether a cell leaves its block unnumbered (R383). -/
def quietCell : LinkCell → Bool
  | .idle => true
  | .ctrl is => is.all fun i => match i with
    | .none => true
    | .ack _ _ _ => true
    | .beat _ _ _ _ _ _ _ _ _ => true
    | .mack _ => true
    | _ => false
  | _ => false

/-- Ask for the expected block once (R386). -/
def Dev.nakOnce (d : Dev) (l : Nat) : Dev :=
  if (d.lnk l).nakDue then d else (d.modLnk l fun x => { x with nakDue := true }).ackOut l true

/-- A codeword that a link receiver takes: the FEC corrects up to 15 symbols (R380), and a block is accepted under R386. -/
def State.linkBlock (s : State) (l : Nat) (b : LinkBlk) : State :=
  let errs := b.errs.eraseDups.map (·.val)
  let bsn := blockBsn b.msg
  let cells := blockCells b.msg
  if errs.length > 15 then s.onDev fun d => (d.addSat F.LNK_ERR_UNCORR l 1).nakOnce l
  else
    let s := if errs.isEmpty then s else s.onDev fun d => (d.laneErrs l errs).laneLook l
    if cells.all quietCell then s.each cells fun s c => s.linkCell l c
    else if bsn ≠ (s.dev.lnk l).expBsn || cells.contains .reserved then s.onDev fun d => d.nakOnce l
    else
      let s := s.onDev fun d => d.modLnk l fun x =>
        { x with expBsn := (x.expBsn + 1) % 1024, nakDue := false, accepted := x.accepted + 1 }
      let s := s.each cells fun s c => s.linkCell l c
      s.onDev fun d => let d := d.grantDue l; if (d.lnk l).accepted ≥ 64 then d.ackOut l false else d

/-- LINK_BLOCK. -/
def execLinkBlock (l : Fin 48) (b : LinkBlk) (s : State) : Host.Outcome State Fault Refusal :=
  s.done (if s.dev.linkIsUp l.val then s.linkBlock l.val b else s)

end Sys2Proof.Machine
end

