-- ==== Sys2Proof/Machine/PowerDelivery.lean ====
section
/-! DEFINITION. Power delivery (spec/11_power_delivery.md): steering of the field rails, LDOs, phases, losses and inrush. -/

namespace Sys2Proof.Machine

/-! AVSBus and the field sense channel (R427 to R432). -/

/-- An AVSBus read, which shows whether the controller answers (R428, assumption 136). -/
def Dev.avsRead (d : Dev) (f group cmd : Nat) (answered : Bool) : Dev :=
  (d.avsTry f group cmd false 0 answered).modPwr fun p =>
    { p with avsDead := (if answered then [] else [f]) ++ p.avsDead.filter (· != f) }

/-- AVS_STATUS_ALERT: Merif reads the status of a regulator controller (Table 11-3). -/
def execAvsStatusAlert (f : FieldN) (answered : Bool) (s : State) : Host.Outcome State Fault Refusal :=
  s.upd fun d => if d.fieldLost f.val then d else d.avsRead f.val 0 0xE answered

/-- An LDO setpoint code in mV (Table 11-15). -/
def ldoMv (code : Nat) : Nat := 550 + 5 * code

/-- VTGT of a field, coded as in Table 11-4 (R431). -/
def Dev.vtgt (d : Dev) (f : Nat) : Nat :=
  (List.range 16).foldl (fun m k =>
    let st := d.fld F.FLD_LDO_STATE f k
    if st = 1 || st = 2 then max m ((ldoMv (d.fld F.FLD_LDO_VSET f k) + 40 - 550) * 2) else m) 420

/-- The VSET code of a floor: VTGT + 30 mV rounded up to 5 mV, at most 0.90 V (R430). -/
def vsetFor (vtgt : Nat) : Nat := min 40 ((1100 + vtgt + 60 - 1400 + 9) / 10)

/-- Write VSET of a field, its data in mV (the unit of AVSBus, assumption 120), and read it back (Table 11-3). A write that fails
leaves the setpoint. -/
def Dev.putVset (d : Dev) (f v : Nat) : Dev :=
  let d := d.modPwr fun p => { p with vsAt := sset p.vsAt 0 f (d.now + 1) }
  if d.avsUp f then ((d.setF F.FLD_RAIL_STATUS_VSET f v).avs f 0 0 true (700 + 5 * v)).avs f 0 0 false 0
  else d.avsTry f 0 0 true (700 + 5 * v) false

/-- The VTGT values of a field after another look at `now`, newest first: the one last seen was in force until now. -/
def vtSeen (now vt : Nat) : List (Nat × Nat) → List (Nat × Nat)
  | [] => [(now, vt)]
  | x :: r => if x.2 = vt then (now, vt) :: r else (now, vt) :: (now, x.2) :: r

/-- Keep VSET at the highest VTGT of the last 100 µs: a raise is written at once, a fall at most once per 100 µs
(R430). -/
def Dev.steer (d : Dev) (f : Nat) : Dev :=
  let vt := d.vtgt f
  let seen := vtSeen d.now vt ((d.pwr.vt.filter fun x => x.1 == f).map fun x => x.2)
  let mine := seen.filter fun x => decide (d.now < x.1 + 100000)
  let d := (d.setF F.FLD_RAIL_STATUS_VTGT f vt).modPwr fun p =>
    { p with vt := (mine.map fun x => (f, x)) ++ p.vt.filter fun x => x.1 != f }
  let want := vsetFor (mine.foldl (fun m x => max m x.2) vt)
  let cur := d.fld F.FLD_RAIL_STATUS_VSET f
  if want > cur || (want < cur && d.now + 1 ≥ sget d.pwr.vsAt 0 f + 100000) then d.putVset f want else d

/-- VSET 0.80 V over AVSBus for every field that is not lost, before the frames stop in Deep sleep (R615). -/
def Dev.sleepVset (d : Dev) : Dev := d.each ((List.range 16).filter fun f => !d.fieldLost f) fun d f => d.putVset f 20

/-- The CRC-8 of a sense word: polynomial 0x07, initial value 0, most significant bit first (R429). -/
def crc8 (w : Nat) : Nat :=
  (List.range 32).foldl (fun c i =>
    let x := c * 2 % 256
    if b2n (bitOf c 7) + b2n (bitOf w (31 - i)) = 1 then x ^^^ 7 else x) 0

/-- A sense frame: the preamble, the word, its CRC and two idle bits (R429). -/
def fscFrame (w : Nat) : BitVec 50 := BitVec.ofNat 50 (0xAB * 2 ^ 42 + w * 2 ^ 10 + crc8 w * 4)

/-- Send the next sense word of a field (Table 11-4). -/
def Dev.sendSense (d : Dev) (f vmin ifwd mode : Nat) : Dev :=
  let seq := (d.fld F.FLD_FSC_STATUS_LAST_WORD f / 2 ^ 28 + 1) % 16
  let w := seq * 2 ^ 28 + vmin * 2 ^ 18 + d.fld F.FLD_RAIL_STATUS_VTGT f * 2 ^ 8 + ifwd * 16 + b2n (d.pwr.droop.contains f) * 8 + mode
  ((d.setF F.FLD_FSC_STATUS_LAST_WORD f w).modPwr fun p => { p with droop := p.droop.filter (· != f) }).emit (.fsc f (fscFrame w))

/-- FSC_FRAME: the spine sends a sense frame while its rail is up (R429, Table 11-4); in Deep sleep it sends none (R615). A field
lost by its phases is sent MODE SHED while its rail is still up (R439). Four frames in a row that the controller does not receive, or not with a good CRC, put the
field in HOLD, until a valid one (R432). -/
def execFscFrame (f : FieldN) (vmin : BitVec 10) (ifwd : BitVec 4) (received crcOk : Bool) (s : State) :
    Host.Outcome State Fault Refusal :=
  s.upd fun d =>
    let f := f.val
    let valid := received && crcOk
    if d.fld F.PCH_PSTATE_STATUS_STATE 0 = 3 || !bitOf (d.fld F.PWR_RAIL_STATUS_FIELD_PG 0) f then d
    else if d.fieldLost f then d.sendSense f vmin.toNat ifwd.toNat (if d.pwr.shed.contains f then 2 else 0)
    else
      let bad := if valid then 0 else sget d.pwr.fscBad 0 f + 1
      let d := d.modPwr fun p => { p with fscBad := sset p.fscBad 0 f (min 4 bad) }
      let was := d.flag F.FLD_RAIL_STATUS_HOLD f
      let hold := if valid then false else was || decide (bad ≥ 4)
      let d := (d.setB F.FLD_RAIL_STATUS_HOLD f hold).steer f
      let d := (d.setF F.FLD_RAIL_STATUS_VMIN f vmin.toNat).sendSense f vmin.toNat ifwd.toNat (b2n hold)
      if hold && !was then d.raise (evU bFLD f) 5 0 detField else d

/-! Phases (R438). -/

/-- The continuous limit of a field in mA by good phases (Table 11-6). -/
def ilimCont (good : Nat) : Nat := if good = 19 then 209000 else if good = 18 then 198000 else 220000

/-- The 1 ms limit of a field in mA by good phases (Table 11-6). -/
def ilimPeak (good : Nat) : Nat := if good = 19 then 285000 else if good = 18 then 270000 else 300000

/-- The continuous limit in force: Table 11-6 by the phases last read. -/
def Dev.ilim (d : Dev) (f : Nat) : Nat := ilimCont (d.fld F.FLD_RAIL_STATUS_PHASES f)

/-- The good phases of a field set its limits (Table 11-6). -/
def Dev.setPhases (d : Dev) (f g : Nat) : Dev :=
  ((d.setF F.FLD_RAIL_STATUS_PHASES f g).setF F.FLD_RAIL_LIMIT_ILIM_CONT f (ilimCont g / 2000)).setF F.FLD_RAIL_LIMIT_ILIM_PEAK f
    (ilimPeak g / 2000)

/-- The field is lost by its phases: the spine sheds its load (R439). -/
def Dev.shed (d : Dev) (f : Nat) : Dev := d.modPwr fun p => { p with shed := f :: p.shed }

/-! Failures (R434, R435, R439, R441). -/

/-- An LDO fails (R434): the compute switch opens, the LDO is FAILED until a cold start, Newt swaps in a spare. -/
def Dev.ldoFail (d : Dev) (i : Nat) (cause : Option LdoCause) (skink : Bool) : Dev :=
  let f := fieldOf i
  let k := localIx i
  if d.fieldLost f || d.fld F.FLD_LDO_STATE f k = 4 then d
  else
    let d := d.setF F.FLD_LDO_STATE f 4 k
    let d := match cause with
      | some .low => d.setF F.FLD_LDO_UV f 1 k
      | some .high => d.setF F.FLD_LDO_OV f 1 k
      | some .overCurrent => d.setF F.FLD_LDO_OC f 1 k
      | none => d
    (d.loseCluster i).raise (evU bFLD f) 3 3 k skink

/-- The die in reset: volatile state is as after reset, fuses and flash stand (R425, R441), and so do the level of RESET_N and the
rails that are down. `rails` says whether the rails are qualified. -/
def State.dieReset (s : State) (rails : Bool) : State :=
  let p := s.dev.pch
  let d : Dev := { Dev.reset with
    out := s.dev.out, fresh := s.dev.fresh,
    pch := { PchS.init with rails := rails, resetLow := p.resetLow, down := p.down, dark := p.dark },
    boot := { BootS.init with fuse := s.dev.boot.fuse } }
  { State.reset with
    pending := s.pending, flash := s.flash, dev := if rails then d else d.setF F.BSQ_STATUS_STATE 0 0 }

/-- The stacks on the edge of a rail: north, east, west in that order (Table 11-1). -/
def edgeStacks (e : Nat) : List Nat :=
  if e = 0 then [0, 1, 2, 3, 4, 5] else if e = 1 then [6, 7, 8, 9, 10] else if e = 2 then [11, 12, 13, 14, 15] else []

/-- The links on an edge: north, east, west, south (R437). -/
def edgeLinks (e : Nat) : List Nat :=
  if e = 0 then List.range 8 else if e = 1 then (List.range 16).map (· + 8) else if e = 2 then (List.range 16).map (· + 24)
  else (List.range 8).map (· + 40)

/-- Whether Merif is still starting: a rail other than a field's that leaves tolerance then holds it in reset (R426; assumption
124). -/
def Dev.starting (d : Dev) : Bool := d.fld F.BSQ_STATUS_STATE 0 ≤ 1

/-- The quads of links. -/
def quadsOf (ls : List Nat) : List Nat := (ls.map domQuad).eraseDups

/-- The domains that a rail of Table 11-1 feeds (Table 11-5), without the Porch and time domains, whose loss resets the die. -/
def railDoms (r : Nat) : List Nat :=
  if r < 4 then (edgeStacks r).map domHbm ++ quadsOf (edgeLinks r) ++ (if r = 3 then [300, 301, 302, 303, 304, 305] else [])
  else if r < 8 then quadsOf (edgeLinks (r - 4))
  else if r < 14 then (edgeStacks ((r - 8) % 3)).map domHbm
  else if r = 14 then (List.range 16).map domHbm
  else if r = 16 then [domUci, domHost, domBoot]
  else []

/-- The Cellar becomes ABSENT (R326, R441). -/
def Dev.cellarOut (d : Dev) : Dev :=
  d.each (List.range 12) fun d c => ((d.setF F.CEL_STATUS_STATE c 0).setF F.CEL_STATUS_IN_ILV c 0).setF F.CEL_STATUS_N c 0

/-- A domain loses its rail until a cold start: it is off, its stack fails, its links go down, the Cellar is ABSENT, the UCIe
modules leave Sill, the command engine stops (R441; assumption 118). -/
def Dev.loseDom (d : Dev) (n : Nat) : Dev :=
  let d := d.modPwr fun p => { p with lost := if p.lost.contains n then p.lost else n :: p.lost }
  let d := if 272 ≤ n && n < 288 then d.stackFail (n - 272)
    else if 288 ≤ n && n < 300 then d.each (List.range 4) fun d k => d.linkFailed (4 * (n - 288) + k)
    else if 300 ≤ n && n < 306 then d.cellarOut
    else if n = domUci then d.each (List.range 4) fun d m => (d.setF F.UCI_STATUS_STATE m 4).moduleGone m
    else if n = domHost then d.setF F.CMD_CTRL_EN 0 0
    else d
  d.setDom n fun _ => DomS.off

/-- What a rail feeds is lost; without VDDRQ (15) the Cellar is ABSENT (R441). -/
def Dev.railOut (d : Dev) (r : Nat) : Dev :=
  let d := d.each (railDoms r) fun d n => d.loseDom n
  if r = 15 then d.cellarOut else d

/-! Inrush (R442, R443). -/

/-- Inrush reservations of a field still held, in mA. -/
def Dev.reserved (d : Dev) (f : Nat) : Nat :=
  6000 * (d.pwr.reserve.filter fun x => x.1 == f && decide (d.now < x.2 + 2000)).length

/-- Admit the power-up of a compute domain: its switch closes, and its exit runs (R442). -/
def Dev.admitUp (d : Dev) (site : Nat) : Dev :=
  let f := fieldOf site
  let d := d.modPwr fun p =>
    { p with reserve := (p.reserve.filter fun x => decide (d.now < x.2 + 2000)) ++ [(f, d.now)],
             upWait := p.upWait.filter fun x => x.1 != site }
  (d.setF F.FLD_LDO_STATE f 1 (localIx site)).setDom site fun x => { x with exiting := true, demand := false }

/-- Whether a field has room for one more power-up, with `save` mA less load (R442). -/
def Dev.inrushFits (d : Dev) (f save : Nat) : Bool :=
  decide (sget d.pwr.amps 0 f - save + d.reserved f + 6000 ≤ d.ilim f)

/-- Lower the clock of the active clusters of a field that carry no deadline by 6 codes for 4 µs (R443). -/
def Dev.throttleField (d : Dev) (f : Nat) : Dev :=
  let sites := (fieldSites f).filter fun s => (d.dom s).level == 0 && !(d.dom s).exiting && !d.siteOut s && !d.hasDeadline s
  let old := sites.map fun s => (s, d.fld F.CLU_PWR_FREQ s)
  let d := d.each old fun d x => (d.setF F.CLU_PWR_FREQ x.1 (x.2 - 6)).showClk x.1
  d.modPwr fun p => { p with throttle := p.throttle ++ [(f, old)] }

/-- Whether a new throttle of a field may start (R443). -/
def Dev.throttleOk (d : Dev) (f : Nat) : Bool :=
  !(d.pwr.throttle.any fun x => x.1 == f) &&
  (sget d.pwr.thrEnd 0 f = 0 || decide (d.now + 1 ≥ sget d.pwr.thrEnd 0 f + 4000))

/-- Whether a power-up must wait for valid sense frames: in HOLD no LDO setpoint rises above what the rail holds (R431, R432, Table
11-8; assumption 118). -/
def Dev.upHeld (d : Dev) (site : Nat) : Bool :=
  d.flag F.FLD_RAIL_STATUS_HOLD (fieldOf site) &&
    decide ((d.fld F.FLD_RAIL_STATUS_VMIN (fieldOf site) - 80) / 10 < d.fld F.FLD_LDO_VSET (fieldOf site) (localIx site))

/-- The check of R442 on one request: it is admitted when it fits, with a deadline also after a throttle of the field (R443),
whose saving is the estimator's figure; else it is none and waits. -/
def Dev.tryUp (d : Dev) (site : Nat) (deadline : Bool) : Dev × Bool :=
  let f := fieldOf site
  if d.upHeld site then (d, false)
  else if d.inrushFits f 0 then (d.admitUp site, true)
  else if deadline && d.throttleOk f then
    let t := d.throttleField f
    if t.inrushFits f (Config.throttleSaving f d.pwr.ticks) then (t.admitUp site, true) else (t, false)
  else (d, false)

/-- POWER_UP_REQUEST (R442): a compute domain with a demand asks for its power-up, with the deadline that its wake carries.
Requests wait in arrival order, those with a deadline first. -/
def execPowerUpRequest (f : FieldN) (row col : Fin 4) (s : State) : Host.Outcome State Fault Refusal :=
  s.upd fun d =>
    let i := siteOf f.val (4 * row.val + col.val)
    let x := d.dom i
    if d.siteOut i || x.level < 3 || x.exiting || x.entering.isSome || d.pwr.upWait.any (fun y => y.1 == i) then d
    else
      let dl := d.hasDeadline i
      let wait (d : Dev) : Dev := d.modPwr fun p => { p with upWait := p.upWait ++ [(i, dl)] }
      if d.pwr.upWait.any fun y => fieldOf y.1 == fieldOf i && (y.2 || !dl) then wait d
      else if (d.tryUp i dl).2 then (d.tryUp i dl).1 else wait (d.tryUp i dl).1

/-- THROTTLE_END: the clusters of a throttle return to their clocks (R443). -/
def execThrottleEnd (f : FieldN) (s : State) : Host.Outcome State Fault Refusal :=
  s.upd fun d =>
    match d.pwr.throttle.find? fun x => x.1 == f.val with
    | none => d
    | some t =>
      let d := d.each t.2 fun d x => if d.siteOut x.1 then d else (d.setF F.CLU_PWR_FREQ x.1 x.2).showClk x.1
      d.modPwr fun p => { p with throttle := p.throttle.erase t, thrEnd := sset p.thrEnd 0 f.val (d.now + 1) }

/-- Re-check the power-ups that wait, deadline requests first (R442), at an estimation tick. -/
def Dev.admitWaiting (d : Dev) : Dev :=
  let order := (d.pwr.upWait.filter fun x => x.2) ++ d.pwr.upWait.filter fun x => !x.2
  d.each order fun d x =>
    if d.siteOut x.1 then d.modPwr fun p => { p with upWait := p.upWait.erase x } else (d.tryUp x.1 x.2).1

end Sys2Proof.Machine
end

