-- ==== Sys2Proof/Machine/PowerControl.lean ====
section
/-! DEFINITION. Power estimation, caps and grid behaviour (spec/12_power_control.md): the estimation tick, ramp slots, caps,
curtail, the allocation, the floor and thermal control. -/

namespace Sys2Proof.Machine

/-- The highest setpoint that a cluster may rise to now: VMIN less 40 mV, and none above the present one in HOLD (R431,
R432). -/
def Dev.vReach (d : Dev) (site : Nat) : Nat :=
  let cur := d.fld F.CLU_PWR_VSET site
  if d.flag F.FLD_RAIL_STATUS_HOLD (fieldOf site) then cur
  else max cur (min 60 ((d.fld F.FLD_RAIL_STATUS_VMIN (fieldOf site) - 80) / 10))

/-! The preference entries (R466). -/

/-- The entry of a phase, in the layout of Table 12-13. -/
def Dev.prefEntry (d : Dev) (ph : Nat) : Nat := sget d.pwr.prefs 1 ph

/-- PREF of an entry: 3 acts as 1. -/
def prefOf (e : Nat) : Nat := if e % 4 = 3 then 1 else e % 4

/-- f_target of an entry (R466). -/
def prefTarget (e : Nat) : Nat :=
  if bitOf e 2 then bitsOf e 8 6 else if prefOf e = 0 then 36 else if prefOf e = 1 then 22 else 12

/-! The estimates (R448, R449). -/

/-- A value of the loaded image's estimator tables. -/
def Dev.imgList {α : Type} (d : Dev) (f : Image → List α) : List α := (d.boot.image.map f).getD []

/-- The weighted sum of a cluster's events, in 0.1 nJ over the tick of 2 µs, in units of which 20 are 1 mW (R448). -/
def Dev.weighted (d : Dev) (c : CluMeas) : Nat :=
  ((d.clu c.site.val).evs.map fun x => x.2 * (d.imgList Image.evWeights).getD x.1 0).sum

/-- The dynamic estimate of a cluster in mW: scaled by (V / 0.80 V)² and by the field gain (R448). -/
def Dev.dynPower (d : Dev) (c : CluMeas) : Nat :=
  let s := c.site.val
  let v := ldoMv (d.fld F.CLU_PWR_VSET s)
  d.weighted c * (v * v) * sget d.pwr.gain 1000000 (fieldOf s) / (20 * 640000 * 1000000)

/-- The cluster temperature: the highest good reading, 100 °C with fewer than 2 good sensors (R469). -/
def Dev.cluTemp (d : Dev) (site : Nat) (ts : List Nat) : Nat :=
  let g := (List.range 4).filter fun i => bitOf (d.fld F.THM_CLU_GOOD (fieldOf site) (localIx site)) i
  if g.length < 2 then 100 else g.foldl (fun m i => max m (ts.getD i 0)) 0

/-- The hottest good sensor of a cluster; with none good the temperature that R469 takes. -/
def Dev.hottest (d : Dev) (site : Nat) (ts : List Nat) : Nat :=
  let g := (List.range 4).filter fun i => bitOf (d.fld F.THM_CLU_GOOD (fieldOf site) (localIx site)) i
  if g.isEmpty then 100 else g.foldl (fun m i => max m (ts.getD i 0)) 0

/-- The leakage of a cluster in mW: of the image's table by setpoint and by the hottest good sensor, the retention leakage in Deep
sleep, none when the cluster is off (R449, assumption 20). -/
def Dev.leak (d : Dev) (c : CluMeas) : Nat :=
  let s := c.site.val
  let k := d.hottest s c.temps / 4
  let lvl := (d.dom s).level
  if lvl ≥ 4 || d.siteOut s then 0
  else if lvl = 3 then (d.imgList Image.leakRet).getD k 0
  else ((d.imgList Image.leakTbl).getD (d.fld F.CLU_PWR_VSET s) []).getD k 0

/-- A cluster's estimate in mW. -/
def Dev.cluPower (d : Dev) (c : CluMeas) : Nat := d.dynPower c + d.leak c

/-- The estimate of the edge blocks and the fixed term in mW (R449, Table 12-2): every HBM edge, link quad, DDR5 pair, the UCIe and
the host window domain; one that the tick lists no counts for counted nothing. -/
def Dev.edgePower (d : Dev) (m : TickMeas) : Nat :=
  ((List.range 36).map fun i =>
    let n := 272 + i
    let counts := ((m.edges.find? fun e => e.dom.val == n).map EdgeMeas.counts).getD []
    Config.edgeEstimate n (d.dom n).level counts).sum + Config.fixedPower

/-- The clusters of a tick: every one that is not off; one that the tick lists no readings for reads as at the last tick. -/
def Dev.tickClus (d : Dev) (m : TickMeas) : List CluMeas :=
  ((List.finRange 256).filter fun s => !d.siteOut s.val).map fun s =>
    (m.clusters.find? fun c => c.site == s).getD
      { site := s, temps := List.replicate 4 (d.fld F.THM_CLU_TEMP (fieldOf s.val) (localIx s.val)),
        iout := BitVec.ofNat 8 (d.fld F.FLD_LDO_IOUT (fieldOf s.val) (localIx s.val)) }

/-! The allocation (R461). -/

/-- A cluster in the allocation: site, preference, model coefficient, FMAX_CUR of its slowest core, frequency, duty, and
whether a deferred fall keeps it at its operating point (R462). -/
structure Alloc where
  site : Nat
  pref : Nat
  a : Nat
  slow : Nat
  f : Nat
  duty : Nat
  fixed : Bool
deriving DecidableEq, Repr

/-- The power in mW that a cluster wants at its operating point. -/
def Alloc.want (x : Alloc) : Nat :=
  let v := 550 + 5 * vFor x.slow x.f
  x.a * (1200 + 25 * x.f) * (v * v) * x.duty / (8 * 1000 * 640000)

/-- Whether the allocation lowers cluster x before cluster y: efficient before balanced before performance, then the highest
frequency, then the lowest site. -/
def Alloc.before (x y : Alloc) : Bool :=
  if x.pref ≠ y.pref then decide (y.pref < x.pref) else if x.f ≠ y.f then decide (y.f < x.f) else decide (x.site < y.site)

/-- Whether a cluster is above its lowest point. -/
def Alloc.canLower (x : Alloc) : Bool := decide (0 < x.f) || decide (1 < x.duty)

/-- Lower a cluster by one step: frequency first, then duty. -/
def Alloc.lower (x : Alloc) : Alloc := if x.f > 0 then { x with f := x.f - 1 } else { x with duty := x.duty - 1 }

/-- Lower clusters among those of `sel` until their wants fit a budget, or the first of them is at its lowest point (R461), in at most
n steps. A cluster whose fall is deferred counts at its old operating point and is passed over (R462). -/
def allocate (sel : Alloc → Bool) (budget : Nat) : Nat → List Alloc → List Alloc
  | 0, xs => xs
  | n + 1, xs =>
    if ((xs.filter sel).map Alloc.want).sum ≤ budget then xs
    else
      let cands := xs.filter fun x => sel x && !x.fixed
      match cands.foldl (fun b x => match b with
          | none => some x
          | some y => if x.before y then some x else some y) (none : Option Alloc) with
      | none => xs
      | some c => if c.canLower then allocate sel budget n (xs.map fun x => if x.site = c.site then x.lower else x) else xs

/-- More steps than the allocation can take. -/
def allocFuel : Nat := 256 * 44

/-- The clusters of a tick before the allocation (R461): those in Run or Idle, at their target. -/
def Dev.allocInit (d : Dev) (m : TickMeas) : List Alloc :=
  (m.clusters.filter fun c => !d.siteOut c.site.val && decide ((d.dom c.site.val).level ≤ 1)).map fun c =>
    let s := c.site.val
    let ph := (d.clu s).phase
    let slow := d.slowest s
    let e := d.prefEntry ph
    let thm := d.fld F.THM_CLU_THM_CAP (fieldOf s) (localIx s)
    let reach := (d.vReach s + 2 * slow - 50) / 2
    let deferred := (d.clu s).fallTo.isSome
    { site := s, pref := prefOf e, a := sget d.pwr.model 0 (s * 64 + ph), slow := slow,
      f := if deferred then d.fld F.CLU_PWR_FREQ s else min (min (prefTarget e) thm) (min 36 reach),
      duty := if deferred then d.fld F.CLU_PWR_DUTY s else min 8 (d.fld F.THM_CLU_DUTY (fieldOf s) (localIx s)),
      fixed := deferred }

/-- The allocation under a ceiling in mW: the budget is the ceiling less the given fixed terms, and each field stays
within its current limit (R438, R457). -/
def Dev.allocUnder (d : Dev) (m : TickMeas) (ceiling base : Nat) : List Alloc :=
  let xs := allocate (fun _ => true) (ceiling - base) allocFuel (d.allocInit m)
  (List.range 16).foldl (fun xs f =>
    let leak := ((m.clusters.filter fun c => fieldOf c.site.val == f).map d.leak).sum
    let lim := d.ilim f * (700 + 5 * d.fld F.FLD_RAIL_STATUS_VSET f) / 1000
    if xs.any fun x => fieldOf x.site == f then allocate (fun x => fieldOf x.site == f) (lim - leak) allocFuel xs else xs) xs

/-- Put an allocated operating point into force: a rise raises V first; a fall waits for the collective boundary (R299,
R431, R462). -/
def Dev.putAlloc (d : Dev) (x : Alloc) : Dev :=
  let s := x.site
  let d := d.setF F.CLU_PWR_ALLOC s (min 65535 (x.want / 100))
  if x.fixed then d.showClk s
  else
    let cur := d.fld F.CLU_PWR_FREQ s
    -- no setpoint above what the rail holds, whatever v_for calls for (R431)
    let v := min (d.vReach s) (vFor x.slow x.f)
    let d := if x.duty = 8 then d else d.modClu s fun c => { c with steady := false }
    if d.pwr.throttle.any fun t => t.2.any fun y => y.1 == s then d
    else if x.f < cur then
      ((d.setF F.CLU_PWR_DEFERRED s 1).modClu s fun c => { c with fallTo := some (x.f, x.duty) }).showClk s
    else ((((d.setVset s v).setF F.CLU_PWR_FREQ s x.f).setF F.CLU_PWR_DUTY s x.duty)).showClk s

/-! Thermal control (R469, R470). -/

/-- The median of three readings. -/
def median3 (a b c : Nat) : Nat := max (min a b) (min (max a b) c)

/-- The sensors of one cluster: each that differs by more than 5 °C from the median of the other three for 16 ticks is
excluded (R469). -/
def Dev.sensorTick (d : Dev) (site : Nat) (ts : List Nat) : Dev :=
  let f := fieldOf site
  let k := localIx site
  d.each (List.range 4) fun d i =>
    if !bitOf (d.fld F.THM_CLU_GOOD f k) i then d
    else
      let t := ts.getD i 0
      let o := (List.range 4).filterMap fun j => if j = i then none else some (ts.getD j 0)
      let md := median3 (o.getD 0 0) (o.getD 1 0) (o.getD 2 0)
      let off := decide (t > md + 5) || decide (md > t + 5)
      let n := if off then sget d.pwr.sensorRun 0 (site * 4 + i) + 1 else 0
      if n ≥ 16 then
        ((d.setFbit F.THM_CLU_GOOD f i false k).modPwr fun p => { p with sensorRun := sset p.sensorRun 0 (site * 4 + i) 0 }).raise
          (evU bTHM f) 1 0 k
      else d.modPwr fun p => { p with sensorRun := sset p.sensorRun 0 (site * 4 + i) n }

/-- Thermal control of one cluster in one tick (R469, R470). -/
def Dev.thermTick (d : Dev) (site : Nat) (ts : List Nat) : Dev :=
  let f := fieldOf site
  let k := localIx site
  let d := d.sensorTick site ts
  let t := d.cluTemp site ts
  let d := d.setF F.THM_CLU_TEMP f (min 255 t) k
  if t ≥ 108 then ((d.setFbit F.THM_STATUS_SHUTDOWN f k true).loseCluster site).raise (evU bTHM f) 3 3 k
  else
    let cap := d.fld F.THM_CLU_THM_CAP f k
    let duty := d.fld F.THM_CLU_DUTY f k
    let d := if t ≥ 92 then
        let n := max 1 (t - 91)
        if cap < n then (d.setF F.THM_CLU_THM_CAP f 0 k).setF F.THM_CLU_DUTY f (max 1 (duty / 2)) k
        else d.setF F.THM_CLU_THM_CAP f (cap - n) k
      else if t < 90 && d.pwr.ticks % 8 = 0 then
        (if duty < 8 then d.setF F.THM_CLU_DUTY f (min 8 (duty * 2)) k else d.setF F.THM_CLU_THM_CAP f (min 36 (cap + 1)) k)
      else d
    let on := decide (d.fld F.THM_CLU_THM_CAP f k < 36)
    let was := bitOf (d.fld F.THM_STATUS_THROTTLED f) k
    let d := d.setFbit F.THM_STATUS_THROTTLED f k on
    let d := if on then
        let n := sget d.pwr.thrTicks 0 site + 1
        let d := d.modPwr fun p => { p with thrTicks := sset p.thrTicks 0 site (n % 500) }
        if n ≥ 500 then d.addSat F.THM_CLU_THROTTLE_MS f 1 k else d
      else d
    if on && !was then d.raise (evU bTHM f) 2 0 k else d

/-- HOTTEST of the fields. -/
def Dev.showHot (d : Dev) : Dev :=
  d.each (List.range 16) fun d f =>
    let t := (List.range 16).foldl (fun m k => max m (d.fld F.THM_CLU_TEMP f k)) 0
    if d.fld F.THM_STATUS_HOTTEST f = t || d.fieldLost f then d else d.setF F.THM_STATUS_HOTTEST f t

/-- THERMTRIP: a good sensor at 118 °C asserts THERMTRIP_N (R471). Pin 0 is THERMTRIP_N. -/
def execThermtrip (f : FieldN) (s : State) : Host.Outcome State Fault Refusal :=
  s.upd fun d => ((d.setF F.THM_STATUS_TRIP f.val 1).emit (.pin 0 false)).raise (evU bTHM f.val) 4 5 detField

/-! Caps and curtail (R451 to R460). -/

/-- The lowest of the curtail level less the guard band, in mW (R458). -/
def Dev.curtLc (d : Dev) : Nat := d.fld F.PWR_CURTAIL_LEVEL 0 * (100 - d.fld F.PWR_CURTAIL_GUARD 0) * 10

/-- The curtail ceiling in mW: a straight line over CURT_DESC, then L_c (R458). -/
def Dev.curtCeil (d : Dev) : Nat :=
  let lc := d.curtLc
  let from_ := d.pwr.curtFrom
  let desc := min 800 (d.fld F.PWR_CURTAIL_DESC 0) * 1000
  let t := d.pwr.curtTicks * 2000
  if from_ ≤ lc || t ≥ desc then lc else from_ - (from_ - lc) * t / desc

/-- CAPn in W; with no table loaded the rated maximum (assumption 31). -/
def Dev.capW (d : Dev) (n : Nat) : Nat :=
  let w := d.fld F.PWR_CAPTBL_W 0 n
  if w = 0 then 2400 else w

/-- The effective cap of a selection and a software cap (R456). -/
def Dev.effCap (d : Dev) (sel sw : Nat) : Nat := if sw = 0 then d.capW sel else min (d.capW sel) sw

/-- A SW_CAP value as it acts (Table 12-11). -/
def swClamp (v : Nat) : Nat := if v = 0 then 0 else if v < 600 then 600 else if v > 2400 then 2400 else v

/-- Show the pending selection (Table 12-11). -/
def Dev.showPendCap (d : Dev) : Dev :=
  let d := d.setB F.PWR_CAP_PENDING_VALID 0 (d.pwr.pendSel.isSome || d.pwr.pendSw.isSome)
  d.setF F.PWR_CAP_PENDING_SEL 0 (d.pwr.pendSel.getD 0)

/-- A write of SW_CAP takes effect at the next ramp slot (R456). -/
def Dev.wrSwCap (d : Dev) (v : Nat) : Dev :=
  ((d.setF F.PWR_CAP_SW_CAP 0 (swClamp v)).modPwr fun p => { p with pendSw := some (swClamp v) }).showPendCap

/-- SW_CAP. -/
def execSwCap (v : BitVec 16) (s : State) : Host.Outcome State Fault Refusal := s.upd fun d => d.wrSwCap v.toNat

/-- CAP_SEL_STABLE: the value becomes the pending selection, unless it is in force (R455). In Off it has no effect (R603). -/
def execCapSelStable (v : Fin 8) (s : State) : Host.Outcome State Fault Refusal :=
  s.upd fun d => if d.pstate = 4 then d else (d.modPwr fun p =>
    { p with pendSel := if v.val = d.fld F.PWR_CAP_SEL 0 then none else some v.val }).showPendCap

/-- OFFSET of the ramp slots in ns (R452). -/
def Dev.slotOff (d : Dev) : Nat := d.fld F.PWR_SLOT_CAMPUS 0 % 64 * 15625

/-- The NT of the first ramp slot after now (R452). -/
def Dev.nextSlot (d : Dev) : Nat :=
  let n := d.ntAt bPWR 0
  n + 1000000 - (n + 1000000 - d.slotOff) % 1000000

/-- Whether NT has reached a ramp slot since the last one (R452). -/
def Dev.slotDue (d : Dev) : Bool := d.slotOff ≤ d.ntAt bPWR 0 && d.pwr.slotNt + 1000000 ≤ d.nextSlot

/-- CAP0 to CAP7 of an image (R455, Table 16-5). -/
def Dev.loadCaps (d : Dev) (img : Image) : Dev :=
  d.each (List.range 8) fun d i => d.setF F.PWR_CAPTBL_W 0 ((img.caps.map (·.toNat)).getD i 0) i

/-- The caps of a POLICY that waits since a REGION_RELOAD (Table 16-12). -/
def Dev.capsDue (d : Dev) : Dev := match d.boot.policy with
  | some img => d.loadCaps img
  | none => d

/-- RAMP_SLOT: pending caps take effect; a fall below C takes C down at once; slot-gated changes are armed in this tick
(R452, R453, R456, R457). A slot falls where NT has reached one. -/
def execRampSlot (s : State) : Host.Outcome State Fault Refusal :=
  s.upd fun d => if !d.slotDue then d else
    let d := d.capsDue.modPwr fun p => { p with slotNt := d.ntAt bPWR 0 + 1 }
    let sel := d.pwr.pendSel.getD (d.fld F.PWR_CAP_SEL 0)
    let sw := d.pwr.pendSw.getD (d.fld F.PWR_CAP_SW_CAP 0)
    let eff := d.effCap sel sw
    let d := (d.setF F.PWR_CAP_SEL 0 sel).setF F.PWR_CAP_EFFECTIVE 0 eff
    let d := d.modPwr fun p => { p with pendSel := none, pendSw := none, slot := true, slope := min p.slope (eff * 1000) }
    d.showPendCap.setF F.PWR_SLOT_NEXT 0 d.nextSlot

/-- P_avg in mW (R450). -/
def Dev.pAvg (d : Dev) : Nat := d.pwr.hist.sum / max 1 d.pwr.hist.length

/-- CURTAIL_ASSERT: recognised after 1 µs low (R458); another assertion within 100 µs of the last one is chatter (R460). In
Off it has no effect (R603). -/
def execCurtailAssert (s : State) : Host.Outcome State Fault Refusal :=
  s.upd fun d =>
    if d.pstate = 4 then d
    else if d.flag F.PWR_CURTAIL_ACTIVE 0 then
      (if d.now < d.pwr.curtAt + 100000 then d.setF F.PWR_CURTAIL_CHATTER 0 1 else d).modPwr fun p => { p with curtAt := d.now }
    else
      ((d.setF F.PWR_CURTAIL_ACTIVE 0 1).addSat F.PWR_CURTAIL_ASSERTS 0 1).modPwr fun p =>
        { p with curtFrom := d.pAvg, curtTicks := 0, curtAt := d.now }

/-- CURTAIL_RELEASE: the pin has been high for 1 ms (R460). -/
def execCurtailRelease (s : State) : Host.Outcome State Fault Refusal :=
  s.upd fun d => (d.setF F.PWR_CURTAIL_ACTIVE 0 0).setF F.PWR_CURTAIL_CHATTER 0 0

/-- CURTAIL_PERSIST: 10 s of continuous assertion (R460). -/
def execCurtailPersist (s : State) : Host.Outcome State Fault Refusal :=
  s.upd fun d => if d.flag F.PWR_CURTAIL_ACTIVE 0 then d.raise (evU bPWR 0) 3 0 0 else d

/-- FLOOR_SHORT: 500 consecutive ticks short of the floor (R465). -/
def execFloorShort (s : State) : Host.Outcome State Fault Refusal :=
  s.upd fun d => if d.pwr.shortRun ≥ 500 then (d.modPwr fun p => { p with shortRun := 0 }).raise (evU bPWR 0) 5 0 0 else d

/-- PWR_INFEASIBLE: 50,000 consecutive ticks of conflict on one constraint (R468). -/
def execPwrInfeasible (rank : Fin 8) (s : State) : Host.Outcome State Fault Refusal :=
  s.upd fun d =>
    if sget d.pwr.conflict 0 rank.val ≥ 50000 then
      (d.modPwr fun p => { p with conflict := sset p.conflict 0 rank.val 0 }).raise (evU bPWR 0) 6 0 rank.val
    else d

/-- FIELD_GAIN_UPDATE: the rail current is read over AVSBus; its product with VSET against the mean of the field's last 50
estimates moves the gain by a quarter of the relative difference, within 0.75 to 1.25 (R450). A read that fails moves nothing
(R428). -/
def execFieldGainUpdate (f : FieldN) (milliamps : BitVec 20) (answered : Bool) (s : State) : Host.Outcome State Fault Refusal :=
  s.upd fun d =>
    let h := sget d.pwr.fieldHist [] f.val
    let estimate := h.sum / max 1 h.length
    if d.fieldLost f.val then d
    else
      let d := d.avsRead f.val 0 2 answered
      let measured := milliamps.toNat * (700 + 5 * d.fld F.FLD_RAIL_STATUS_VSET f.val) / 1000
      if estimate = 0 || !answered then d
      else
        let g : Int := ((sget d.pwr.gain 1000000 f.val : Nat) : Int)
        let g' : Int := min 1250000 (max 750000 (g + g * ((measured : Int) - estimate) / (4 * (estimate : Int))))
        let d := d.modPwr fun p => { p with gain := sset p.gain 1000000 f.val g'.toNat }
        if g' = 750000 || g' = 1250000 then d.raise (evU bFLD f.val) 6 0 detField else d

/-! The estimation tick (R447 to R468). -/

/-- The slope step of one tick in mW: RATE in 0.01 W/µs over 2 µs, within 0.05 to 5.00 W/µs (R454). -/
def Dev.slopeStep (d : Dev) : Nat := min 500 (max 5 (d.fld F.PWR_SLOPE_RATE 0)) * 20

/-- A binary32 number of W in mW, rounded down; 0 below zero and without a finite value. -/
def mwOf32 (b : Nat) : Nat :=
  match numOf .b32 b with
  | .fin false m e => if e ≥ 0 then m * 2 ^ e.toNat * 1000 else m * 1000 / 2 ^ (-e).toNat
  | _ => 0

/-- C moves toward the target T (R453). -/
def Dev.slopeTick (d : Dev) (t : Nat) : Dev :=
  let c := d.pwr.slope
  let pend := if t ≥ c then t - c else c - t
  let armed := d.pwr.armed || decide (pend ≤ 40000) || d.pwr.slot
  let step := if armed then min pend d.slopeStep else 0
  let c := if t ≥ c then c + step else c - step
  d.modPwr fun p => { p with slope := c, armed := armed && c != t, slot := false }

/-- Count conflicts of a rank (R468). -/
def Dev.conflictTick (d : Dev) (rank : Nat) (f : Fld) (on : Bool) : Dev :=
  if on then (d.addSat f 0 1).modPwr fun p => { p with conflict := sset p.conflict 0 rank (sget p.conflict 0 rank + 1) }
  else d.modPwr fun p => { p with conflict := sset p.conflict 0 rank 0 }

/-- Learning of the model after a tick that a cluster spent in one phase at full duty (R462). -/
def Dev.learn (d : Dev) (c : CluMeas) : Dev :=
  let s := c.site.val
  let ph := (d.clu s).phase
  let whole := sget d.pwr.phaseAt 64 s == ph && (d.clu s).steady && d.fld F.CLU_PWR_DUTY s == 8
  let d := if d.flag F.PWR_CTRL_LEARN 0 && whole && !d.siteOut s then
      let mhz := 1200 + 25 * d.fld F.CLU_PWR_FREQ s
      let meas := d.weighted c * sget d.pwr.gain 1000000 (fieldOf s) / (20000 * mhz)
      let a := sget d.pwr.model 0 (s * 64 + ph)
      let a' := if meas ≥ a then a + (meas - a) / 16 else a - (a - meas) / 16
      d.modPwr fun p => { p with model := sset p.model 0 (s * 64 + ph) a' }
    else d
  (d.modPwr fun p => { p with phaseAt := sset p.phaseAt 64 s ph }).modClu s fun x => { x with steady := true }

/-- The floor F (R464, R417); none while curtail is asserted. -/
def Dev.floorTick (d : Dev) (ceiling : Nat) : Dev :=
  if d.flag F.PWR_CURTAIL_ACTIVE 0 then d.modPwr fun p => { p with floor := 0 }
  else
    let f := max (d.pwr.floor - d.slopeStep) (min d.pAvg d.pwr.slope - 40000)
    let f := if d.role = 3 && d.syncSt = 2 then max f (mwOf32 d.pwr.leadEst - 40000) else f
    d.modPwr fun p => { p with floor := min f ceiling }

/-- The clusters that may run ballast: those in Run or Idle (R465, Table 12-4). -/
def Dev.ballastClus (d : Dev) (m : TickMeas) : List CluMeas :=
  m.clusters.filter fun c => !d.siteOut c.site.val && decide ((d.dom c.site.val).level ≤ 1)

/-- Ballast of one tick (R464, R465, Table 12-4), each source for what the ones before it do not cover: Skink's, where it offers it
(R591); k-steps on idle cubes, up to four fifths of the full compute power of the clusters in Run or Idle; and clusters held in Idle.
Which clusters run k-steps is open (assumption 11). -/
def Dev.ballastTick (d : Dev) (m : TickMeas) : Dev :=
  let short := d.pwr.floor - d.pAvg
  let en := d.flag F.PWR_CTRL_BALLAST_EN 0
  let cs := d.ballastClus m
  let r1 := if d.flag F.SKK_CTRL_EN 0 && d.flag F.SKK_CTRL_BALLAST_EN 0 then m.skinkReach * 100 else 0
  let r2 := if en then min (m.ballastReach * 100) ((cs.map fun c => Config.fullPower c.site.val).sum * 4 / 5) else 0
  let r3 := if en then m.idleReach * 100 else 0
  let on := en && decide (short > r1)
  let d := d.modPwr fun p => { p with idleHold := en && decide (short > r1 + r2) }
  let d := if on then d.addSat F.PWR_FLOOR_BALLAST_US 0 2 else d
  let d := d.each m.clusters fun d c =>
    let run := on && cs.contains c && Config.powerChoice 1 [c.site.val, d.pwr.ticks] % 2 == 1
    if d.flag F.CLU_PWR_BALLAST c.site.val = run then d else d.setB F.CLU_PWR_BALLAST c.site.val run
  if short > r1 + r2 + r3 then
    (d.addSat F.PWR_FLOOR_SHORT 0 1).modPwr fun p => { p with shortRun := p.shortRun + 1 }
  else d.modPwr fun p => { p with shortRun := 0 }

/-- Ballast stops, and no floor is held (R458, R464). -/
def Dev.noBallast (d : Dev) (m : TickMeas) : Dev :=
  (d.each m.clusters fun d c => if d.flag F.CLU_PWR_BALLAST c.site.val then d.setF F.CLU_PWR_BALLAST c.site.val 0 else d).modPwr
    fun p => { p with shortRun := 0, idleHold := false }

/-- A field's estimate of the tick in mW, the sum of its clusters', and its current at the VSET in force (R450, Table 11-12,
assumption 20). -/
def Dev.fieldTick (d : Dev) (m : TickMeas) (f : Nat) : Dev :=
  let e := ((m.clusters.filter fun c => fieldOf c.site.val == f && !d.siteOut c.site.val).map d.cluPower).sum
  let a := e * 1000 / (700 + 5 * d.fld F.FLD_RAIL_STATUS_VSET f)
  (d.modPwr fun p => { p with amps := sset p.amps 0 f a, fieldHist := sset p.fieldHist [] f ((e :: sget p.fieldHist [] f).take 50) }).setF
    F.FLD_RAIL_LIMIT_EST f (min 255 (a / 2000))

/-- The events of the next tick: none yet, but for ballast k-steps, how many of which run is open (R464, assumption 11). -/
def Dev.newEvents (d : Dev) (m : TickMeas) : Dev :=
  let d := d.each (d.clus.map fun x => x.1) fun d s => d.modClu s fun c => { c with evs := [] }
  d.each m.clusters fun d c =>
    let s := c.site.val
    if d.flag F.CLU_PWR_BALLAST s then d.countEv s evBallast (Config.powerChoice 2 [s, d.pwr.ticks]) else d

/-- The power that the domains of a device wake still ask for (R484). -/
def Dev.wakePend (d : Dev) : Nat := (d.pch.upNext.map Config.wakePower).sum

/-- A device wake admits the domains that wait, in order, while their estimated power fits under the ceiling (R484). -/
def Dev.wakeAdmit (d : Dev) (room : Nat) : List Nat → Dev
  | [] => { d with pch := { d.pch with upNext := [] } }
  | n :: r =>
    if Config.wakePower n ≤ room then (d.demand n true).wakeAdmit (room - Config.wakePower n) r
    else { d with pch := { d.pch with upNext := n :: r } }

/-- Whether NT has reached a multiple of 2,000 ns since the last tick (R447). -/
def Dev.tickDue (d : Dev) : Bool := d.pwr.tickNt ≤ d.ntAt bPWR 0 / 2000 * 2000

/-- Whether the clusters of a field ask for more than its current limit, at the operating points given (R438, R457). -/
def Dev.fieldOver (d : Dev) (m : TickMeas) (xs : List Alloc) (f : Nat) : Bool :=
  let leak := ((m.clusters.filter fun c => fieldOf c.site.val == f).map d.leak).sum
  let lim := d.ilim f * (700 + 5 * d.fld F.FLD_RAIL_STATUS_VSET f) / 1000
  decide (leak + ((xs.filter fun x => fieldOf x.site == f).map Alloc.want).sum > lim)

/-- The sensors of a cluster that is off are read on; nothing is controlled by them (R469, R470). -/
def Dev.darkTemp (d : Dev) (c : CluMeas) : Dev :=
  let s := c.site.val
  (d.sensorTick s c.temps).setF F.THM_CLU_TEMP (fieldOf s) (min 255 (d.cluTemp s c.temps)) (localIx s)

/-- One estimation tick, with what it measures (R447). -/
def Dev.estTick (d : Dev) (m : TickMeas) : Dev :=
  let dark := m.clusters.filter fun c => d.siteOut c.site.val && !d.fieldLost (fieldOf c.site.val)
  let live := d.tickClus m
  let m := { m with clusters := live }
  let d := d.modPwr fun p => { p with tickNt := d.ntAt bPWR 0 + 1 }
  -- estimates (R448 to R450)
  let d := d.modPwr fun p => { p with ticks := p.ticks + 1 }
  let d := d.each live fun d c => d.setF F.CLU_PWR_EST c.site.val (min 65535 (d.cluPower c / 100))
  let pt := (live.map d.cluPower).sum + d.edgePower m
  let d := d.modPwr fun p => { p with hist := (pt :: p.hist).take 16 }
  let d := d.each (List.range 16) fun d f => if d.fieldLost f then d else d.fieldTick m f
  -- measured currents (Tables 11-14, 11-15)
  let d := d.each live fun d c => d.setF F.FLD_LDO_IOUT (fieldOf c.site.val) c.iout.toNat (localIx c.site.val)
  let d := d.each (List.range 16) fun d f =>
    if d.fieldLost f then d else d.setF F.FLD_FABLDO_LOAD f (m.fabLoads.getD f 0).toNat
  -- thermal control before the allocation (R467, rank 2)
  let d := ((d.each live fun d c => d.thermTick c.site.val c.temps).each dark fun d c => d.darkTemp c).showHot
  let d := d.each live fun d c => d.learn c
  -- ceiling (R451, R453, R457, R458)
  let cap := d.fld F.PWR_CAP_EFFECTIVE 0 * 1000
  let cur := d.flag F.PWR_CURTAIL_ACTIVE 0
  let hard := if cur then min cap d.curtCeil else cap
  let base := d.edgePower m + (live.map d.leak).sum
  let demand := base + ((d.allocUnder m hard base).map Alloc.want).sum
  let d := d.slopeTick (min hard (demand + d.wakePend))
  let d := if cur then d.modPwr fun p => { p with slope := min p.slope hard } else d
  let ceiling := min hard d.pwr.slope
  -- allocation (R461)
  let xs := d.allocUnder m ceiling base
  let total := base + (xs.map Alloc.want).sum
  let d := d.each xs fun d x => d.putAlloc x
  let d := (d.wakeAdmit (ceiling - total) d.pch.upNext).floorTick ceiling
  let curt := d.curtCeil
  let d := if cur then (d.modPwr fun p => { p with curtTicks := p.curtTicks + 1 }).noBallast m else d.ballastTick m
  -- the threshold loops (R184)
  let d := d.each live fun d c =>
    d.zskTick c.site.val (decide (d.fld F.CLU_PWR_EST c.site.val > d.fld F.CLU_PWR_ALLOC c.site.val))
  -- conflicts (R460, R468)
  let lowered := xs.any fun x => decide (x.f < min 36 (prefTarget (d.prefEntry (d.clu x.site).phase)))
  let d := d.conflictTick 3 F.PWR_CONFLICT_CURTAIL (cur && decide (total > curt))
  let d := d.conflictTick 4 F.PWR_CONFLICT_CAP (decide (total > cap) || (List.range 16).any fun f => d.fieldOver m xs f)
  let d := d.conflictTick 5 F.PWR_CONFLICT_SLOPE (decide (d.pwr.shortRun > 0) || decide (total > d.pwr.slope))
  let d := d.conflictTick 6 F.PWR_CONFLICT_PREF lowered
  let d := if cur && d.pwr.curtTicks = 500 && total > d.curtLc then d.raise (evU bPWR 0) 4 1 0 else d
  -- what waits for a tick (R442)
  let d := d.admitWaiting.newEvents m
  let d := (d.setF F.PWR_EST_P_AVG 0 (min 65535 (d.pAvg / 1000))).setF F.PWR_EST_P_TICK 0 (min 65535 (pt / 1000))
  let d := (d.setF F.PWR_EST_CEILING 0 (min 65535 (ceiling / 1000))).setF F.PWR_EST_FLOOR 0 (min 65535 (d.pwr.floor / 1000))
  d.setF F.PWR_SLOT_NEXT 0 d.nextSlot

/-- ACTIVITY_RAMP: a quiet cluster's first cube or dot step starts a ramp, or waits for the window (R463). It is named by
its field and its index there (R19). -/
def execActivityRamp (f : FieldN) (k : Fin 16) (s : State) : Host.Outcome State Fault Refusal :=
  s.upd fun d => if d.siteOut (siteOf f.val k.val) then d else d.rampAsk (siteOf f.val k.val)

/-- RAMP_WINDOW: a new window of 64 fabric cycles opens (R463). -/
def execRampWindow (f : FieldN) (s : State) : Host.Outcome State Fault Refusal :=
  s.upd fun d => (d.modPwr fun p => { p with rampIn := sset p.rampIn 0 f.val 0 }).rampGo f.val 4

/-! POWER_PREF (R466). -/

/-- The entry that P0 of a POWER_PREF spells (Table 12-5, Table 12-13). -/
def prefNew (p0 : Nat) : Nat := bitsOf p0 8 2 + 4 * bitsOf p0 16 1 + 256 * bitsOf p0 24 6

/-- Store a preference entry. -/
def Dev.putPref (d : Dev) (ph e : Nat) : Dev := d.modPwr fun p => { p with prefs := sset p.prefs 1 ph e }

/-- POWER_PREF. CLEAR_CAP beside a cap is out of range (assumption 32). -/
def execPowerPref (seq : BitVec 64) (s : State) : Host.Outcome State Fault Refusal :=
  s.upd fun d =>
    match d.running seq.toNat 0x22 with
    | none => d
    | some c =>
      let p0 := ceP c.entry 0
      let p1 := ceP c.entry 1
      let ph := bitsOf p0 0 6
      let sw := bitsOf p1 0 16
      let keep := bitOf p0 32
      let clear := bitOf p1 16
      if bitsOf p0 8 2 = 3 || bitsOf p0 24 6 > 36 || (sw ≠ 0 && (sw < 600 || sw > 2400)) || (clear && sw ≠ 0) then
        d.complete seq.toNat 3 0 0
      else
        let old := d.prefEntry ph
        let d := if keep then d
          else if bitOf p0 6 then d.each (List.range 64) fun d i => d.putPref i (prefNew p0)
          else d.putPref ph (prefNew p0)
        let d := if clear then d.wrSwCap 0 else if sw ≠ 0 then d.wrSwCap sw else d
        let eff := d.effCap (d.pwr.pendSel.getD (d.fld F.PWR_CAP_SEL 0)) (d.pwr.pendSw.getD (d.fld F.PWR_CAP_SW_CAP 0))
        d.complete seq.toNat 0 old eff

end Sys2Proof.Machine
end

