-- ==== Sys2Proof/Machine/Sleep.lean ====
section
/-! DEFINITION. Power states, sleep and wake (spec/13_sleep_and_wake.md): the entries and exits of domains, the device
states, the wake sources, and what a cluster keeps. -/

namespace Sys2Proof.Machine

/-- Change the Porch. -/
def Dev.modPch (d : Dev) (f : PchS → PchS) : Dev := { d with pch := f d.pch }

/-! What a cluster keeps (R73, R74, R486, Table 2-3). -/

/-- Whether a COR register keeps its word in D3: COR_FMAX, the saved set of R486 but for COR_CTRL, and the clock registers
of another rule. -/
def keptInD3 (code : Nat) : Bool :=
  [R.COR_FMAX, R.COR_CHK_CTRL, R.COR_FP_CTRL, R.COR_WAIT_TMO, R.COR_QGEN, R.COR_CHAN0, R.COR_CHAN1].any fun r => r.code == code

/-- The word of a COR register after D3: its ROS fields stand, and of COR_CTRL the field ENTRY; the rest is reset. -/
def afterD3 (r : Reg) (w : Word) : Word :=
  let keep := if r.code = R.COR_CTRL.code then 0x1FFF0000 else r.ros
  (w &&& BitVec.ofNat 64 keep) ||| (r.word &&& ~~~(BitVec.ofNat 64 keep))

/-- A map without the entries whose key lies in a range. -/
def dropRange {β : Type} (m : SMap β) (lo hi : Nat) : SMap β := m.filter fun x => !(decide (lo ≤ x.1) && decide (x.1 < hi))

/-- The site and core of an update record of a kind (R534). -/
def fuseOf (kind x : Nat) : Option (Nat × Nat) :=
  if bitOf x 63 && bitsOf x 60 3 = kind then some (bitsOf x 8 8, bitsOf x 0 6) else none

/-- The cores whose CUBE_RETIRED has the reset value 1: the fuse map or an update record names their cube (R58, R534). -/
def Dev.fusedCubes (d : Dev) : List Nat := d.boot.cubeFused ++ (d.fuses.filterMap (fuseOf 1)).map fun x => cu x.1 x.2

/-- CUBE_RETIRED of cores at its reset value. -/
def Dev.fuseCubes (d : Dev) (us : List Nat) : Dev := d.each us fun d u => d.setB F.COR_CTRL_CUBE_RETIRED u true

/-- The COR registers of a core in D3 take their reset values, the common event registers among them (Table 2-3); the count of
R561 goes on. -/
def Dev.coreRegsOff (d : Dev) (u : Nat) : Dev :=
  let eu := evU bCOR u
  let of (r : Reg) (inst : Nat) : Bool := (r.blk == 1 && inst == u) || (r.blk == 0 && inst == eu)
  let d : Dev := { d with
    evtPend := dropRange d.evtPend (eu * 32) (eu * 32 + 32)
    regs := d.regs.filterMap fun x =>
      match allRegs.find? fun r => r.code == x.1 / 4096 / 4194304 && of r (x.1 / 4096 % 4194304) with
      | none => some x
      | some r =>
        let w := if keptInD3 r.code then x.2 else afterD3 r x.2
        if w = r.word then none else some (x.1, w) }
  d.fuseCubes (d.fusedCubes.filter (· == u))

/-- Write zero with valid ECC to a range of device memory. -/
def State.zeroMem (s : State) (a n : Nat) : State :=
  { s with mem := dropRange s.mem a (a + n), ecc := dropRange s.ecc a (a + n) }

/-- The exit of a compute domain from D3 writes zero to AM, PM and the activation buffer of each core, that from D4 to WM,
SM and, lost with them, the CSM too (R74, R479). -/
def State.zeroCores (s : State) (site : Nat) (all : Bool) : State :=
  let s := if all then s.zeroMem (csmBase site) 0x600000 else s
  s.each (List.range 36) fun s c =>
    let u := cu site c
    let s := if all then s.zeroMem (coreBase site c) 0x150000 else s.zeroMem (coreBase site c + 0x100000) 0x40000
    { s with abuf := dropRange s.abuf (u * 65536) (u * 65536 + 65536) }

/-- The cores of a site that are in service: they serve as logical cores (R573). -/
def Dev.servingCores (d : Dev) (site : Nat) : List Nat := (d.activeCores site).filter fun u => (d.lcoreOf u).isSome

/-- A compute domain reaches D3: its cores are reset, the units' landing buffers and byte counts are emptied, the LDO is in
RETENTION (R486, Table 2-3). -/
def Dev.cluDeep (d : Dev) (site : Nat) : Dev :=
  let d := d.each (((List.range 36).map (cu site)).filter fun u => !d.coreAbsent u) fun d u =>
    let st := d.coreState u
    let d := (d.coreRegsOff u).modCore u fun _ => CoreS.init
    -- a RETIRED core stays so (R79, assumption 129)
    if st = 4 then d.setF F.COR_STATUS_STATE u 4 else d
  let d := (d.emptyLandings (· == site)).modClu site fun x => { x with asu := AsuStep.init }
  (d.setF F.FLD_LDO_STATE (fieldOf site) 3 (localIx site)).setF F.FLD_LDO_VOUT (fieldOf site) 0 (localIx site)

/-! Entries (R135, R477, Table 13-2). -/

/-- The level that the sleep hints of a cluster call for: the shallowest hint of its cores in service, all WAITING or
HALTED; 0 for none (R135). -/
def Dev.hintLevel (d : Dev) (site : Nat) : Nat :=
  let us := d.servingCores site
  if us.isEmpty || us.any (fun u => d.coreState u == 1 || d.coreState u == 3) then 0
  else us.foldl (fun m u => min m (d.fld F.COR_SEQ_STATUS_SLEEP_HINT u)) 3

/-- Whether Transom holds a cluster awake (R200): a hold runs on a pre-woken expert that it serves. -/
def Dev.trnHolds (d : Dev) (site : Nat) : Bool :=
  d.trn.preds.any fun p => (p.holds.filter p.woken.contains).any fun ix =>
    let e := d.trnExp ix
    if expKind e = 1 then (d.homeSites e).contains site else guestSites.contains site

/-- The level a cluster enters in Run: the hinted level within MAX_LVL and R417, or 0 while a hold runs (R477). -/
def Dev.cluLevel (d : Dev) (site : Nat) : Nat :=
  let h := min (d.hintLevel site) (max 1 (d.fld F.CLU_SLEEP_MAX_LVL site))
  if d.trnHolds site then 0
  else if d.role = 3 && d.syncSt = 2 then min 1 h
  -- the third source of ballast holds clusters in Idle (R464)
  else if d.pwr.idleHold && decide ((d.dom site).level ≤ 1) then min 1 h
  else h

/-- Whether the cores of a cluster let it enter D3: none runs, waits or is STOPPED (R73). -/
def Dev.coresHalted (d : Dev) (site : Nat) : Bool := (d.activeCores site).all fun u => d.coreState u == 0

/-- Whether no link of a quad is UP and none is held awake (R398). -/
def Dev.quadQuiet (d : Dev) (q : Nat) : Bool := !d.quadHeld q && (quadLinks q).all fun l => !d.linkIsUp l

/-- Whether the routers of a field hold no flit (Table 13-1: buffers empty; assumption 113). -/
def Dev.fabricEmpty (d : Dev) (f : Nat) : Bool :=
  !(d.net.any fun x => fieldOf x.site == f && decide (x.port < 7)) && !(d.circNet.any fun x => fieldOf x.site == f)

/-- Whether the state of a domain's own units lets it enter a level. -/
def Dev.canEnter (d : Dev) (n lvl : Nat) : Bool :=
  if n < 256 then lvl < 3 || d.coresHalted n
  else if n < 272 then lvl < 3 || d.fabricEmpty (n - 256)
  else if 288 ≤ n && n < 300 then !d.quadData (n - 288) && (lvl < 2 || d.quadQuiet (n - 288))
  else n ≠ domHost || d.fld F.CMD_STATUS_INFLIGHT 0 = 0

/-- Whether a domain may enter a level now: by itself in Run (R477), else the level at which Table 13-2 places it. -/
def Dev.mayEnter (d : Dev) (n lvl : Nat) : Bool :=
  let st := if d.fld F.PCH_PSTATE_STATUS_CHANGING 0 = 1 && !d.pch.waking then d.pch.goal else d.pstate
  if d.pch.waking then false
  else if st = 0 then
    if n < 256 then lvl = d.cluLevel n
    else if (272 ≤ n && n < 306) then lvl ≤ 2
    else n = 306 && lvl ≤ 1
  else n < 308 && lvl = st

/-- Start the entry of a domain to a level. -/
def Dev.enter (d : Dev) (n lvl : Nat) : Dev :=
  let x := d.dom n
  if d.domOut n || x.entering.isSome || x.exiting || lvl ≤ x.level || !d.canEnter n lvl then d
  else d.setDom n fun x => { x with entering := some lvl, deadline := none }

/-- DOMAIN_ENTRY (R477). -/
def execDomainEntry (dom : Fin 312) (level : Fin 4) (s : State) : Host.Outcome State Fault Refusal :=
  s.upd fun d => if d.mayEnter dom.val level.val then d.enter dom.val level.val else d

/-! Device states (R476, R478, R484, R485). -/

/-- Reach a device state: the STATE message is sent (R476). -/
def Dev.reachState (d : Dev) (v : Nat) : Dev :=
  let was := d.pstate
  let d := if v = 3 && was ≠ 3 then d.sleepVset else d
  let d := (d.setF F.PCH_PSTATE_STATUS_STATE 0 v).setF F.PCH_PSTATE_STATUS_CHANGING 0 0
  if was = v then d else d.emit (.sideband 0x10 v)

/-- The domains that a device wake admits as the slope ceiling lets it, in order: link quads, HBM edges, DDR5 pairs, clusters in
field order (R484). -/
def wakeOrder : List Nat :=
  (List.range 12).map (· + 288) ++ (List.range 16).map (· + 272) ++ (List.range 6).map (· + 300) ++ (List.range 16).flatMap fieldSites

/-- Apply a write of JOIN (1) or SOLO (0) of CMD_PAIR_CTRL (Table 10-16). -/
def Dev.pairOp (d : Dev) (op : Nat) : Dev := if op = 1 then d.pairJoin else d.pairSolo

/-- The device has woken: the writes of JOIN and SOLO that waited for it are applied (R602). -/
def Dev.pairWanted (d : Dev) : Dev := (d.each d.pch.pairWant Dev.pairOp).modPch fun p => { p with pairWant := [] }

/-- A device wake ends: the device is in Run, and WAKE_US counts from the first ramp slot (R484, Table 13-11). -/
def Dev.wakeDone (d : Dev) : Dev :=
  let d := d.setF F.PCH_PSTATE_STATUS_WAKE_US 0 (min 0xFFFFFF ((d.now - d.pch.slotAt) / 1000))
  ((d.modPch fun p => { p with waking := false, waitTarget := none }).reachState 0).pairWanted

/-- A device wake (R483, R484): UCIe, the host window and the fabric start their exits at once, the others wait for admission;
with every domain in D0 it ends at once. It has no effect in Run or while a wake runs. -/
def Dev.deviceWake (d : Dev) (src : Nat) : Dev :=
  if d.pstate = 4 || d.pch.waking || (d.pstate = 0 && !d.flag F.PCH_PSTATE_STATUS_CHANGING 0) then d
  else
    let low (n : Nat) : Bool := !d.domOut n && ((d.dom n).level ≠ 0 || (d.dom n).entering.isSome)
    let now := (domUci :: domHost :: (List.range 16).map domFab).filter low
    let later := wakeOrder.filter low
    let d := d.modPch fun p => { p with waking := true, slotAt := d.now + (d.nextSlot - d.ntAt bPWR 0), goal := 0, todo := now ++ later, upNext := later }
    let d := (d.setF F.PCH_PSTATE_STATUS_CHANGING 0 1).setF F.PCH_PSTATE_STATUS_SOURCE 0 src
    let d := d.addSat F.PCH_PSTATE_STATUS_WAKES 0 1
    if (now ++ later).isEmpty then d.wakeDone else d.each now fun d n => d.demand n true

/-- A write of JOIN or SOLO: it is ignored out of service and in FAILSAFE (R608), and in a state other than Run the device first
wakes, with SOURCE 4 (R602). -/
def Dev.pairReq (d : Dev) (op : Nat) : Dev :=
  if d.failsafed || d.fld F.BSQ_STATUS_STATE 0 = 4 || d.pstate = 4 then d
  else if d.pstate = 0 then d.pairOp op
  else (d.modPch fun p => { p with pairWant := p.pairWant ++ [op] }).deviceWake 4

/-- JOIN. -/
def execJoin (s : State) : Host.Outcome State Fault Refusal := s.upd fun d => d.pairReq 1

/-- SOLO. -/
def execSolo (s : State) : Host.Outcome State Fault Refusal := s.upd fun d => d.pairReq 0

/-- Refuse a request for a device state (R478). -/
def Dev.refuseState (d : Dev) (reason : Nat) : Dev :=
  (d.setF F.PCH_PSTATE_STATUS_REJ 0 1).setF F.PCH_PSTATE_STATUS_REASON 0 reason

/-- Off (R485): every domain goes to D4, the rail enable falls, and everything but the wake well, the fuses and the flash
loses its contents. Pin 1 is RAIL_EN. -/
def State.goOff (s : State) : State :=
  let s := s.onDev fun d => (d.emit (.sideband 0x10 4)).emit (.pin 1 false)
  (s.dieReset false).onDev fun d =>
    let d := (d.setF F.PCH_PSTATE_STATUS_STATE 0 4).setF F.PCH_PSTATE_CTRL_TARGET 0 4
    d.each (List.range 312) fun d n => if n = 309 then d else d.setDom n fun x => { x with level := 4 }

/-- Start the change to a device state other than Run and Off: each domain enters its rest as soon as it can, one that rests deeper
leaves that state first; links start to sleep (Table 13-2, R398; assumption 34). -/
def Dev.startState (d : Dev) (v : Nat) : Dev :=
  let d := if v ≥ 2 then d.each (List.range 48) fun d l => d.linkSleep l else d
  let ds := (List.range 308).filter fun n => !d.domOut n && !((d.dom n).level = v && (d.dom n).entering.isNone && !(d.dom n).exiting)
  let d := d.modPch fun p => { p with goal := v, todo := ds }
  let d := d.setF F.PCH_PSTATE_STATUS_CHANGING 0 1
  let d := d.each ds fun d n =>
    if decide ((d.dom n).level > v) || decide ((d.dom n).entering.getD 0 > v) then d.demand n false else d.enter n v
  if ds.isEmpty then d.reachState v else d

/-- A domain that a device state change waits for and that no wake source took to D0 enters its rest (Table 13-2). -/
def Dev.restOn (d : Dev) (n : Nat) : Dev :=
  if d.flag F.PCH_PSTATE_STATUS_CHANGING 0 && !d.pch.waking && d.pch.todo.contains n then d.enter n d.pch.goal else d

/-- A request for a device state (R478). -/
def State.requestState (s : State) (v : Nat) : State :=
  let d := s.dev
  if d.pch.waking then s.onDev fun d => d.modPch fun p => { p with waitTarget := some v }
  else if v ≥ 5 then s.onDev fun d => d.refuseState 3
  else if v = 0 then s.onDev fun d => d.deviceWake 4
  else
    let cur := if d.flag F.PCH_PSTATE_STATUS_CHANGING 0 then d.pch.goal else d.pstate
    if d.pstate = 4 || v = cur then s
    else if v < cur then s.onDev fun d => d.startState v
    else if d.fld F.CMD_STATUS_INFLIGHT 0 ≠ 0 then s.onDev fun d => d.refuseState 1
    else if v ≥ 2 && (d.role = 2 || d.role = 3) && d.syncSt ≠ 0 then s.onDev fun d => d.refuseState 2
    else
      let s := if v ≥ 3 then s.sessionSave.onDev fun d => d.showActive else s
      if v = 4 then s.goOff else s.onDev fun d => d.startState v

/-- A write of PCH_PSTATE_CTRL (Table 13-10). -/
def State.wrPstate (s : State) (v : Nat) : State :=
  (s.onDev fun d => d.setF F.PCH_PSTATE_CTRL_TARGET 0 v).requestState v

/-- TARGET (R478). -/
def execTarget (v : BitVec 3) (s : State) : Host.Outcome State Fault Refusal := s.done (s.wrPstate v.toNat)

/-- A domain reached its rest or D0, or is waited for no more: when it was the last one, the device state change ends
(R476, R484, R490). -/
def State.settled (s : State) (n : Nat) : State :=
  let d := s.dev
  if !d.flag F.PCH_PSTATE_STATUS_CHANGING 0 then s
  else
    let left := d.pch.todo.filter fun x => x != n && !d.domOut x
    let s := s.onDev fun d => d.modPch fun p => { p with todo := left }
    if !left.isEmpty then s
    else if d.pch.waking then
      let s := s.onDev Dev.wakeDone
      match d.pch.waitTarget with
      | some v => s.requestState v
      | none => s
    else s.onDev fun d => d.reachState d.pch.goal

/-- A device state change that waits for lost domains only has ended. -/
def Dev.changeLost (d : Dev) : Bool := d.flag F.PCH_PSTATE_STATUS_CHANGING 0 && d.pch.todo.all d.domOut

/-- The state with a device in which domains may be lost: a device state change that waited for no other ends (R490). -/
def State.lostEnd (s : State) (d : Dev) : State :=
  if d.changeLost then (s.onDev fun _ => d).settled 312 else s.onDev fun _ => d

/-- A command changes the device and may lose domains (R490). -/
def State.updLost (s : State) (f : Dev → Dev) : Host.Outcome State Fault Refusal :=
  if (f s.dev).changeLost then s.done (s.lostEnd (f s.dev)) else s.upd f

/-- A fabric domain reaches D3: its PLLs stop, and its power-good falls, so that the receivers that face it clamp (R28, R489,
Table 13-1). -/
def Dev.fabDeep (d : Dev) (f : Nat) : Dev :=
  let off (p : Fld) (d : Dev) : Dev := if d.fld p f = 3 then d else d.setF p f 0
  off F.FLD_CLK_PLL1 (off F.FLD_CLK_PLL0 (d.pgFall f))

/-- A fabric domain leaves D3: its power-good rises, if it has not yet (R30), and its PLLs lock, the active one of before
(Tables 13-1, 14-12). -/
def Dev.fabUp (d : Dev) (f : Nat) : Dev :=
  let on (p : Fld) (v : Nat) (d : Dev) : Dev := if d.fld p f = 3 then d else d.setF p f v
  let one := d.flag F.FLD_CLK_ACTIVE f
  on F.FLD_CLK_PLL1 (if one then 2 else 1) (on F.FLD_CLK_PLL0 (if one then 1 else 2) (d.pgRise f))

/-- DOMAIN_ENTRY_COMPLETE: the entry ends; a demand that came during it starts the exit at once (R481). -/
def execDomainEntryComplete (dom : Fin 312) (s : State) : Host.Outcome State Fault Refusal :=
  let n := dom.val
  match (s.dev.dom n).entering with
  | none => s.done s
  | some lvl =>
    let s1 := s.onDev fun d =>
      let d := d.setDom n fun x => { x with level := lvl, entering := none }
      let d := if n ≥ 272 then d
        else if n ≥ 256 then (if lvl ≥ 3 then d.fabDeep (n - 256) else d)
        else if lvl = 2 then d.setF F.FLD_LDO_VOUT (fieldOf n) 10 (localIx n)
        else if lvl ≥ 3 then d.cluDeep n else d
      if (d.dom n).demand then (d.setDom n fun x => { x with demand := false }).demand n (d.dom n).source else d.restOn n
    s.done (if !s.dev.pch.waking && lvl = s.dev.pch.goal then s1.settled n else s1)

/-- The exit of a compute domain ends: the clocks run, a cluster from D3 or D4 has its AM, PM and buffers zeroed and its
cores HALTED, and with RESUME_EN and a wake source as the cause they start at RESUME_IDX (R74, R479, R487). -/
def State.cluUp (s : State) (site lvl : Nat) (source : Bool) : State :=
  let s := if lvl ≥ 3 then s.zeroCores site (decide (lvl ≥ 4)) else s
  s.onDev fun d =>
    let f := fieldOf site
    let k := localIx site
    let d := if lvl ≥ 2 then (d.setF F.FLD_LDO_STATE f 2 k).setF F.FLD_LDO_VOUT f (d.fld F.FLD_LDO_VSET f k) k else d
    let d := if lvl ≥ 3 then d.addSat F.CLU_SLEEP_DEEP_WAKES site (if lvl = 3 then 1 else 0) else d.addSat F.CLU_SLEEP_WAKES site 1
    -- the Chameleons relock (R502)
    let d := if lvl ≥ 3 then d.each (d.activeCores site) fun d u => d.setF F.COR_CLK_FLL_LOCK u 1 else d
    let d := d.showClk site
    if lvl = 3 && source && d.flag F.CLU_SLEEP_RESUME_EN site then
      d.each (d.servingCores site) fun d u => (d.setF F.COR_CTRL_ENTRY u (d.fld F.CLU_SLEEP_RESUME_IDX site)).coreRun u
    else d

/-- Whether a cluster in D1 or D2 leaves it because a sleep hint ended (R135, Table 13-4). -/
def Dev.hintEnded (d : Dev) (n : Nat) : Bool :=
  n < 256 && (d.dom n).entering.isNone && ((d.dom n).level = 1 || (d.dom n).level = 2) && d.pstate = 0 &&
  !d.flag F.PCH_PSTATE_STATUS_CHANGING 0 && d.hintLevel n < (d.dom n).level && !d.domOut n

/-- DOMAIN_EXIT: a domain reaches D0 and serves accesses again (R479); in Off nothing wakes (R483). -/
def execDomainExit (dom : Fin 312) (s : State) : Host.Outcome State Fault Refusal :=
  let n := dom.val
  let x := s.dev.dom n
  if (x.exiting || s.dev.hintEnded n) && s.dev.pstate ≠ 4 then
    let s1 := s.onDev fun d => d.setDom n fun x => { DomS.init with deadline := x.deadline, upAt := d.now }
    let s2 := if n < 256 then s1.cluUp n x.level (x.source || !x.exiting) else s1
    let s3 := s2.onDev fun d =>
      let d := if 288 ≤ n && n < 300 then d.quadUp (n - 288)
        else if 256 ≤ n && n < 272 && x.level ≥ 3 then d.fabUp (n - 256) else d
      let d := if x.source then d else d.restOn n
      if n = domUci then d.sillPump.sillIdle else d
    s.done (if s.dev.pch.waking then s3.settled n else s3)
  else s.done s

/-! Wake sources (R482, R483, R617). -/

/-- FIRST_ACCESS: an access to a domain below D0 demands it; the access itself waits where it is (R482). In Off nothing but
WAKE_N acts, and the boot domain serves no access. -/
def execFirstAccess (dom : Fin 312) (s : State) : Host.Outcome State Fault Refusal :=
  s.upd fun d => if d.pstate = 4 || dom.val ≥ 308 then d else d.demand dom.val true

/-- WAKE_N: an assertion wakes the device; from Off it raises the rail enable (R483, R485). -/
def execWakeN (s : State) : Host.Outcome State Fault Refusal :=
  s.upd fun d =>
    let d := d.modPch fun p => { p with pinIgnored := false }
    if d.pstate = 4 then d.emit (.pin 1 true)
    else if d.flag F.PCH_WAKE_CTRL_PIN_EN 0 then d.deviceWake 1 else d

/-- WAKE_ALARM: NT reached PCH_WAKE_AT with the alarm enabled; a time wakes once (R483). -/
def execWakeAlarm (s : State) : Host.Outcome State Fault Refusal :=
  s.upd fun d =>
    let at_ := d.fld F.PCH_WAKE_AT_NT 0
    if d.flag F.PCH_WAKE_CTRL_ALARM_EN 0 && d.ntAt bPCH 0 ≥ at_ && d.pch.alarmAt ≠ some at_ && d.pstate ≠ 4 then
      (d.modPch fun p => { p with alarmAt := some at_ }).deviceWake 3
    else d

/-! Failures of a wake (R491). -/

/-- WAKE_FAIL: a domain did not reach D0 in twice its exit time; the device is in Run without it (R484, R491). -/
def execWakeFail (dom : Fin 312) (s : State) : Host.Outcome State Fault Refusal :=
  let n := dom.val
  let x := s.dev.dom n
  if x.exiting || (x.demand && x.entering.isNone) || s.dev.hintEnded n then
    let s1 := s.onDev fun d =>
      let d := d.setDom n fun x => { x with exiting := false, demand := false }
      if n < 256 then d.raise (evU bCLU n) 10 2 0 else d.raise (evU bPCH 0) 1 2 n
    s.done (if s.dev.pch.waking then s1.settled n else s1)
  else s.done s

/-- WAKE_SLOW: a device wake exceeded its bound (R491); while curtail holds it is not raised (R603). -/
def execWakeSlow (s : State) : Host.Outcome State Fault Refusal :=
  s.upd fun d => if d.pch.waking && !d.flag F.PWR_CURTAIL_ACTIVE 0 then d.raise (evU bPCH 0) 2 0 0 else d

/-- WAKE_PIN_STUCK: 100 ms low after its wake, WAKE_N is ignored until it has been high for 1 ms (R491, R617). -/
def execWakePinStuck (s : State) : Host.Outcome State Fault Refusal :=
  s.upd fun d => if d.pch.pinIgnored then d else (d.modPch fun p => { p with pinIgnored := true }).raise (evU bPCH 0) 3 0 0

/-! What may lose a field or a domain, and with it the last one that a device state change waits for (R490). -/

/-- PHASE_STATUS_READ (R428, R438): the good phases set the field's limits, or lose the field. -/
def execPhaseStatusRead (f : FieldN) (answered : Bool) (good : BitVec 5) (s : State) : Host.Outcome State Fault Refusal :=
  s.updLost fun d =>
    let f := f.val
    let g := good.toNat
    if d.fieldLost f then d
    else
      let was := d.fld F.FLD_RAIL_STATUS_PHASES f
      let d := d.avsRead f 1 0 answered
      if !answered then d
      else
        if g ≤ 17 then ((d.setF F.FLD_RAIL_STATUS_PHASES f g).shed f).fieldLoss f
        else
          let d := d.setPhases f g
          if g < was then d.raise (evU bFLD f) 2 (if g ≤ 19 then 1 else 0) detField else d

/-- LDO_FAIL (R434): an output out of its band counts only while the LDO is ON. -/
def execLdoFail (site : Site) (cause : LdoCause) (s : State) : Host.Outcome State Fault Refusal :=
  s.updLost fun d =>
    let st := d.fld F.FLD_LDO_STATE (fieldOf site.val) (localIx site.val)
    if st = 2 || (cause = .overCurrent && st = 1) then d.ldoFail site.val (some cause) false else d

/-- FABLDO_FAIL (R435): one LDO is disconnected and the other carries the load; when both have failed the field is lost. -/
def execFabldoFail (f : FieldN) (ldo1 : Bool) (s : State) : Host.Outcome State Fault Refusal :=
  s.updLost fun d =>
    let f := f.val
    let mine := if ldo1 then F.FLD_FABLDO_STATE1 else F.FLD_FABLDO_STATE0
    let other := if ldo1 then F.FLD_FABLDO_STATE0 else F.FLD_FABLDO_STATE1
    if d.fieldLost f || d.fld mine f = 3 then d
    else
      let d := d.setF mine f 3
      let d := if d.fld other f = 3 then d else d.setF other f 2
      let d := d.raise (evU bFLD f) 4 1 detField
      if d.fld other f = 3 then d.fieldLoss f else d

/-- FIELD_LOSS: the package monitor finds a field rail below 0.60 V (R439). A Merif in reset stays there (R426); a cold start goes
on under the field's variant (R552). -/
def execFieldLoss (f : FieldN) (s : State) : Host.Outcome State Fault Refusal :=
  if s.dev.fld F.BSQ_STATUS_STATE 0 = 0 then s.done (s.dieReset false)
  else s.updLost fun d => (d.setFbit F.PWR_RAIL_STATUS_FIELD_PG 0 f.val false).fieldLoss f.val

/-- RAIL_LOSS (R426, R441): the domains that the rail feeds are lost, the Cellar becomes ABSENT, or the die returns to reset. -/
def execRailLoss (rail : Fin 20) (s : State) : Host.Outcome State Fault Refusal :=
  let r := rail.val
  if r = 17 || r = 18 || s.dev.starting then s.done (s.dieReset false)
  else s.updLost fun d =>
    let d : Dev := { d with pch := { d.pch with rails := false, down := r :: d.pch.down } }
    let d := (d.setFbit F.PWR_RAIL_STATUS_RAIL_PG 0 r false).railOut r
    if r = 15 then d.raise (evU bPWR 0) 2 2 r
    else if r < 17 then d.raise (evU bPWR 0) 2 5 r
    else d

end Sys2Proof.Machine
end

