-- ==== Sys2Proof/Machine/Time.lean ====
section
/-! DEFINITION. Clocks and network time (spec/14_clocks_and_time.md): the field PLLs, the reference, the timebases, the
Chameleons, the PTP servo and the pulse per second. -/

namespace Sys2Proof.Machine

/-- Change network time. -/
def Dev.modTim (d : Dev) (f : TimS → TimS) : Dev := { d with tim := f d.tim }

/-! PLLs, the reference and the Chameleons (R494 to R502). -/

/-- The state field of a PLL. -/
def pllFld (pll1 : Bool) : Fld := if pll1 then F.FLD_CLK_PLL1 else F.FLD_CLK_PLL0

/-- The circuit flits on their way into the routers of a field whose frames are being realigned are discarded as unclaimed (R252,
R495; assumption 114). -/
def Dev.loseFrames (d : Dev) (f : Nat) : Dev :=
  let here (x : CircFlight) : Bool := fieldOf x.site == f && x.slots.isNone
  Dev.each { d with circNet := d.circNet.filter fun x => !here x } (d.circNet.filter here) fun d x => d.unclaimed x.site x.port

/-- PLL_FAIL: a PLL fails. The spare takes over from a failed active PLL; without it the field is lost (R495, R496). A
spare that fails raises nothing. -/
def execPllFail (f : FieldN) (pll1 : Bool) (s : State) : Host.Outcome State Fault Refusal :=
  s.updLost fun d =>
    let f := f.val
    let st := d.fld (pllFld pll1) f
    if d.fieldLost f || st = 0 || st = 3 then d
    else
      let d := d.setF (pllFld pll1) f 3
      if d.fld (pllFld (!pll1)) f = 3 then (d.raise (evU bFLD f) 8 4 (32 + b2n pll1)).fieldLoss f
      else if st = 2 then
        (((d.setF (pllFld (!pll1)) f 2).setB F.FLD_CLK_ACTIVE f (!pll1)).loseFrames f).raise (evU bFLD f) 7 1 (32 + b2n pll1)
      else d

/-- Show which source the field PLLs and the time block follow. -/
def Dev.showRef (d : Dev) (v : Nat) : Dev :=
  d.each (List.range 16) fun d f => if d.fieldLost f then d else d.setF F.FLD_CLK_REF f v

/-- REF_LOSS (R498): every PLL and the time block move to the Porch oscillator. -/
def execRefLoss (s : State) : Host.Outcome State Fault Refusal :=
  s.upd fun d =>
    if d.flag F.TIM_STATUS_REF 0 then d
    else ((d.setF F.TIM_STATUS_REF 0 1).showRef 1).raise (evU bTIM 0) 1 1 0

/-- REFCLK_RESTORE: after 1 ms of good REFCLK, Merif returns to it (R498). -/
def execRefclkRestore (s : State) : Host.Outcome State Fault Refusal :=
  s.upd fun d => if d.flag F.TIM_STATUS_REF 0 then (d.setF F.TIM_STATUS_REF 0 0).showRef 0 else d

/-- OSC_TRIM: while REFCLK is good, the Porch trims its oscillator (R497). -/
def execOscTrim (s : State) : Host.Outcome State Fault Refusal :=
  s.upd fun d => if d.flag F.TIM_STATUS_REF 0 then d else d.modPch fun p => { p with trimAt := some d.now }

/-- DROOP: cycles lengthened by a supply droop are counted, and the next sense word of the field says so (R501). -/
def execDroop (c : Core) (cycles : Nat) (s : State) : Host.Outcome State Fault Refusal :=
  s.upd fun d =>
    let u := cu c.site.val c.core.val
    let f := fieldOf c.site.val
    if d.siteOut c.site.val || d.coreAbsent u || cycles = 0 then d
    else (d.addSat F.COR_CLK_STRETCH u cycles).modPwr fun p => { p with droop := f :: p.droop.filter (· != f) }

/-- CLK_FAIL: the Chameleon of a core failed; the core is STOPPED and Newt replaces it (R502). -/
def execClkFail (c : Core) (s : State) : Host.Outcome State Fault Refusal :=
  s.upd fun d =>
    let u := cu c.site.val c.core.val
    if d.siteOut c.site.val || d.coreAbsent u || d.coreState u = 4 then d
    else
      let d := (d.setF F.COR_CLK_FLL_LOCK u 0).coreOff u 3
      let d := d.modCore u fun x => { x with cd := [], v := [], m := [], held := none, halting := 0 }
      (d.askCore u).raise (evU 1 u) 11 2 0

/-! The servo (R507, R512, R513). Offsets are in 2^−17 ns: half the unit of NT's fraction, as R512 halves a sum of stamps. Rates are in
0.01 ppb; `integ` has 31 more binary places, so that it is exact. -/

/-- A signed field of 32 bits. -/
def s32 (v : Nat) : Int := if v % 2 ^ 32 < 2 ^ 31 then (v % 2 ^ 32 : Nat) else ((v % 2 ^ 32 : Nat) : Int) - 2 ^ 32

/-- The code of a signed value in w bits, saturated. -/
def satCode (w : Nat) (v : Int) : Nat :=
  let m : Int := 2 ^ (w - 1)
  let x := if v < -m then -m else if v ≥ m then m - 1 else v
  (if x < 0 then x + 2 ^ w else x).toNat

/-- Clamp to ± m. -/
def clampI (m v : Int) : Int := if v < -m then -m else if v > m then m else v

/-- A quotient that the manual does not round: one of the two integers about it (assumption 10). -/
def openDiv (what : Nat) (n k : Int) : Int :=
  if n % k = 0 then n / k else n / k + Config.servoChoice what [n, k] % 2

/-! Timebases (R505 to R507, assumption 35). -/

/-- A field takes the steps made since the last beacon, and slews towards the beacon by at most 1 ns; TB_ERR shows the error that the
beacon found (R505, R507). -/
def Dev.beaconAt (d : Dev) (f : Nat) : Dev :=
  let err := d.tbErr f + d.tim.due
  let d := { d with tim := { d.tim with tb := sset d.tim.tb 0 f (sget d.tim.tb 0 f + d.tim.due - clampI 40000000000 err) } }
  (d.setF F.FLD_CLK_TB_ERR f (satCode 16 (openDiv 5 err 40000000000))).setF F.FLD_CLK_TB_LOST f 0

/-- BEACON: each field receives a beacon (R505). -/
def execBeacon (s : State) : Host.Outcome State Fault Refusal :=
  s.upd fun d =>
    let d := d.each ((List.range 16).filter fun f => !d.fieldLost f) fun d f => d.beaconAt f
    d.modTim fun t => { t with due := 0 }

/-- TB_LOST: no beacon reached a field for 10 µs (R506). -/
def execTbLost (f : FieldN) (s : State) : Host.Outcome State Fault Refusal :=
  s.upd fun d =>
    if d.fieldLost f.val || d.flag F.FLD_CLK_TB_LOST f.val then d
    else (d.setF F.FLD_CLK_TB_LOST f.val 1).raise (evU bFLD f.val) 9 0 detField

/-- The time state (Table 14-3). -/
def Dev.timSt (d : Dev) : Nat := d.fld F.TIM_STATUS_STATE 0

/-- SRC with its unused code (Table 14-7). -/
def Dev.timSrc (d : Dev) : Nat := if d.fld F.TIM_CTRL_SRC 0 = 3 then 0 else d.fld F.TIM_CTRL_SRC 0

/-- LOCK_THR in ns (Table 14-9). -/
def Dev.lockThr (d : Dev) : Nat := max 1 (d.fld F.TIM_SERVO_LOCK_THR 0)

/-- Enter a time state; the runs of samples start anew. -/
def Dev.enterTim (d : Dev) (st : Nat) : Dev :=
  (d.setF F.TIM_STATUS_STATE 0 st).modTim fun t => { t with inRun := 0, outRun := 0 }

/-- Enter HOLDOVER: FREQ_ADJ holds the mean of its last 64 values (R513). -/
def Dev.holdover (d : Dev) : Dev :=
  let fs := d.tim.freqs
  let d := if fs.isEmpty then d else d.setF F.TIM_SERVO_FREQ_ADJ 0 (satCode 32 (openDiv 1 fs.sum fs.length))
  (d.enterTim 3).raise (evU bTIM 0) 3 0 0

/-- Step NT by an offset in 2^−17 ns. The fields take the step at the next beacon, the estimation tick in progress ends, and ramp slots
go by the stepped NT (R507, R508). -/
def Dev.stepNt (d : Dev) (off : Int) : Dev :=
  let d := d.modTim fun t =>
    let sub := ((t.sub : Int) - off * 20000000000 / 65536).toNat
    let by_ : Int := (sub : Int) - t.sub
    { t with sub := sub, skew := t.skew + by_, lag := t.lag - by_, due := t.due + by_, integ := 0 }
  let d : Dev := { d with pwr := { d.pwr with tickNt := 0, slotNt := d.nt } }
  (d.addSat F.TIM_STATUS_STEPS 0 1).raise (evU bTIM 0) 2 0 0

/-- Count a sample for the states ACQUIRING and LOCKED (Table 14-3). -/
def Dev.lockCount (d : Dev) (off : Int) : Dev :=
  let thr : Int := d.lockThr
  if d.timSt = 1 then
    let n := if off.natAbs ≤ 131072 * thr.toNat then d.tim.inRun + 1 else 0
    if n ≥ 16 then ((d.enterTim 2).setF F.TIM_STATUS_EVER_LOCKED 0 1).modTim fun t => { t with acquired := true } else d.modTim fun t => { t with inRun := n }
  else if d.timSt = 2 then
    let n := if off.natAbs > 524288 * thr.toNat then d.tim.outRun + 1 else 0
    if n ≥ 4 then d.enterTim 1 else d.modTim fun t => { t with outRun := n }
  else d

/-- A servo sample (R512): `off` is the offset in 2^−17 ns, `log` the logarithm of the sync interval (−7 to 0). A step is allowed at
the first acquisition, which lasts until LOCKED or a warm reset during ACQUIRING, and, with STEP_EN, at later ones (R507, R518,
assumption 123). -/
def Dev.sample (d : Dev) (off : Int) (log : Int) : Dev :=
  let d := d.setF F.TIM_PATH_OFFSET 0 (satCode 32 (openDiv 2 off 131072))
  let stepOk := d.timSt = 1 && (!d.tim.acquired || d.flag F.TIM_CTRL_STEP_EN 0)
  if off.natAbs > 131072000000 && stepOk then (d.stepNt off).modTim fun t => { t with inRun := 0 }
  else
    let max : Int := 20000000 * 2147483648
    let rate := off * 50 * 2 ^ (-log).toNat * 32768
    let integ := clampI max (d.tim.integ + rate / 2 ^ d.fld F.TIM_SERVO_KI_SH 0)
    let adj := clampI 20000000 (openDiv 3 (-(rate / 2 ^ d.fld F.TIM_SERVO_KP_SH 0 + integ)) 2147483648)
    let d := d.modTim fun t => { t with integ := integ, freqs := (adj :: t.freqs).take 64 }
    (d.setF F.TIM_SERVO_FREQ_ADJ 0 (satCode 32 adj)).lockCount off

/-- A PTP sample from twice-ns terms: `a` is t2 − t1 − c_sync and `b` is t4 − t3 − c_dresp. A sample whose delay exceeds the
least of the last 16 by more than 1 µs is ignored (R512). -/
def Dev.ptpSample (d : Dev) (a b : Int) (log : Int) : Dev :=
  let delay2 := a + b
  let ds := (delay2 :: d.tim.delays).take 16
  let least := ds.foldl min delay2
  let d := (d.modTim fun t => { t with delays := ds }).setF F.TIM_PATH_DELAY 0
    (min 0xFFFFFFFF (openDiv 4 delay2 2).toNat)
  if delay2 > least + 2000 then d.addSat F.TIM_STATUS_IGNORED 0 1 else d.sample ((a - b) * 65536) log

/-- Whether PTP drives the servo now: discipline enabled, SRC 0 or 2. -/
def Dev.ptpOn (d : Dev) : Bool := d.flag F.TIM_CTRL_EN 0 && d.timSrc ≠ 1

/-- Count a discarded message (R510). -/
def Dev.ptpIgnore (d : Dev) : Dev := d.addSat F.TIM_STATUS_IGNORED 0 1

/-- Whether a message lies inside the subset of Table 14-2: supported, of the domain, on the transport that TRANSPORT selects
(assumption 136). -/
def Dev.ptpIn (d : Dev) (dom : Nat) (udp supported : Bool) : Bool :=
  supported && dom = d.fld F.TIM_CTRL_DOMAIN 0 && udp == d.flag F.TIM_CTRL_TRANSPORT 0

/-- The selected master sends a message. -/
def Dev.fromMaster (d : Dev) (source : BitVec 64) : Bool := match d.tim.master with
  | some m => m.source == source
  | none => false

/-- A source has returned: HOLDOVER and PPS end (Table 14-3). -/
def Dev.sourceBack (d : Dev) : Dev :=
  if d.timSt = 0 || d.timSt = 3 || d.timSt = 4 then d.enterTim 1 else d

/-- A Sync with its origin time known is paired with the latest Delay_Resp (R512). -/
def Dev.paired (d : Dev) (a : Int) (log : Int) : Dev :=
  let d := d.sourceBack.modTim fun t => { t with sync := none, logSync := log, syncAt := d.now }
  match d.tim.path2 with
  | some b => d.ptpSample a b log
  | none => d

/-- t2: the stamp of a reception, corrected by the ingress latency (R511). -/
def Dev.rxStamp (d : Dev) (t : Nat) : Int := (t : Int) - s32 (d.fld F.TIM_ASYM_INGRESS 0)

/-- SYNC (R510, R512): a two-step Sync waits for its Follow_Up. -/
def execSync (m : PtpMsg) (s : State) : Host.Outcome State Fault Refusal :=
  s.upd fun d =>
    if !d.ptpIn m.domain.toNat m.udp (m.supported && decide (-7 ≤ m.logInterval) && decide (m.logInterval ≤ 0)) then d.ptpIgnore
    else if !d.ptpOn then d
    else if !d.fromMaster m.source then d
    else if m.twoStep then d.modTim fun t => { t with sync := some m }
    else d.paired (d.rxStamp m.received - m.origin - m.correction) m.logInterval

/-- FOLLOW_UP: it gives the origin time of the two-step Sync that waits (R510). -/
def execFollowUp (m : PtpMsg) (s : State) : Host.Outcome State Fault Refusal :=
  s.upd fun d =>
    if !d.ptpIn m.domain.toNat m.udp m.supported then d.ptpIgnore
    else if !d.ptpOn then d
    else match d.tim.sync with
      | none => d
      | some y =>
        if y.source = m.source ∧ y.seq = m.seq ∧ d.fromMaster m.source then
          d.paired (d.rxStamp y.received - m.origin - y.correction - m.correction) y.logInterval
        else d

/-- DELAY_REQ: the time port sends a Delay_Req at t3, corrected by the egress latency (R510, R511). -/
def execDelayReq (t3 : Nat) (s : State) : Host.Outcome State Fault Refusal :=
  s.upd fun d =>
    if d.ptpOn && d.tim.master.isSome then
      let n := (d.tim.reqSeq + 1) % 65536
      (d.modTim fun t =>
        { t with reqSeq := n, reqT3 := some (((t3 : Int) + s32 (d.fld F.TIM_ASYM_EGRESS 0)).toNat) }).emit (.delayReq n)
    else d

/-- DELAY_RESP: it gives t4 of the Delay_Req sent last (R510, R512). Its `origin` is the receive time stamp. -/
def execDelayResp (m : PtpMsg) (s : State) : Host.Outcome State Fault Refusal :=
  s.upd fun d =>
    if !d.ptpIn m.domain.toNat m.udp m.supported then d.ptpIgnore
    else if !d.ptpOn then d
    else match d.tim.reqT3 with
      | none => d
      | some t3 =>
        if d.fromMaster m.source && m.seq.toNat = d.tim.reqSeq then
          d.modTim fun t => { t with reqT3 := none, path2 := some ((m.origin : Int) - t3 - m.correction) }
        else d

/-! Master selection (R510, R513). -/

/-- The standard's comparison of two datasets as a list of numbers, less being better (assumption 36). -/
def annKey (m : PtpAnnounce) : List Nat :=
  [m.priority1.toNat, m.clockClass.toNat, m.accuracy.toNat, m.variance.toNat, m.priority2.toNat, m.identity.toNat,
   m.steps.toNat, m.source.toNat]

/-- Whether the first list comes before the second. -/
def lexLt : List Nat → List Nat → Bool
  | a :: r, b :: q => a < b || (a == b && lexLt r q)
  | _, _ => false

/-- The best of the qualified foreign masters: two Announces make one qualified (assumption 36). -/
def bestMaster (xs : List (PtpAnnounce × Nat)) : Option PtpAnnounce :=
  xs.foldl (fun b x =>
    if x.2 < 2 then b
    else match b with
      | none => some x.1
      | some y => if lexLt (annKey x.1) (annKey y) then some x.1 else b) none

/-- Follow the outcome of the dataset comparison: a change of master takes the state to ACQUIRING (R513). -/
def Dev.choose (d : Dev) : Dev :=
  match bestMaster d.tim.foreign with
  | none => d
  | some m =>
    let same := d.fromMaster m.source
    let d := d.modTim fun t => { t with master := some m }
    if same then d
    else
      let d := d.modTim fun t => { t with sync := none, reqT3 := none, path2 := none, delays := [], syncAt := d.now, annAt := d.now,
                                          annLog := m.logInterval }
      (d.setR R.TIM_MASTER 0 m.source).enterTim 1

/-- ANNOUNCE (R510). -/
def execAnnounce (m : PtpAnnounce) (s : State) : Host.Outcome State Fault Refusal :=
  s.upd fun d =>
    if !d.ptpIn m.domain.toNat m.udp m.supported then d.ptpIgnore
    else if !d.ptpOn then d
    else
      let d := if d.fromMaster m.source then d.modTim fun t => { t with annAt := d.now, annLog := m.logInterval } else d
      let n := match d.tim.foreign.find? fun x => x.1.source == m.source with
        | some x => min 2 (x.2 + 1)
        | none => 1
      let d := d.modTim fun t => { t with foreign := (m, n) :: t.foreign.filter fun x => x.1.source != m.source }
      d.choose

/-- A time of 2^log seconds, in ns. -/
def logNs (log : Int) : Nat := if log < 0 then 1000000000 / 2 ^ (-log).toNat else 1000000000 * 2 ^ log.toNat

/-- ANN_TMO in intervals: values outside 2 to 10 act as 3 (Table 14-7). -/
def Dev.annTmo (d : Dev) : Nat :=
  let n := d.fld F.TIM_CTRL_ANN_TMO 0
  if n < 2 || n > 10 then 3 else n

/-- Without its source the clock goes to PPS or HOLDOVER; before the first lock the state stays (R513, assumption 37). -/
def Dev.sourceGone (d : Dev) : Dev :=
  if d.timSrc = 2 && d.flag F.TIM_STATUS_PPS_VALID 0 then (if d.timSt = 4 then d else d.enterTim 4)
  else if d.flag F.TIM_STATUS_EVER_LOCKED 0 then (if d.timSt = 3 then d else d.holdover)
  else d

/-- SOURCE_LOSS (R513): no Sync was accepted for 4 intervals, and the master stays selected while its Announces go on, or its Announces
stopped, and the master is no longer qualified. -/
def execSourceLoss (s : State) : Host.Outcome State Fault Refusal :=
  s.upd fun d =>
    match d.tim.master with
    | none => d
    | some m =>
      if !d.ptpOn then d
      else if d.now ≥ d.tim.syncAt + 4 * logNs d.tim.logSync && d.now < d.tim.annAt + d.annTmo * logNs d.tim.annLog then d.sourceGone
      else
        let d := d.modTim fun t =>
          { t with master := none, sync := none, reqT3 := none, path2 := none, delays := [],
                   foreign := t.foreign.filter fun x => x.1.source != m.source }
        let d := d.setR R.TIM_MASTER 0 0
        if (bestMaster d.tim.foreign).isSome then d.choose else d.sourceGone

/-! Pulse per second (R515 to R517). -/

/-- The fraction of NT, in units of 2^−16 ns (R503). -/
def Dev.ntFrac (d : Dev) : Nat := d.tim.sub % 40000000000 * 65536 / 40000000000

/-- The offset of NT from the nearest whole second, in 2^−17 ns (R516). -/
def Dev.ppsOff (d : Dev) : Int :=
  let r : Int := (d.nt % 1000000000 * 65536 + d.ntFrac : Nat)
  if r ≤ 32768000000000 then 2 * r else 2 * (r - 65536000000000)

/-- PPS drives the servo: under SRC 1, or under SRC 2 in state PPS (R515). -/
def Dev.ppsDrives (d : Dev) : Bool := d.flag F.TIM_CTRL_EN 0 && (d.timSrc = 1 || (d.timSrc = 2 && d.timSt = 4))

/-- PPS_IN_EDGE: a rising edge is accepted or ignored (R516). -/
def execPpsInEdge (s : State) : Host.Outcome State Fault Refusal :=
  s.upd fun d =>
    let onTime := match d.tim.ppsAt with
      | some t => decide (t + 999000000 ≤ d.now) && decide (d.now ≤ t + 1001000000)
      | none => false
    let valid := d.flag F.TIM_STATUS_PPS_VALID 0
    if valid && !onTime then d.addSat F.TIM_PPS_IN_IGN 0 1
    else
      let run := if onTime then d.tim.ppsRun + 1 else 1
      let d := (d.addSat F.TIM_PPS_IN_ACC 0 1).modTim fun t => { t with ppsAt := some d.now, ppsRun := min 3 run }
      if !valid && run < 3 then d
      else
        let d := d.setF F.TIM_STATUS_PPS_VALID 0 1
        let d := if d.flag F.TIM_CTRL_EN 0 then
            (if d.timSrc = 1 then d.sourceBack else if d.timSrc = 2 && d.timSt = 3 then d.enterTim 4 else d) else d
        if d.ppsDrives then d.sample d.ppsOff 0 else d

/-- PPS_INVALID: 2 s passed without an accepted edge (R516). -/
def execPpsInvalid (s : State) : Host.Outcome State Fault Refusal :=
  s.upd fun d =>
    let was := d.flag F.TIM_STATUS_PPS_VALID 0
    let drives := d.ppsDrives
    let d := (d.setF F.TIM_STATUS_PPS_VALID 0 0).modTim fun t => { t with ppsAt := none, ppsRun := 0 }
    if was && drives then (d.raise (evU bTIM 0) 4 0 0).holdover else d

/-- PPS_OUT: the pin pulses at a whole second of NT by its mode, not within 500 ms of the previous edge (R517). -/
def execPpsOut (s : State) : Host.Outcome State Fault Refusal :=
  s.upd fun d =>
    let mode := if d.fld F.TIM_CTRL_PPS_OUT_MODE 0 = 3 then 1 else d.fld F.TIM_CTRL_PPS_OUT_MODE 0
    let on := mode = 2 || (mode = 1 && (d.timSt = 2 || d.timSt = 4))
    let soon := match d.tim.ppsOut with
      | some t => decide (d.now < t + 500000000)
      | none => false
    if on && !soon then (d.emit (.pps (min 500 (max 1 (d.fld F.TIM_PPS_WIDTH 0))))).modTim fun t => { t with ppsOut := some d.now } else d

/-- Latch the fraction of NT, in units of 2^−16 ns (R503, R520). -/
def Dev.latchFrac (d : Dev) : Dev := d.setF F.TIM_NT_FRAC_FRAC 0 d.ntFrac

/-- TIM_NT: a read of TIM_NT gives NT and latches TIM_NT_FRAC (R520). -/
def execTimNt (s : State) : Host.Outcome State Fault Refusal :=
  s.upd fun d => (d.latchFrac).emit (.regRead 0x17000110 (BitVec.ofNat 64 d.nt))

/-- A write of TIM_CTRL: DOMAIN, ANN_TMO, TRANSPORT and SRC ignore writes while EN is 1 (R520). Discipline that starts or
stops forgets its masters. -/
def Dev.wrTimCtrl (d : Dev) (v : Nat) : Dev :=
  let was := d.flag F.TIM_CTRL_EN 0
  let old := (d.getR R.TIM_CTRL 0).toNat
  let w := putBits (putBits (putBits old 6 2 (bitsOf v 6 2)) 2 1 (bitsOf v 2 1)) 0 1 (bitsOf v 0 1)
  let w := if was then w else putBits (putBits (putBits w 56 8 (bitsOf v 56 8)) 52 4 (bitsOf v 52 4)) 3 3 (bitsOf v 3 3)
  let d := d.setR R.TIM_CTRL 0 (BitVec.ofNat 64 w)
  if was = bitOf v 0 then d
  else (d.modTim fun t => { t with sync := none, reqT3 := none, path2 := none, delays := [], master := none, foreign := [] }).setR
    R.TIM_MASTER 0 0

end Sys2Proof.Machine
end

