-- ==== Sys2Proof/Machine/Actions.lean ====
section
/-! DEFINITION. What register writes start in the UCIe modules (R336), the boot sequencer and the security block (R533,
R549 to R551) and Newt (R578, R583), and how these operations end. -/

namespace Sys2Proof.Machine

/-! UCIe modules (R336, Table 9-28). -/

/-- A module leaves Sill: UCI raises UCI_MODULE_DOWN, and with no module left UCI_LINK_DOWN. -/
def Dev.moduleDown (d : Dev) (m st : Nat) : Dev :=
  let was := d.flag F.UCI_STATUS_IN_SILL m
  let d := d.setF F.UCI_STATUS_STATE m st
  if was then
    let d := (d.moduleOut m).raise (evU bUCI m) 1 1 0
    if d.fld F.UCI_STATUS_MODULES 0 = 0 then d.raise (evU bUCI 0) 2 5 0 else d
  else d

/-- A module carries Sill flits after training (R336), unless DISABLE is 1. -/
def Dev.moduleUp (d : Dev) (m : Nat) : Dev :=
  if d.flag F.UCI_CTRL_DISABLE m then d
  else
    let was := d.fld F.UCI_STATUS_MODULES 0
    let d := ((d.setF F.UCI_STATUS_STATE m 2).setF F.UCI_STATUS_IN_SILL m 1).showModules
    if was = 0 then d.sillUp else d

/-- UCI_MODULE_DOWN: a module fails training or retraining; the flits that it had not delivered, which the row names by FSEQ, go
again on the modules that remain (R336). -/
def execUciModuleDown (x : ModuleLoss) (s : State) : Host.Outcome State Fault Refusal :=
  s.upd fun d =>
    let m := x.m
    if d.flag F.UCI_STATUS_IN_SILL m.val then
      (d.moduleDown m.val 4).sillReplay m.val (x.undelivered.map (·.toNat))
    else d.moduleDown m.val 4

/-- UCI_RETRAIN: a module retrains and carries Sill again; one that fails meets UCI_MODULE_DOWN (assumption 38). -/
def execUciRetrain (m : Fin 4) (s : State) : Host.Outcome State Fault Refusal := s.upd fun d => d.moduleUp m.val

/-- A write of DISABLE (Table 9-28). -/
def Dev.uciDisable (d : Dev) (m : Nat) (v : Bool) : Dev :=
  let was := d.flag F.UCI_CTRL_DISABLE m
  let d := d.setB F.UCI_CTRL_DISABLE m v
  if v then d.moduleDown m 0 else if was then d.moduleUp m else d

/-- UCI_DISABLE. -/
def execUciDisable (m : Fin 4) (v : Bool) (s : State) : Host.Outcome State Fault Refusal :=
  s.upd fun d => d.uciDisable m.val v

/-! Flash (R550, R551). -/

/-- Whether a flash operation may run: state, copy, BUSY, operation and address (R551, Table 16-22). -/
def Dev.nvmOk (d : Dev) (op dev addr : Nat) : Bool :=
  let st := d.fld F.BSQ_STATUS_STATE 0
  let loaded := st = 2 && d.fld F.BSQ_STATUS_COPY 0 = dev
  (st = 2 || st = 3) && !loaded && !d.flag F.BSQ_NVM_CTRL_BUSY 0 && op ≤ 2 && addr % 4096 = 0 && addr < 0x8000000

/-- GO of BSQ_NVM_CTRL. -/
def Dev.nvmGo (d : Dev) (op dev addr : Nat) : Dev :=
  if d.nvmOk op dev addr then
    let d : Dev := { d with boot := { d.boot with nvm := some (op, dev, addr) } }
    (d.setF F.BSQ_NVM_CTRL_BUSY 0 1).bootDom
  else d.setF F.BSQ_NVM_CTRL_ERR 0 1

/-- A write of BSQ_NVM_CTRL with its fields and GO. -/
def Dev.nvmWrite (d : Dev) (op : Nat) (dev : Bool) (addr : Nat) : Dev :=
  (((d.setF F.BSQ_NVM_CTRL_ADDR 0 addr).setB F.BSQ_NVM_CTRL_DEV 0 dev).setF F.BSQ_NVM_CTRL_OP 0 op).nvmGo op (b2n dev) addr

/-- NVM_READ. -/
def execNvmRead (dev : Bool) (addr : BitVec 32) (s : State) : Host.Outcome State Fault Refusal :=
  s.upd fun d => d.nvmWrite 0 dev addr.toNat
/-- NVM_PROGRAM. -/
def execNvmProgram (dev : Bool) (addr : BitVec 32) (s : State) : Host.Outcome State Fault Refusal :=
  s.upd fun d => d.nvmWrite 1 dev addr.toNat
/-- NVM_ERASE. -/
def execNvmErase (dev : Bool) (addr : BitVec 32) (s : State) : Host.Outcome State Fault Refusal :=
  s.upd fun d => d.nvmWrite 2 dev addr.toNat

/-- The flash operation ends. -/
def Dev.nvmEnd (d : Dev) (err : Bool) : Dev :=
  let d : Dev := { d with boot := { d.boot with nvm := none } }
  let d := d.setF F.BSQ_NVM_CTRL_BUSY 0 0
  (if err then d.setF F.BSQ_NVM_CTRL_ERR 0 1 else d).bootDom

/-- NVM_TIMEOUT: an operation that has not completed in 2 s (R551). -/
def execNvmTimeout (s : State) : Host.Outcome State Fault Refusal :=
  s.upd fun d => if d.boot.nvm.isSome then d.nvmEnd true else d

/-- The entries of a memory outside a range. -/
def cellsOut (m : List Host.Cell) (lo hi : Nat) : List Host.Cell := m.filter fun c => !(decide (lo ≤ c.1) && decide (c.1 < hi))

/-- n bytes from lo replaced by the bytes that f gives, in canonical form. -/
def fillCells (m : List Host.Cell) (lo n : Nat) (f : Nat → Byte) : List Host.Cell :=
  (m.filter fun c => c.1 < lo) ++
  ((List.range n).filterMap fun i => if f i = 0 then none else some (lo + i, f i)) ++ (m.filter fun c => lo + n ≤ c.1)

/-- The free byte i of a run that starts at the counter k. -/
def freeByte (k i : Nat) : Byte := BitVec.ofNat 8 ((Config.freeWord (k + i / 8)).toNat / 256 ^ (i % 8))

/-- The 4 KiB buffer of the boot sequencer. -/
def Dev.nvmBuf (d : Dev) : List Byte := (List.range 512).flatMap fun i => leBytes 8 (d.getR R.BSQ_FLASH_BUF 0 i).toNat

/-- NVM_OP_DONE: READ copies a sector to the buffer, PROGRAM writes the buffer, ERASE leaves a sector whose bytes the
manual does not state (R550). -/
def execNvmOpDone (s : State) : Host.Outcome State Fault Refusal :=
  match s.dev.boot.nvm with
  | none => s.done s
  | some (op, dev, addr) =>
    let a := dev * 0x8000000 + addr
    let s1 := if op = 0 then
        s.onDev fun d => d.each (List.range 512) fun d i =>
          d.setR R.BSQ_FLASH_BUF 0 (BitVec.ofNat 64 (leNat (peekN s.flash (a + 8 * i) 8))) i
      else if op = 1 then { s with flash := pokeN s.flash a s.dev.nvmBuf }
      else
        let k := s.dev.fresh
        { s with flash := fillCells s.flash a 4096 (freeByte k), dev := { s.dev with fresh := k + 512 } }
    s.done (s1.onDev fun d => d.nvmEnd false)

/-! Anti-rollback (R533). -/

/-- COMMIT of SEC_SVN: it uses the SVN loaded when it is written; while BUSY is 1 it is ignored. -/
def Dev.commitGo (d : Dev) : Dev :=
  if d.boot.commit.isSome then d
  else
    let d : Dev := { d with boot := { d.boot with commit := some (d.fld F.SEC_SVN_IMAGE 0) } }
    (d.setF F.SEC_SVN_BUSY 0 1).bootDom

/-- COMMIT. -/
def execCommit (s : State) : Host.Outcome State Fault Refusal := s.upd Dev.commitGo

/-- Show the anti-rollback count (Table 16-23). -/
def Dev.showCount (d : Dev) : Dev := d.setF F.SEC_SVN_FUSED 0 d.boot.fuse.count

/-- SVN_COMMIT_DONE: both banks are programmed, which never lowers the count. `took` holds the bits that each bank takes; a bank that
lacks one of them has failed, and the count that the banks then hold stands (R533). -/
def execSvnCommitDone (took : Word × Word) (s : State) : Host.Outcome State Fault Refusal :=
  s.upd fun d =>
    match d.boot.commit with
    | none => d
    | some v =>
      let f := d.boot.fuse.program v took.1 took.2
      let d : Dev := { d with boot := { d.boot with commit := none, fuse := f } }
      let d := if f.svnA &&& thermo v = thermo v && f.svnB &&& thermo v = thermo v then d else d.setF F.SEC_SVN_COMMIT_ERR 0 1
      (d.showCount.setF F.SEC_SVN_BUSY 0 0).bootDom

/-! Attestation (R549). -/

/-- GO of SEC_ATT_CTRL. A DEST that is no multiple of 64 is an error too (assumption 39). -/
def Dev.attGo (d : Dev) : Dev :=
  if d.boot.report.isSome then d
  else
    let dest := d.fld F.SEC_ATT_CTRL_DEST 0
    if 0x100000 ≤ dest && dest + 2596 ≤ 0x800000 && dest % 64 = 0 then
      let nonce := (List.range 4).map fun i => (d.getR R.SEC_ATT_NONCE 0 i).toNat
      let d : Dev := { d with boot := { d.boot with report := some (d.ntAt bSEC 0, nonce, dest) } }
      (d.setF F.SEC_ATT_CTRL_BUSY 0 1).bootDom
    else d.setF F.SEC_ATT_CTRL_ERR 0 1

/-- ATT_GO. -/
def execAttGo (s : State) : Host.Outcome State Fault Refusal := s.upd Dev.attGo

/-- The device public key: bytes 32 to 1,343 of the identity record (Table 16-14). -/
def pubKey : List Byte := (takeZ 3764 (Config.keyBytes 1 [])).drop 32 |>.take 1312

/-- Bytes 0 to 175 of the report (Table 16-15). The digest of the unit maps is open: the manual gives no layout of them (assumption
12). -/
def Dev.attBody (d : Dev) (nonce : List Nat) : List Byte :=
  let maps := d.boot.siteBad ++ d.boot.coreBad.flatMap (fun x => [x.1, x.2]) ++ d.nwt.map.flatMap fun x => [x.1, x.2]
  leBytes 4 0x54544146 ++ leBytes 2 1 ++ leBytes 2 2596 ++ nonce.flatMap (leBytes 8) ++ leBytes 8 (d.ntAt bSEC 0) ++
  leBytes 32 d.boot.digest ++ leBytes 8 d.man.imageId ++ leBytes 4 d.man.svn ++
  leBytes 4 d.boot.fuse.count ++ takeZ 32 (Config.keyBytes 2 maps) ++
  [BitVec.ofNat 8 (d.fld F.BSQ_GRADE_GRADE 0), BitVec.ofNat 8 (d.fld F.BSQ_GRADE_ACTIVE 0),
   BitVec.ofNat 8 (d.fld F.BSQ_GRADE_SPARE 0), BitVec.ofNat 8 (d.fld F.PWR_FIELD_LOSS_COUNT 0),
   BitVec.ofNat 8 (d.fld F.PWR_FIELD_LOSS_FIRST 0), BitVec.ofNat 8 (d.fld F.PWR_FIELD_LOSS_SECOND 0), 0, 0] ++
  leBytes 4 d.term ++ [BitVec.ofNat 8 d.role, 0, 0, 0] ++ sha3 pubKey

/-- ATT_REPORT_DONE: the report stands at DEST (R549). `sig` is the device signature. -/
def execAttReportDone (sig : List Byte) (s : State) : Host.Outcome State Fault Refusal :=
  s.upd fun d =>
    match d.boot.report with
    | none => d
    | some (_, nonce, dest) =>
      let d := d.putJ dest (takeZ 176 (d.attBody nonce) ++ takeZ 2420 (sig.take 2420))
      let d : Dev := { d with boot := { d.boot with report := none } }
      ((d.setF F.SEC_ATT_CTRL_BUSY 0 0).setF F.SEC_ATT_CTRL_DONE 0 1).bootDom

/-! Newt's registers (R573, R576, R578, R583, Table 18-12). -/

/-- Change Newt. -/
def Dev.modNwt (d : Dev) (f : NwtS → NwtS) : Dev := { d with nwt := f d.nwt }

/-- Good core sites of a cluster site: neither bad nor RETIRED. -/
def Dev.goodCores (d : Dev) (site : Nat) : List Nat := (List.range 36).filter fun c => sget d.boot.coreBad 0 (cu site c) == 0

/-- A cluster site is usable (R535): not bad, not in a lost field, with at least 32 good core sites. -/
def Dev.usable (d : Dev) (site : Nat) : Bool := !d.siteOut site && (d.goodCores site).length ≥ 32

/-! The core mesh (R228 to R230). -/

/-- The row of a core site in the core mesh (R228). -/
def meshRow (c : Nat) : Nat := c / 6

/-- The column of a core site in the core mesh (R228). -/
def meshCol (c : Nat) : Nat := c % 6

/-- The central core site through which a core site reaches the gateway, and the gateway it (R229). -/
def meshGate (c : Nat) : Nat :=
  if meshRow c < 3 then (if meshCol c < 3 then 14 else 15) else if meshCol c < 3 then 20 else 21

/-- The places from x to y along one dimension, both included. -/
def meshLine (x y : Nat) : List Nat :=
  if x ≤ y then (List.range (y - x + 1)).map (x + ·) else (List.range (x - y + 1)).map (x - ·)

/-- The core sites whose routers a packet passes from core site a to core site b: ORDER 0 goes along the row first, ORDER 1
along the column first (R230). -/
def meshPath (order a b : Nat) : List Nat :=
  if order = 0 then
    (meshLine (meshCol a) (meshCol b)).map (meshRow a * 6 + ·) ++ (meshLine (meshRow a) (meshRow b)).map (· * 6 + meshCol b)
  else (meshLine (meshRow a) (meshRow b)).map (· * 6 + meshCol a) ++ (meshLine (meshCol a) (meshCol b)).map (meshRow b * 6 + ·)

/-- Whether the routes between the gateway and each of some core sites avoid every failed core router (R230, assumption 67). -/
def meshClear (dead : List Nat) (order : Nat) (cs : List Nat) : Bool :=
  dead.isEmpty || cs.all fun c => (meshPath order c (meshGate c) ++ meshPath order (meshGate c) c).all fun x => !dead.contains x

/-- The ORDER that Newt gives a cluster whose core sites in use are cs: the lower that avoids every failed core router, or
none (R230). -/
def meshOrder (dead cs : List Nat) : Option Nat := [0, 1].find? fun o => meshClear dead o cs

/-- The core sites of a cluster site whose core router has failed. -/
def Dev.deadRouters (d : Dev) (site : Nat) : List Nat := (d.boot.coreRtrBad.filter fun u => u / 256 == site).map (· % 256)

/-- The core sites that serve when Newt places a logical cluster on a site: the 32 lowest-numbered good ones (R539). -/
def Dev.firstCores (d : Dev) (site : Nat) : List Nat := (d.goodCores site).take 32

/-- A usable site that a dimension order can serve, so that a logical cluster can be placed on it (R230). -/
def Dev.placeable (d : Dev) (site : Nat) : Bool :=
  d.usable site && (meshOrder (d.deadRouters site) (d.firstCores site)).isSome

/-- The core sites in use in a cluster: those that its core map names (R573). -/
def Dev.usedCores (d : Dev) (site : Nat) : List Nat := (List.range 32).filterMap (d.coreMap site)

/-- Newt sets ORDER for the core sites in use (R230, R539). -/
def Dev.setOrder (d : Dev) (site : Nat) : Dev :=
  d.setF F.CLU_MESH_CTRL_ORDER site ((meshOrder (d.deadRouters site) (d.usedCores site)).getD 0)

/-- The usable sites that serve no logical cluster and redirect to none. -/
def Dev.spareSites (d : Dev) : List Nat :=
  (List.range 256).filter fun x => d.usable x && (d.logicalOf x).isNone && !d.flag F.CLU_REDIRECT_EN x

/-- Hops between two sites. -/
def siteHops (a b : Nat) : Nat := (max (a / 16) (b / 16) - min (a / 16) (b / 16)) + (max (a % 16) (b % 16) - min (a % 16) (b % 16))

/-- The nearest of some sites, the lowest-numbered among equals. -/
def nearest (old : Nat) (xs : List Nat) : Option Nat :=
  xs.foldl (fun b x => match b with
    | none => some x
    | some y => if siteHops old x < siteHops old y then some x else some y) none

/-- The spare site that replaces a site (R576): one that a dimension order can serve (R230). -/
def Dev.spareFor (d : Dev) (old : Nat) : Option Nat :=
  let xs := d.spareSites.filter fun x => x != old && d.placeable x
  match nearest old (xs.filter fun x => fieldOf x == fieldOf old) with
  | some x => some x
  | none => nearest old xs

/-- The spare core site that replaces core site c of a site: good, not mapped, FMAX_CUR at or above FLOOR, and with it in use a
dimension order still avoids every failed core router (R575). -/
def Dev.spareCore (d : Dev) (site c : Nat) : Option Nat :=
  (d.goodCores site).find? fun x =>
    (d.lcoreOf (cu site x)).isNone && d.fld F.COR_FMAX_FMAX_CUR (cu site x) ≥ d.fld F.COR_FMAX_FLOOR (cu site x) &&
    (meshOrder (d.deadRouters site) (x :: (d.usedCores site).filter (· != c))).isSome

/-- GO of NWT_REQ: ignored while STATE is not 0 (Table 18-12). A live cluster swap starts with its pre-copy (R582). -/
def Dev.nwtReq (d : Dev) (r : SwapReq) : Dev :=
  if d.fld F.NWT_STATUS_STATE 0 ≠ 0 then d
  else match d.newtSite r.lclu with
    | none => d
    | some old =>
      if r.cluster && !d.siteOut old then
        match d.spareFor old with
        | some new => (d.modNwt fun x => { x with pre := some (r, new, []) }).setF F.NWT_STATUS_STATE 0 1
        | none => d.nwtAsk r
      else d.nwtAsk r

/-- SWAP_REQUEST. -/
def execSwapRequest (cluster : Bool) (lclu : BitVec 8) (lcore : BitVec 5) (nofuse : Bool) (s : State) :
    Host.Outcome State Fault Refusal :=
  s.upd fun d => d.nwtReq ⟨cluster, lclu.toNat, if cluster then 0 else lcore.toNat, nofuse⟩

/-- A write of 1 to EN of CLU_REDIRECT ends the redirect (R583). -/
def Dev.clrRedirect (d : Dev) (site : Nat) : Dev :=
  let d := d.setF F.CLU_REDIRECT_EN site 0
  d.modNwt fun x => { x with old := x.old.filter fun e => e.2 != site + 1 }

/-- CLU_REDIRECT: the host clears EN. CLU registers of a site whose compute domain is off answer for this register, which
lies in the gateway (R574). -/
def execCluRedirect (site : Site) (s : State) : Host.Outcome State Fault Refusal :=
  s.upd fun d => if d.fieldLost (fieldOf site.val) then d else d.clrRedirect site.val

/-- NWT_MAP_DATA of the selected logical cluster (Table 18-13). -/
def Dev.nwtMapData (d : Dev) : Nat :=
  let l := d.fld F.NWT_MAP_SEL_LCLU 0
  match d.newtSite l with
  | none => 0
  | some x =>
    let o := sget d.nwt.old 0 l
    let spare := ((d.goodCores x).filter fun c => (d.lcoreOf (cu x c)).isNone).length
    2 ^ 63 + (if o = 0 then 0 else 2 ^ 62 + (o - 1) * 2 ^ 40) + x * 2 ^ 48 + min 15 spare * 2 ^ 32

/-- SKK_OBS_DATA of the selected entry (Table 18-19). -/
def Dev.obsData (d : Dev) : Nat :=
  match d.obs.drop (d.fld F.SKK_OBS_SEL_INDEX 0) with
  | [] => 0
  | o :: _ => 2 ^ 63 + o.site * 2 ^ 40 + o.core * 2 ^ 32 + o.passes % 65536 * 65536 + o.cause % 256 * 256

/-- OLDEST_S: the age in s of the least recently visited core of an active cluster (Table 18-18). -/
def Dev.oldestVisit (d : Dev) : Nat :=
  let us := (List.range 240).flatMap fun l => match d.newtSite l with
    | some x => (d.goodCores x).map fun c => cu x c
    | none => []
  if us.isEmpty then 0
  else min 65535 ((d.now - us.foldl (fun m u => min m (sget d.visited 0 u)) d.now) / 1000000000)

end Sys2Proof.Machine
end

