-- ==== Sys2Proof/Machine/Access.lean ====
section
/-! DEFINITION. Reads and writes of registers by address (spec/00_scope.md R9 to R16): the access codes, the registers whose
value is computed, and the registers whose writes act. -/

namespace Sys2Proof.Machine

/-! Values. -/

/-- The identity record of SEC's one-time memory: its bytes differ by device (assumption 12). -/
def idWord (i : Nat) : Nat := leAt (takeZ 3764 (Config.keyBytes 1 []) ++ zeros 8) (8 * i) 8

/-- The value that a register reads as: its word, or what its table computes. -/
def Dev.regVal (d : Dev) (blk inst : Nat) (r : Reg) (i : Nat) : Nat :=
  let u := regUnit r blk inst
  let c := r.code
  let w := (d.getR r u i).toNat
  if c = R.BLOCK_ID.code then blockId u
  else if (c = R.FLD_HW_CTRL.code || c = R.FLD_HW_STATUS.code) && !ownsHw inst i then 0
  else if blk = bCOR then d.coreRegVal inst r i
  else if (c = R.FAB_PORT_FLITS.code || c = R.FAB_PORT_STALL.code || c = R.FAB_PORT_ERR.code || c = R.FAB_PORT_OCC.code) &&
    !hasPort inst i then 0
  else if c = R.FAB_TBL_DATA.code then d.rdFabTbl inst
  else if c = R.TRN_TBL_DATA.code then d.rdTrnTbl
  else if c = R.FLD_HW_REMAP_DATA.code then d.rdRemap inst
  else if c = R.HBM_DESC_DATA.code then sget (d.hbm inst).descs 0 (d.fld F.HBM_DESC_SEL_INDEX inst)
  else if c = R.LNK_FWD_DATA.code then sget (d.lnk inst).table 0 (d.fld F.LNK_FWD_SEL_INDEX inst)
  else if c = R.PWR_PREF_DATA.code then d.prefEntry (d.fld F.PWR_PREF_SEL_PHASE 0)
  else if c = R.TIM_NT.code then d.nt
  else if c = R.NWT_MAP_DATA.code then d.nwtMapData
  else if c = R.SKK_OBS_DATA.code then d.obsData
  else if c = R.SKK_STATUS.code then putBits w 32 16 d.oldestVisit
  else if c = R.SEC_IDREC.code then idWord i
  else w &&& (2 ^ 64 - 1 - r.wo)

/-- A read of a register of a present block instance: RC fields in the bits reached are cleared, TIM_NT latches its
fraction (R12, R520). A reserved offset reads 0 (R13). The value is that of the bytes read. -/
def Dev.regRead (d : Dev) (blk inst off size : Nat) : Dev × Nat :=
  match findReg blk off with
  | none => (d, 0)
  | some (r, i) =>
    let u := regUnit r blk inst
    let m := accMask off size
    let v := d.regVal blk inst r i &&& m
    let d := if r.code = R.COR_QENTRY.code then d.took else d
    let d := d.clearRc r u i m
    let d := if r.code = R.TIM_NT.code then d.latchFrac else d
    let d := if r.code = R.LNK_ERR.code && m % 16 ≠ 0 then d.worstRead inst else d
    (d, if size = 4 && off % 8 ≠ 0 then v / 2 ^ 32 else v)

/-! Writes. -/

/-- A write of PCH_WAKE_CTRL or PCH_WAKE_AT: a time already past wakes at once (Table 13-12). -/
def Dev.alarmLook (d : Dev) : Dev :=
  let d := d.modPch fun p => { p with alarmAt := none }
  if d.flag F.PCH_WAKE_CTRL_ALARM_EN 0 && d.ntAt bPCH 0 ≥ d.fld F.PCH_WAKE_AT_NT 0 then
    (d.modPch fun p => { p with alarmAt := some (d.fld F.PCH_WAKE_AT_NT 0) }).deviceWake 3
  else d

/-- A write of the command engine's registers (Tables 9-19 to 9-25, 10-16). -/
def Dev.wrCmd (d : Dev) (r : Reg) (i v : Nat) : Dev :=
  let c := r.code
  if c = R.CMD_CTRL.code then
    let d := (d.setB F.CMD_CTRL_NTF_EN 0 (bitOf v 2)).wrCmdPause (bitOf v 1)
    let d := d.wrCmdEn (bitOf v 0)
    if bitOf v 3 then d.ringResetCmd else d
  else if c = R.CMD_RING_CFG.code then (if d.flag F.CMD_CTRL_EN 0 then d else d.plainWrite r 0 i v)
  else if c = R.CMD_HRING_BASE.code then (if d.flag F.CMD_HRING_CFG_EN 0 i then d else d.plainWrite r 0 i v)
  else if c = R.CMD_HRING_CFG.code then
    let on := d.flag F.CMD_HRING_CFG_EN 0 i
    let v' := if on then putBits v 0 4 (d.fld F.CMD_HRING_CFG_SIZE 0 i) else v
    let d := d.plainWrite r 0 i v'
    (if bitOf v 6 && !on then d.hringReset i else d).examine
  else if c = R.CMD_HRING_HEAD.code then d.wrHringHead i v
  else if c = R.CMD_STEP_CFG.code then (if d.dec.isSome then d else d.plainWrite r 0 i v)
  else if c = R.CMD_PAIR_CTRL.code then
    let d := d.plainWrite r 0 i v
    let d := if bitOf v 2 then d.pairFence else d
    let d := if bitOf v 1 then d.pairReq 1 else d
    if bitOf v 0 then d.pairReq 0 else d
  else d.plainWrite r 0 i v

/-- A write of a register of the memory edge blocks (Tables 8-7 to 8-16). -/
def Dev.wrMemBlk (d : Dev) (r : Reg) (u i v : Nat) : Dev :=
  let c := r.code
  if c = R.HBM_CTRL.code then
    let d := (d.plainWrite r u i (putBits v 4 1 (d.fld F.HBM_CTRL_OFFLINE u)))
    let d := if bitOf v 4 = d.flag F.HBM_CTRL_OFFLINE u then d else d.hbmOffline u (bitOf v 4)
    if bitOf v 3 then d.hbmRetrain u else d
  else if c = R.HBM_STG_CFG.code then d.wrStgCfg u i v
  else if c = R.HBM_STG_FREE.code then d.wrStgFree u (bitsOf v 4 1) (bitsOf v 0 4)
  else if c = R.HBM_DESC_DATA.code then
    (if d.flag F.HBM_CTRL_STRM_EN u then d else d.putDesc u (d.fld F.HBM_DESC_SEL_INDEX u) v)
  else if c = R.HBM_SPARE_CTRL.code then
    let d := d.plainWrite r u i v
    if bitOf v 0 then d.spareStart u else d
  else if c = R.CEL_CTRL.code then
    let d := d.plainWrite r u i (putBits v 0 1 (d.fld F.CEL_CTRL_OFFLINE u))
    let d := if bitOf v 0 = d.flag F.CEL_CTRL_OFFLINE u then d else d.celOffline u (bitOf v 0)
    let d := if bitOf v 2 then d.celRetrain u else d
    if bitOf v 3 then d.celHppr u else d
  else d.plainWrite r u i v

/-- A write of a cluster's registers other than the rings (Tables 5-14 to 7-16, 18-15). -/
def Dev.wrClu (d : Dev) (r : Reg) (u i v : Nat) : Dev :=
  let c := r.code
  if c = R.CLU_ASU_STATE.code then d.wrAsuState u (BitVec.ofNat 64 v)
  else if c = R.CLU_ZSK_CTRL.code then
    let d := d.plainWrite r u i v
    d.wrThrMax u (d.fld F.CLU_ZSK_CTRL_THR_MAX u)
  else if c = R.CLU_MESH_CTRL.code then d.wrMesh u (bitOf v 0)
  else if c = R.CLU_CST0.code then d.wrCst0 u i v
  else if c = R.CLU_CHAN0.code then d.wrChan true u i false v
  else if c = R.CLU_CHAN1.code then d.wrChan true u i true v
  else if c = R.CLU_REDIRECT.code then (if bitOf v 8 then d.clrRedirect u else d)
  else d.plainWrite r u i v

/-- A write of the registers of the power controller, the Porch but for PCH_PSTATE_CTRL, and time (Tables 12-9 to 12-13,
13-12, 14-7). -/
def Dev.wrPower (d : Dev) (r : Reg) (i v : Nat) : Dev :=
  let c := r.code
  if c = R.PWR_CAP.code then d.wrSwCap (v % 65536)
  else if c = R.PWR_SLOPE.code then d.plainWrite r 0 i (min 500 (max 5 (bitsOf v 0 9)))
  else if c = R.PWR_SLOT.code then
    let d := d.plainWrite r 0 i v
    d.setF F.PWR_SLOT_NEXT 0 d.nextSlot
  else if c = R.PWR_PREF_DATA.code then d.putPref (d.fld F.PWR_PREF_SEL_PHASE 0) (v &&& 0x3F07)
  else if c = R.PCH_WAKE_CTRL.code || c = R.PCH_WAKE_AT.code then (d.plainWrite r 0 i v).alarmLook
  else if c = R.TIM_CTRL.code then d.wrTimCtrl v
  else if c = R.TIM_MAC.code || c = R.TIM_IPV4.code || c = R.TIM_ASYM.code then
    (if d.flag F.TIM_CTRL_EN 0 then d else d.plainWrite r 0 i v)
  else d.plainWrite r 0 i v

/-- A write of the registers of the boot sequencer, the security block and Newt (Tables 16-19 to 16-24, 18-12). A WARM bit
only asks: the warm reset itself is BSQ_WARM (assumption 40). -/
def Dev.wrBoot (d : Dev) (r : Reg) (i v : Nat) : Dev :=
  let c := r.code
  if c = R.BSQ_CTRL.code then
    let d := d.plainWrite r 0 i v
    if bitOf v 3 then { d with boot := { d.boot with warmReq := true } } else d
  else if c = R.BSQ_NVM_CTRL.code then
    let d := d.plainWrite r 0 i v
    if bitOf v 0 then d.nvmGo (bitsOf v 1 2) (bitsOf v 3 1) (bitsOf v 32 32) else d
  else if c = R.SEC_SVN.code then
    let d := d.plainWrite r 0 i v
    if bitOf v 0 then d.commitGo else d
  else if c = R.SEC_ATT_CTRL.code then
    let d := d.plainWrite r 0 i v
    if bitOf v 0 then d.attGo else d
  else if c = R.NWT_REQ.code then
    (if bitOf v 17 then d.nwtReq ⟨bitOf v 16, bitsOf v 8 8, if bitOf v 16 then 0 else bitsOf v 0 5, bitOf v 18⟩ else d)
  else d.plainWrite r 0 i v

/-- A write of the registers of a field, a router or a link (Tables 1-7, 1-10, 6-10 to 6-15, 10-11, 10-15). -/
def Dev.wrSpine (d : Dev) (r : Reg) (u i v : Nat) : Dev :=
  let c := r.code
  if c = R.FLD_HW_CTRL.code then d.wrHwCtrl u i v
  else if c = R.FLD_HW_STATUS.code && !ownsHw u i then d
  else if c = R.FLD_HW_REMAP_DATA.code then d.wrRemap u v
  else if c = R.FAB_CTRL.code then d.wrFabCtrl u v
  else if c = R.FAB_TBL_DATA.code then d.wrFabTbl u v
  else if c = R.FAB_DRAIN_CTRL.code then
    let d := d.plainWrite r u i v
    if bitOf v 0 then d.drainStart u else d
  else if c = R.LNK_CTRL.code then d.wrLnkCtrl u v
  else if c = R.LNK_FWD_DATA.code then d.wrFwd u v
  else d.plainWrite r u i v

/-- A write of a whole register word by its block. -/
def State.wordWrite (s : State) (blk inst : Nat) (r : Reg) (i v : Nat) : State :=
  if r.code = R.COR_CTRL.code then s.wrCorCtrl inst v
  else if r.code = R.CLU_RING_CFG.code then s.wrRingCfg inst i v
  else if r.code = R.PCH_PSTATE_CTRL.code then s.wrPstate (v % 8)
  else s.onDev fun d =>
    if r.code = R.EVT_ACK.code then
      d.ackMask (evU blk inst) (if bitOf v 63 then 0xFFFFFFFE else v &&& 0xFFFFFFFE)
    else if r.blk = 0 then d.plainWrite r (evU blk inst) i v
    else if blk = 1 then d.wrCore r inst i v
    else if blk = 2 then d.wrClu r inst i v
    else if blk = 3 || blk = 4 || blk = 7 then d.wrSpine r inst i v
    else if blk = 5 || blk = 6 then d.wrMemBlk r inst i v
    else if blk = 8 then
      (if r.code = R.UCI_CTRL.code then
        let d := d.uciDisable inst (bitOf v 2)
        if bitOf v 1 then d.moduleUp inst else d
      else d.plainWrite r inst i v)
    else if blk = 9 then d.wrCmd r i v
    else if blk = 19 then (if r.code = R.TRN_TBL_DATA.code then d.wrTrnTbl v else d.plainWrite r inst i v)
    else if blk = 11 || blk = 14 || blk = 17 then d.wrPower r i v
    else d.wrBoot r i v

/-- A write of 4 or 8 bytes to a register: RW bits outside the bytes written keep their value, bits of the other codes act
only where written (R11, R12). A reserved offset ignores it (R13). -/
def State.regWrite (s : State) (blk inst off size v : Nat) : State :=
  match findReg blk off with
  | none => s
  | some (r, i) =>
    let m := accMask off size
    let v := if size = 4 && off % 8 ≠ 0 then v % 2 ^ 32 * 2 ^ 32 else v &&& m
    let old := s.dev.regVal blk inst r i
    s.wordWrite blk inst r i (v ||| (old &&& r.rw &&& (2 ^ 64 - 1 - m)))

/-- The site and destination core at which a block's registers are reached (Table 6-4). -/
def regSite (blk inst : Nat) : Nat × Nat :=
  if blk = 1 then (inst / 256, inst % 256) else if blk = 2 then (inst, 60)
  else if blk = 3 then (siteOf (fieldOf inst) 0, 63) else if blk = 4 || blk = 18 then (siteOf inst 0, 63)
  else ((blockFace blk inst).1, edgeCore (blockFace blk inst).2)

/-- The domains that an access to a block's registers waits for, and demands: its own and the fabric on the way from the host's edge
port (R482). -/
def Dev.regWaits (d : Dev) (blk inst : Nat) : List Nat :=
  let x := regSite blk inst
  let p : Packet := { pkt0 with dstSite := BitVec.ofNat 8 x.1, dstCore := BitVec.ofNat 6 x.2, epoch := d.injEpoch d.hostSite = 1 }
  ((regDomain blk inst).toList ++ (d.pathFabs p 32 d.hostSite 5).eraseDups).filter d.rests

/-- A write to EVT_ACK of a block instance: it clears the pending state of the classes in the mask (R568). A block out of reach
stays as it is; a block asleep is woken and the access waits (R482). -/
def Dev.evtAck (d : Dev) (eu mask : Nat) : Dev :=
  if !d.evUnitOk eu || !d.evReach eu then d
  else match d.regWaits (eu / 65536) (eu % 65536) with
    | n :: ns => d.demands (n :: ns)
    | [] => d.ackMask eu mask

/-- EVT_ACK: a write of 1 to an ACK bit of EVT_ACK clears the pending state of that class (R568). -/
def execEvtAck (unit : BitVec 24) (cls : Fin 32) (s : State) : Host.Outcome State Fault Refusal :=
  s.upd fun d => if cls.val = 0 then d else d.evtAck unit.toNat (2 ^ cls.val)

/-- ACK_ALL: a write of 1 to ALL of EVT_ACK clears the pending state of every class (R568). -/
def execAckAll (unit : BitVec 24) (s : State) : Host.Outcome State Fault Refusal := s.upd fun d => d.evtAck unit.toNat 0xFFFFFFFE

/-- REGISTER_WRITE: a write to a register by its address (R12). At an address that is no register, or of a wrong size or
alignment, nothing is written (R10, R11); a block asleep is woken and the access waits (R482). -/
def execRegisterWrite (addr : BitVec 48) (eight : Bool) (v : Word) (s : State) : Host.Outcome State Fault Refusal :=
  match s.dev.place s.dev.hostMap addr.toNat with
  | .reg blk inst off =>
    let size := if eight then 8 else 4
    if !accOk off size then s.done s
    else match s.dev.regWaits blk inst with
      | n :: ns => s.done (s.onDev fun d => d.demands (n :: ns))
      | [] => s.done (s.regWrite blk inst off size v.toNat)
  | _ => s.done s

/-- RC_REGISTER_READ: a read of a register by its address returns its value and clears its RC fields (R12). Elsewhere the
read returns 0 (R10, R11, R13). -/
def execRcRegisterRead (addr : BitVec 48) (eight : Bool) (s : State) : Host.Outcome State Fault Refusal :=
  s.upd fun d =>
    let none_ : Dev := d.emit (.regRead addr.toNat 0)
    match d.place d.hostMap addr.toNat with
    | .reg blk inst off =>
      let size := if eight then 8 else 4
      if !accOk off size then none_
      else match d.regWaits blk inst with
        | n :: ns => d.demands (n :: ns)
        | [] =>
          let (d, v) := d.regRead blk inst off size
          d.emit (.regRead addr.toNat (BitVec.ofNat 64 v))
    | _ => none_

end Sys2Proof.Machine
end

