-- ==== Sys2Proof/Machine/Sinks.lean ====
section
/-! DEFINITION. Packets at their sinks, circuit flits and timeouts of requests (spec/06_fabric.md R239, R240, R247, R248,
R252, R261), and the reads and writes of a range by its place. -/

namespace Sys2Proof.Machine

/-! Ranges by place (R6 to R13). -/

/-- The offset in the host window above which the command engine alone writes (Table 9-1, R347). -/
def hostRo : Nat := 0x800000

/-- The end of host window memory; what lies above reads 0. -/
def hostEnd : Nat := 0xC00400

/-- Read n bytes at an address: the bytes and the status, 0, 4 ADDRESS or 5 DATA (R10 to R13, R76, R308). A
register takes accesses of 4 and 8 B alone (R11). -/
def State.rangeRead (s : State) (pl : Nat → Place) (a n : Nat) : State × List Byte × Nat :=
  let last := pl (a + n - 1)
  match pl a with
  | .unmapped => (s, zeros n, 4)
  | .mem x =>
    match last with
    | .mem _ => s.memRead x n
    | _ => (s, zeros n, 4)
  | .host o =>
    match last with
    | .host _ => (s, takeZ n (s.dev.getJ o (min n (hostEnd - o))), 0)
    | _ => (s, zeros n, 4)
  | .reg blk inst off =>
    if accOk a n then
      let r := s.dev.regRead blk inst off n
      ({ s with dev := r.1 }, leBytes n r.2, 0)
    else (s, zeros n, 4)
  | .resv => (s, zeros n, if accOk a n then 0 else 4)

/-- Write bytes at an address: the status, 0, 2 REJECTED or 4 ADDRESS (R10 to R13, R139). What is not the host's to write in
the host window is discarded (R347, assumption 41). -/
def State.rangeWrite (s : State) (pl : Nat → Place) (a : Nat) (bs : List Byte) : State × Nat :=
  let n := bs.length
  let last := pl (a + n - 1)
  match pl a with
  | .unmapped => (s, 4)
  | .mem x =>
    match last with
    | .mem _ => s.memWrite x bs
    | _ => (s, 4)
  | .host o =>
    if o + n ≤ hostRo then (s.onDev fun d => d.putJ o bs, 0) else (s, 0)
  | .reg blk inst off => if accOk a n then (s.regWrite blk inst off n (leNat bs), 0) else (s, 4)
  | .resv => (s, if accOk a n then 0 else 4)

/-! The sinks. -/

/-- Whether a packet's target lies behind the gateway of its site. -/
def toCluster (p : Packet) : Bool := p.dstCore.toNat < 36 || p.dstCore.toNat == 60

/-- A packet at its sink, in its turn: one with KILL or whose CRC fails is discarded whole (R240, R260); it waits at a gateway that
Newt holds (R580) or whose domain sleeps (R247), goes on to the new site of a swapped cluster (R583), is answered as unmapped where
the domain is out (R247), and else is ejected and served; it stays where its service must wait. -/
def State.sink (s : State) (p : Packet) (act : State → Option State) : State :=
  let site := p.dstSite.toNat
  let d := s.dev
  let q : Packet := { p with crcBad := false }
  let out := s.onDev fun d => d.depart site 15 q
  if !d.isNext q then s
  else if p.kill || p.crcBad then out.onDev fun d => d.ejected site q
  else if toCluster p && d.nwt.hold.contains site then s
  else if d.redirects p then out.onDev fun d => d.redirect p
  else if toCluster p && d.siteOut site then out.onDev fun d => d.unmappedAnswer p
  else if toCluster p && d.asleep site then s
  else match act (out.onDev fun d => d.ejected site p) with
    | some t => t
    | none => s

/-- The address of a packet at its sink: a cluster window is the window of the packet's site (R583). -/
def sinkAddr (p : Packet) : Nat :=
  let a := p.addr.toNat
  if 0x1000000000 ≤ a && a < 0x1800000000 then 0x1000000000 + p.dstSite.toNat * 0x8000000 + a % 0x8000000 else a

/-- Whether an LNK block has its face on an edge port of a site (Table 1-3). -/
def lnkAt (site port : Nat) : Bool := (List.range 48).any fun l => lnkFace l == site && lnkPort l == port

/-- Whether a packet is addressed to an LNK block. -/
def toLnk (p : Packet) : Bool :=
  let c := p.dstCore.toNat
  61 ≤ c && c ≤ 62 && lnkAt p.dstSite.toNat (c - 56)

/-- The place that a packet's sink serves for an address: a logical window is that of the packet's site (R241). An LNK block serves
register accesses alone (R394). -/
def Dev.sinkPlace (d : Dev) (p : Packet) (a : Nat) : Place :=
  match d.place (fun _ => some p.dstSite.toNat) a with
  | .mem x => if toLnk p then .unmapped else .mem x
  | .host o => if toLnk p then .unmapped else .host o
  | x => x

/-- The words that AUX of a packet names (Table 6-5). -/
def auxWords (p : Packet) : Nat := p.aux.toNat / 65536 % 256 + 1

/-- A packet for a place in memory or a register: it wakes what sleeps and waits for it (R482), else it is served. -/
def State.serve (s : State) (p : Packet) (act : State → Option State) : State :=
  match s.dev.placeSleeps (s.dev.sinkPlace p (sinkAddr p)) with
  | some n => s.onDev fun d => d.demand n true
  | none => s.sink p act

/-- The write of a WRITE or WRITE_ACK packet; none while the capture of the write waits (R405). -/
def State.packetWrite (s : State) (p : Packet) : Option (State × Nat) :=
  if s.dev.captureWaits (sinkAddr p) p.payload.length then none
  else some (s.rangeWrite (s.dev.sinkPlace p) (sinkAddr p) p.payload)

/-- WRITE: a write that nobody answers (R239, R247). -/
def execWrite (p : Packet) (s : State) : Host.Outcome State Fault Refusal :=
  s.done (s.serve p fun s =>
    match s.packetWrite p with
    | none => none
    | some (t, st) => some (t.onDev fun d => if st = 4 then d.addSat F.FAB_STATUS_NOROUTE p.dstSite.toNat 1 else d))

/-- WRITE_ACK: a write answered with an ACK (R239, R296). -/
def execWriteAck (p : Packet) (s : State) : Host.Outcome State Fault Refusal :=
  s.done (s.serve p fun s =>
    match s.packetWrite p with
    | none => none
    | some (t, st) => some (t.onDev fun d => d.respond p 5 (ackAux st) []))

/-- READ_REQ: a read answered with a READ_RESP (R239). -/
def execReadReq (p : Packet) (s : State) : Host.Outcome State Fault Refusal :=
  s.done (s.serve p fun s =>
    let w := auxWords p
    let r := s.rangeRead (s.dev.sinkPlace p) (sinkAddr p) (w * 8)
    some (r.1.onDev fun d => d.respond p 3 (respAux w r.2.2) r.2.1))

/-! Responses (R261, R271). -/

/-- The request that a response answers. -/
def Dev.reqOf (d : Dev) (site port tag : Nat) : Option Req :=
  d.reqs.find? fun r => r.site == site && r.port == port && r.tag == tag

/-- A request has its answer: its tag is free, and requests that waited for a tag go on (R262). -/
def Dev.endReq (d : Dev) (r : Req) : Dev :=
  Dev.release { d with reqs := d.reqs.erase r } r.site r.port d.injw.length

/-- The PC of the word with a sequence number, while it is in the M queue. -/
def Dev.pcOf (d : Dev) (u seq : Nat) : Nat :=
  match (d.core u).m.find? fun w => w.seq == seq with
  | some w => w.pc
  | none => 0

/-- Bytes for a word that reads a global source: the last of them lets the word go on (R117, R627). -/
def State.readBack (s : State) (u seq off len : Nat) (bs : List Byte) : State :=
  match (s.dev.core u).m.find? fun w => w.seq == seq with
  | none => s
  | some w =>
    let w' : QWord := { w with buf := w.buf.take off ++ takeZ len bs ++ w.buf.drop (off + len), left := w.left - 1 }
    let t := s.onDev fun d => d.modWord u seq fun _ => w'
    if w.left = 1 then t.wordRead u w' else t

/-- A status for the sender of a request that is no read (Table 3-15): ADDRESS is an ADDR_ERR of the core (R10). -/
def Dev.reqStatus (d : Dev) (k : ReqKind) (st : Nat) : Dev :=
  match k with
  | .msg u pc sreg => (if st = 4 then d.corAddrErr u pc else d).putStatus u sreg st
  | .write u _ pc => if st = 4 then d.corAddrErr u pc else d
  | .span l tag => d.spanAck l tag st
  | _ => d

/-- The status that a response carries (Table 6-5). -/
def respStatus (p : Packet) : Nat := p.aux.toNat / 4096 % 16

/-- A response at its requester, or a late one (R261). -/
def State.response (s : State) (p : Packet) (act : State → Req → State) : State :=
  s.sink p fun s =>
    let port := portOfCore p.dstCore.toNat
    match s.dev.reqOf p.dstSite.toNat port p.tag.toNat with
    | none => some (s.onDev fun d => d.addSat F.FAB_STATUS_LATE p.dstSite.toNat 1)
    | some r => some ((act s r).onDev fun d => d.endReq r)

/-- READ_RESP: the bytes reach the word that reads them; status ADDRESS is an ADDR_ERR of the core (R10, R261, R627). -/
def execReadResp (p : Packet) (s : State) : Host.Outcome State Fault Refusal :=
  s.done (s.response p fun s r =>
    match r.kind with
    | .read u seq off len =>
      let st := respStatus p
      let s := if st = 4 then s.onDev fun d => d.corAddrErr u (d.pcOf u seq) else s
      s.readBack u seq off len (if st = 0 then p.payload else [])
    | _ => s)

/-- ACK: the status reaches the sender (R128, R271, R296, R395). -/
def execAck (p : Packet) (s : State) : Host.Outcome State Fault Refusal :=
  s.done (s.response p fun s r => s.onDev fun d => d.reqStatus r.kind (respStatus p))

/-- FAB_TIMEOUT: a request had no response within FAB_TMO: a read returns zeros, a message reports TIMEOUT, the tag rests,
and the router raises FAB_TIMEOUT (R261, R262). -/
def execFabTimeout (site : Site) (port : Fin 7) (tag : BitVec 8) (s : State) : Host.Outcome State Fault Refusal :=
  s.done (match s.dev.reqOf site.val port.val tag.toNat with
    | none => s
    | some r =>
      let s := s.onDev fun d =>
        let d : Dev := { d with reqs := d.reqs.erase r, deadTags := d.deadTags ++ [r] }
        (d.addSat F.FAB_STATUS_TIMEOUTS site.val 1).raise (evU bFAB site.val) 5 1 port.val
      match r.kind with
      | .read u seq off len => s.readBack u seq off len []
      | k => s.onDev fun d => d.reqStatus k 3)

/-! Messages and tests. -/

/-- A MSG packet at its sink (R269 to R273). At an edge port it is for a link, which forwards it by SPAN_FORWARD, for a unit
of the edge (Table 7-3), or for nothing that exists (R628). -/
def State.msgIn (s : State) (p : Packet) : Option State :=
  if toLnk p then none
  else if mKind p = 1 then
    some (s.onDev fun d => if leAt p.payload 2 1 = 1 then d.creditAsk p else d.creditIn p)
  else s.landMsg p

/-- MSG (R269). -/
def execMsg (p : Packet) (s : State) : Host.Outcome State Fault Refusal := s.done (s.sink p fun s => s.msgIn p)

/-- CREDIT_MESSAGE: a credit message reaches the sender's core (R272). -/
def execCreditMessage (p : Packet) (s : State) : Host.Outcome State Fault Refusal :=
  s.done (s.sink p fun s => some (s.onDev fun d => d.creditIn p))

/-- CREDIT_REQUEST: a credit request reaches the receiving core (R273). -/
def execCreditRequest (p : Packet) (s : State) : Host.Outcome State Fault Refusal :=
  s.done (s.sink p fun s => some (s.onDev fun d => d.creditAsk p))

/-- TEST_PACKET: the destination router returns a TEST to SRC_SITE (Table 6-5); one whose DST_SITE is its SRC_SITE is back. -/
def execTestPacket (p : Packet) (s : State) : Host.Outcome State Fault Refusal :=
  s.done (s.sink p fun s => some (s.onDev fun d =>
    let site := p.dstSite.toNat
    if p.srcSite = p.dstSite then d
    else d.reply site (portOfCore p.dstCore.toNat)
      { p with dstSite := p.srcSite, dstCore := p.srcCore, epoch := d.injEpoch site = 1, vc := false }))

/-! Circuit flits (R248, R252). -/

/-- A circuit message at a redirecting site goes on whole as a routed message (R583). -/
def Dev.redirectCirc (d : Dev) (p : Packet) : Dev :=
  let site := p.dstSite.toNat
  let n := p.payload.length
  let ps := (chunks (n / 2032 + 1) 0 p.payload).map fun x =>
    let part := b2n (x.1 == 0) + 2 * b2n (x.1 + x.2.length == n)
    { p with dstSite := BitVec.ofNat 8 (d.fld F.CLU_REDIRECT_SITE site), vc := false, epoch := d.injEpoch site = 1,
             aux := BitVec.ofNat 24 (putBits p.aux.toNat 22 2 part), payload := x.2, len := BitVec.ofNat 4 (lenOf x.2.length),
             addr := BitVec.ofNat 48 (putBits p.addr.toNat 0 24 (mAddr p + x.1)) }
  d.inject site 4 ps (some .other)

/-- A circuit flit at a sink (R252): it is unclaimed where a CSEQ is skipped, where the cluster is out or not in D0, where the sink is
a link (R394), or where the table of its landing is full (R277); the message is then discarded whole. Else it lands with its last flit, at the site of the
sink. -/
def State.circSink (s : State) (site port : Nat) (f : CircFlit) : State :=
  let isIt (x : CircRx) : Bool := x.site == site && x.port == port && x.srcSite == f.pkt.srcSite.toNat &&
    x.srcCore == f.pkt.srcCore.toNat && x.tag == f.pkt.chan.toNat
  let p : Packet := { f.pkt with dstSite := BitVec.ofNat 8 site }
  let d := s.dev
  let pl := d.asmAt p
  let away := port = 4 && !d.redirects p && (d.siteOut site || d.asleep site)
  let full := (port > 4 && lnkAt site port) || ((d.circ.find? isIt).isNone && !d.asmRoom site pl 0)
  let old : CircRx := (d.circ.find? isIt).getD ⟨site, port, f.pkt.srcSite.toNat, f.pkt.srcCore.toNat, f.pkt.chan.toNat, 0, false, pl⟩
  let lost := f.num % 256 ≠ old.next || away || full
  let new : CircRx := { old with next := (f.num + 1) % 256, bad := old.bad || lost }
  let s := s.onDev fun d =>
    let rest := d.circ.filter fun x => !isIt x
    let d : Dev := { d with circ := if f.last then rest else rest ++ [new] }
    if lost then d.unclaimed site port else d
  if !f.last || new.bad then s
  else if s.dev.redirects p then s.onDev fun d => d.redirectCirc p
  else s.landCircuit port p

/-- The slot in which a flit that leaves a router through port o in slot k enters the next one: 2 cycles on, or 4 over a Hallway
(R249). -/
def nextSlot (site o k : Nat) : Nat := (k + if (hallwayOf site o).isSome then 4 else 2) % 8

/-- A circuit flit leaves on one output, in slot k (R248, R249). -/
def State.circOut (s : State) (site k : Nat) (x : CircFlight) (o : Nat) : State :=
  let d := s.dev
  if !hasPort site o then s
  else if (d.rtr site).deadPorts.contains o then s.onDev fun d => d.unclaimed site o
  else if o < 4 && d.hopShut site o then s.onDev fun d => d.hopDiscard site o 1
  else
    let s := s.onDev fun d => (d.addWrap F.FAB_PORT_FLITS_CIRC site 1 o).countEv site evFlit 1
    if o ≥ 4 then s.circSink site o x.f
    else match neighbour site o with
      | some t => s.onDev fun d => { d with circNet := d.circNet ++ [CircFlight.mk t (backPort o) (nextSlot site o k) none x.f none] }
      | none => s

/-- The circuit flit that a router takes from an input in slot k: the first there of its channel (R275), which comes in that slot, or
at its injection port may leave in it by the channel's SLOTS (R248, R267). A flit of which none is there has just arrived, if no other
comes in the slot. -/
def Dev.circTake (d : Dev) (site port k : Nat) (f : CircFlit) : Option CircFlight :=
  let here := d.circNet.filter fun x => x.site == site && x.port == port
  match here.find? fun x => x.f.pkt.srcSite == f.pkt.srcSite && x.f.pkt.srcCore == f.pkt.srcCore && x.f.pkt.chan == f.pkt.chan with
  | some x =>
    let its : Bool := match x.slots with
      | none => x.slot == k
      | some m => bitOf m k
    if x.f = f && its then some x else none
  | none => if here.any fun x => x.slots.isNone && x.slot == k then none else some ⟨site, port, k, none, f, none⟩

/-- CIRCUIT_FLIT: the entry of the input and slot sends the flit on in the same slot (R248); without one it is unclaimed (R252),
except at a gateway, which injects only in the slots that its entries reserve. The last flit of a core's message that leaves its
router port makes the message DELIVERED (R271, R296). A flit that comes to a clamped receiver is discarded and counted (R29). One with a sideband error that cannot be corrected, or whose CRC fails,
goes no further (R237, R260). -/
def execCircuitFlit (site : Site) (port : Fin 7) (slot : Fin 8) (f : CircMet) (s : State) :
    Host.Outcome State Fault Refusal :=
  let i := site.val
  let ix := 8 * port.val + slot.val
  let e := sget (s.dev.rtr i).circ 0 ix
  let live := bitOf e 31 && !(s.dev.rtr i).deadPorts.contains port.val
  match s.dev.circTake i port.val slot.val f.f with
  | none => s.done s
  | some x =>
    let waits := ((i :: ((List.range 4).filter fun o => bitOf e (23 + o)).filterMap (neighbour i)).map fun t => domFab (fieldOf t)).eraseDups
    if !hasPort i port.val || (port.val = 4 && !live) then s.done s
    else if waits.any s.dev.rests then s.done (s.onDev fun d => d.demands (waits.filter d.rests))
    else
      let fd := judgeFlit (circFlitOf f.f) (f.flips.map fun x => x.val)
      let out := s.onDev fun d =>
        let d := Dev.countFinds { d with circNet := d.circNet.erase x } i port.val [fd]
        match x.kind with
        | some k => d.reqStatus k 0
        | none => d
      s.done (if s.dev.hopClamped i port.val then
          s.onDev fun d => Dev.hopDiscard { d with circNet := d.circNet.erase x } i port.val 1
        else if fd.ue || fd.crc then out
        else if live then
          let t := out.onDev fun d => d.modRtr i fun r => { r with circ := sset r.circ 0 (circAt ix) d.now }
          t.each ((List.range 7).filter fun o => bitOf e (23 + o)) fun s o => s.circOut i slot.val x o
        else out.onDev fun d => d.unclaimed i port.val)

end Sys2Proof.Machine
end

