-- ==== Sys2Proof/Machine/Sill.lean ====
section
/-! DEFINITION. The Sill link and the UCIe sideband (spec/09_host_and_commands.md R337 to R347): flits, requests from the
host, and the answers to the reads that Merif sends to it. -/

namespace Sys2Proof.Machine

/-- Whether a request of the host is malformed (R340): a reserved TYPE, an NTF, which only Merif sends, a reserved field that
is not zero, ADDR [1:0] among them (assumption 41), or bytes across a 4 KiB boundary. -/
def sillBad (r : SillReq) : Bool :=
  r.ty.toNat ≥ 5 || r.rsv != 0 || r.rsv2 != 0 || r.addr.toNat % 4 ≠ 0 ||
  ((r.ty == 1 || r.ty == 2 || r.ty == 3) && decide (r.addr.toNat % 4096 + sillLen r > 4096))

/-- Count a malformed request; UCI_MALFORMED at 256 (R340, R347, R378). -/
def Dev.malformed (d : Dev) : Dev :=
  let n := d.fld F.UCI_STATUS_MALFORMED 0
  let d := d.addSat F.UCI_STATUS_MALFORMED 0 1
  if n < 256 && d.fld F.UCI_STATUS_MALFORMED 0 ≥ 256 then d.raise (evU bUCI 0) 3 0 0 else d

/-- The notice of an unmapped address of a Sill request, at instance 0 (R10). -/
def Dev.sillAddrErr (d : Dev) : Dev := d.raise (evU bUCI 0) 4 0 0

/-- Answer an RD (R342): CPL with the data, or CPLE with the status. -/
def Dev.sillAnswer (d : Dev) (r : SillReq) (st : Nat) (bs : List Byte) : Dev :=
  if st = 0 then d.sillPut ⟨3, 0, r.tag, r.len, 0, 0, r.addr, bs⟩
  else d.sillPut ⟨4, 0, r.tag, 0, BitVec.ofNat 4 st, 0, r.addr, []⟩

/-- Whether a request that arrived has its turn: no earlier WR stands before it (R342). -/
def sillTurn (r : SillReq) : List SillReq → Bool
  | [] => true
  | x :: rest => if x = r then true else if x.ty == 1 then false else sillTurn r rest

/-- Credits become due for return: those of a request of the host that is served or discarded. Its completions need none, since
theirs are without limit (R341). -/
def SillS.due (x : SillS) (r : SillReq) : SillS :=
  let n := if r.ty = 3 || r.ty = 4 then [0, 0, 0, 0, 0] else sillNeed r
  { x with ret := (List.range 5).map fun i => x.ret.getD i 0 + n.getD i 0 }

/-- The first occurrence of a request is served, and its credit returned. -/
def Dev.sillTake (d : Dev) (r : SillReq) : Dev :=
  if d.sill.inq.contains r then d.modSill fun x => { x with inq := x.inq.erase r }.due r else d

/-- The place of an address that the host names: bits above 47 make it unmapped. -/
def Dev.hostPlace (d : Dev) (a : Nat) : Place := if a < 2 ^ 48 then d.place d.hostMap a else .unmapped

/-- The domains that a host access waits for: UCIe, those on its way, and that of its place (R482). -/
def Dev.sillWaits (d : Dev) (a : Nat) : List Nat :=
  [domUci].filter d.rests ++ d.accessWaits d.hostSite 5 (d.hostPlace a) a

/-- WR: a posted write of the host (R339, R340, R347). A write that lands in the entry at HEAD makes the command engine
examine it (R350). -/
def State.sillWr (s : State) (r : SillReq) : State :=
  let a := r.addr.toNat
  let bs := takeZ (sillLen r) r.data
  let out := s.onDev fun d => d.sillTake r
  if sillBad r || (hostRo ≤ a + bs.length - 1 && a < 0x1000000) then out.onDev Dev.malformed
  else match s.dev.sillWaits a with
    | n :: ns => s.onDev fun d => d.demands (n :: ns)
    | [] =>
      if s.dev.captureWaits a bs.length then s
      else
        let (t, st) := out.rangeWrite s.dev.hostPlace a bs
        t.onDev fun d =>
          let d := if st = 4 then d.sillAddrErr else d
          let e := d.ringAt + 64 * d.fld F.CMD_RING_HEAD_INDEX 0
          if a < e + 64 && e < a + bs.length then d.examine else d

/-- RD: a read of the host (R339, R340, R342). -/
def State.sillRd (s : State) (r : SillReq) : State :=
  let a := r.addr.toNat
  let out := s.onDev fun d => d.sillTake r
  if sillBad r then out.onDev fun d => d.malformed.sillAnswer r 4 []
  else match s.dev.sillWaits a with
    | n :: ns => s.onDev fun d => d.demands (n :: ns)
    | [] =>
      let q := out.rangeRead s.dev.hostPlace a (sillLen r)
      q.1.onDev fun d => (if q.2.2 = 4 then d.sillAddrErr else d).sillAnswer r q.2.2 q.2.1

/-- WR (R339). -/
def execWr (r : SillReq) (s : State) : Host.Outcome State Fault Refusal :=
  s.done (if sillTurn r s.dev.sill.inq then (s.sillWr { r with ty := 1 }).onDev Dev.sillIdle else s)

/-- RD (R343). -/
def execRd (r : SillReq) (s : State) : Host.Outcome State Fault Refusal :=
  s.done (if sillTurn r s.dev.sill.inq then (s.sillRd { r with ty := 2 }).onDev Dev.sillIdle else s)

/-- A request has arrived whole: it follows those that wait; one of a reserved TYPE, or an NTF, is discarded at once (R340). -/
def Dev.sillGot (d : Dev) (r : SillReq) : Dev :=
  if r.ty.toNat ≥ 5 then (if r.ty = 5 then d.modSill fun x => x.due r else d).malformed
  else d.modSill fun x => { x with inq := x.inq ++ [r] }

/-- One slot of a flit that is not its header (R338): the next data slot of the request under way, or a header. An idle slot is all
zero; TYPE 0 with a reserved field that is not zero is malformed (R340). -/
def Dev.sillSlot (d : Dev) (w : BitVec 128) : Dev :=
  match d.sill.part with
  | some (r, n) =>
    let r := { r with data := r.data ++ leBytes 16 w.toNat }
    if n ≤ 1 then (d.modSill fun x => { x with part := none }).sillGot { r with data := r.data.take (sillLen r) }
    else d.modSill fun x => { x with part := some (r, n - 1) }
  | none =>
    let r := sillOfHead w
    if r.ty = 0 then (if r.rsv = 0 && r.rsv2 = 0 then d else d.malformed)
    else if sillHasData r.ty then d.modSill fun x => { x with part := some (r, sillSlots r) }
    else d.sillGot r

/-- The credits that a flit of the host gives: its first one advertises them, 0 for credit without limit (R341). -/
def SillS.earn (x : SillS) (c : List Nat) : SillS :=
  if x.met then { x with cred := (List.range 5).map fun i => (x.cred.getD i (some 0)).map fun k => k + c.getD i 0 }
  else { x with met := true, cred := (List.range 5).map fun i => if c.getD i 0 = 0 then none else some (c.getD i 0) }

/-- Take the flit whose FSEQ comes next: its credits, then its slots. -/
def Dev.flitTake (d : Dev) (ws : List (BitVec 128)) : Dev :=
  (d.modSill fun x => { x with seq := (x.seq + 1) % 65536 }.earn (flitCred (ws.headD 0))).each ((ws.drop 1).take 14)
    fun d w => d.sillSlot w

/-- Take the flits that came ahead and whose turn it is, at most n. -/
def Dev.flitDrain (d : Dev) : Nat → Dev
  | 0 => d
  | n + 1 =>
    match d.sill.ahead.find? fun x => x.1 == d.sill.seq with
    | none => d
    | some x => ((d.modSill fun y => { y with ahead := y.ahead.erase x }).flitTake x.2).flitDrain n

/-- A flit with its FSEQ: the receiver restores the order of FSEQ, and takes no flit twice (R336). -/
def Dev.flitIn (d : Dev) (ws : List (BitVec 128)) : Dev :=
  let n := flitSeq (ws.headD 0)
  let gap := (n + 65536 - d.sill.seq) % 65536
  if gap = 0 then (d.flitTake ws).flitDrain d.sill.ahead.length
  else if gap < 32768 && !(d.sill.ahead.any fun x => x.1 == n) then d.modSill fun x => { x with ahead := x.ahead ++ [(n, ws)] }
  else d

/-- SILL_FLIT: on a module that carries Sill, a flit with a good CRC is taken in the order of FSEQ, and what waited for credit goes
(R336, R338, R341). While the main band is in its low-power state or off, the flit only wakes it, and the host's adapter has it sent
again (Table 13-1, R482, R489, assumption 138). One whose CRC fails is counted and has no other effect: the adapter has it sent again (Table 9-29,
assumption 88). -/
def execSillFlit (f : SillFlit) (s : State) : Host.Outcome State Fault Refusal :=
  s.upd fun d =>
    if !d.flag F.UCI_STATUS_IN_SILL f.module.val then d
    else if (d.dom domUci).level ≥ 2 then d.demand domUci true
    else if !f.crcOk then (d.addSat F.UCI_STATUS_CRC_ERR f.module.val 1).addSat F.UCI_STATUS_REPLAYS f.module.val 1
    else
      let d := if d.rests domUci then d.demand domUci true else d
      ((d.flitIn f.slots).sillPump).sillIdle

/-! Reads that Merif sends to the host (R344). -/

/-- Complete a command that fetches; the tags of its outstanding reads rest (R344). -/
def Dev.cmdEnd (d : Dev) (seq st r0 r1 : Nat) : Dev :=
  let tags := (d.hostReads.filter fun h => h.seq == seq).map fun h => (h.tag, d.now)
  Dev.complete { d with hostDead := d.hostDead ++ tags } seq st r0 r1

/-- Bytes that a command has copied: RESULT0 of a COPY, 0 for every other command that ends early (Table 9-8). -/
def Dev.cmdMoved (d : Dev) (seq : Nat) : Nat :=
  match d.cmds.find? fun c => c.seq == seq with
  | some c => if ceOp c.entry = 0x10 then c.moved else 0
  | none => 0

/-- CPL: the data of a read that Merif issued; an answer with no such tag is discarded (R342, R344), and so is a malformed one
(R340). It waits for the WRs that came before it (R342). -/
def execCpl (r : SillReq) (data : List Byte) (s : State) : Host.Outcome State Fault Refusal :=
  s.upd fun d =>
    let r := { r with data := data }
    if !sillTurn r d.sill.inq then d
    else
      let d := d.sillTake r
      if sillBad { r with ty := 3 } then d.malformed
      else match d.hostReads.find? fun h => h.tag == r.tag.toNat with
        | none => d
        | some h =>
          let d : Dev := { d with hostReads := d.hostReads.erase h }
          d.modCmd h.seq fun c =>
            { c with buf := c.buf.take h.off ++ takeZ h.len r.data ++ c.buf.drop (h.off + h.len), left := c.left - 1 }

/-- The completion status for an error status of a read: DATA, TIMEOUT or ADDRESS (Tables 3-15, 9-9). -/
def readFail (st : Nat) : Nat := if st = 5 then 7 else if st = 3 then 8 else 6

/-- CPLE: a read that Merif issued ended with an error status, and its command with it (R342, R355). Order and form are as for
CPL. -/
def execCple (r : SillReq) (status : BitVec 4) (s : State) : Host.Outcome State Fault Refusal :=
  s.upd fun d =>
    let r := { r with status := status }
    if !sillTurn r d.sill.inq then d
    else
      let d := d.sillTake r
      if sillBad { r with ty := 4 } then d.malformed
      else match d.hostReads.find? fun h => h.tag == r.tag.toNat with
        | none => d
        | some h =>
          let d : Dev := { d with hostReads := d.hostReads.erase h }
          d.cmdEnd h.seq (readFail r.status.toNat) (d.cmdMoved h.seq) 0

/-- HOST_READ_TIMEOUT: a read has no answer within 100 µs: its command ends with TIMEOUT, and the tag rests for 200 µs
(R344). -/
def execHostReadTimeout (tag : BitVec 10) (s : State) : Host.Outcome State Fault Refusal :=
  s.upd fun d =>
    match d.hostReads.find? fun h => h.tag == tag.toNat with
    | none => d
    | some h => d.cmdEnd h.seq 8 (d.cmdMoved h.seq) 0

/-! The sideband (R337). -/

/-- WAKE: a device wake when SB_EN is 1 (Table 13-4). -/
def execWake (s : State) : Host.Outcome State Fault Refusal :=
  s.done (s.onDev fun d => if d.flag F.PCH_WAKE_CTRL_SB_EN 0 && d.pstate ≠ 4 then d.deviceWake 2 else d)

/-- SIDEBAND_REGISTER_ACCESS: 4 or 8 B of a UCI or PCH register, in every state except Off (R337). -/
def execSidebandRegisterAccess (write : Bool) (addr : BitVec 48) (eight : Bool) (v : Word) (s : State) :
    Host.Outcome State Fault Refusal :=
  let size := if eight then 8 else 4
  let none_ := if write then s else s.onDev fun d => d.emit (.regRead addr.toNat 0)
  s.done (if s.dev.pstate = 4 then s
    else match s.dev.hostPlace addr.toNat with
      | .reg blk inst off =>
        if (blk ≠ bUCI && blk ≠ bPCH) || !accOk off size then none_
        else if write then s.regWrite blk inst off size v.toNat
        else s.onDev fun d =>
          let r := d.regRead blk inst off size
          r.1.emit (.regRead addr.toNat (BitVec.ofNat 64 r.2))
      | _ => none_)

end Sys2Proof.Machine
end

