-- ==== Sys2Proof/Machine/CommandRun.lean ====
section
/-! DEFINITION. The commands that move data (spec/09_host_and_commands.md R355 to R359): COPY, PREFILL, SNAPSHOT and
RESTORE. A row of one of them runs its command as far as it can go: until reads of the host are outstanding, or, for
COPY, to the next 4 KiB boundary of the destination. -/

namespace Sys2Proof.Machine

/-- An address word names a host address (R355). -/
def awHost (w : Nat) : Bool := bitOf w 63

/-- The address of an address word. -/
def awAddr (w : Nat) : Nat := if awHost w then bitsOf w 0 56 else bitsOf w 0 48

/-- Whether an address word has a bit set that must be 0 (R355), or names no whole 4 B unit (Table 9-4). -/
def awBad (w : Nat) : Bool := (if awHost w then bitsOf w 56 7 ≠ 0 else bitsOf w 48 15 ≠ 0) || w % 4 ≠ 0

/-- A tag for a read of the host: not outstanding and not at rest (R344). -/
def Dev.hostTag (d : Dev) : Option Nat :=
  (List.range 1024).find? fun t =>
    !(d.hostReads.any fun h => h.tag == t) && !(d.hostDead.any fun x => x.1 == t && decide (d.now < x.2 + 200000))

/-- Cut a host range into reads of at most 256 B that cross no 4 KiB boundary, as (offset, length) (R340). -/
def readCut : Nat → Nat → Nat → Nat → List (Nat × Nat)
  | 0, _, _, _ => []
  | n + 1, a, off, len =>
    if len = 0 then [] else let k := min len (min 256 (4096 - a % 4096)); (off, k) :: readCut n (a + k) (off + k) (len - k)

/-- Send the reads of a command for n bytes at host address a, into its buffer from its end on. Nothing is sent while not
every read finds a tag. -/
def Dev.hostFetch (d : Dev) (seq a n : Nat) : Dev :=
  match d.cmds.find? fun c => c.seq == seq with
  | none => d
  | some c =>
    let o := c.buf.length
    let ps := readCut (n / 64 + 2) a 0 n
    if d.hostReads.length + d.hostDead.length + ps.length > 1024 then
      { d with hostDead := d.hostDead.filter fun x => decide (d.now < x.2 + 200000) }
    else
      let d := d.modCmd seq fun x => { x with buf := x.buf ++ zeros n, left := ps.length }
      d.each ps fun d p =>
        match d.hostTag with
        | none => d
        | some t =>
          let d : Dev := { d with hostReads := d.hostReads ++ [HostRd.mk t seq (o + p.1) p.2] }
          d.sillPut ⟨2, 0, BitVec.ofNat 10 t, BitVec.ofNat 6 (p.2 / 4 - 1), 0, 0, BitVec.ofNat 56 (a + p.1), []⟩

/-- The place of a global address for the command engine. -/
def Dev.cmdPlace (d : Dev) (a : Nat) : Place := d.place d.edgeSite a

/-- Cut a range at 4 KiB boundaries, as (address, length). -/
def pages : Nat → Nat → Nat → List (Nat × Nat)
  | 0, _, _ => []
  | n + 1, a, len => if len = 0 then [] else let k := min len (4096 - a % 4096); (a, k) :: pages n (a + k) (len - k)

/-- Read n bytes of device memory or registers: the bytes and the first status that is not 0. -/
def State.devRead (s : State) (a n : Nat) : State × List Byte × Nat :=
  (pages (n / 4096 + 2) a n).foldl (fun x p =>
    let r := x.1.rangeRead x.1.dev.cmdPlace p.1 p.2
    (r.1, x.2.1 ++ r.2.1, if x.2.2 = 0 then r.2.2 else x.2.2)) (s, [], 0)

/-- Write bytes to device memory or registers: the first status that is not 0. -/
def State.devWrite (s : State) (a : Nat) (bs : List Byte) : State × Nat :=
  (pages (bs.length / 4096 + 2) a bs.length).foldl (fun x p =>
    let r := x.1.rangeWrite x.1.dev.cmdPlace p.1 ((bs.drop (p.1 - a)).take p.2)
    (r.1, if x.2 = 0 then r.2 else x.2)) (s, 0)

/-- The domain that a device range sleeps in, by its first address. -/
def Dev.awSleeps (d : Dev) (w : Nat) : List Nat := if awHost w then [] else d.cmdWaits (awAddr w)

/-- The notice of the command engine of an unmapped address in a transfer that a command makes (R10). -/
def Dev.cmdAddrErr (d : Dev) (st : Nat) : Dev := if st = 4 then d.raise (evU bCMD 0) 8 0 0 else d

/-- Get n bytes for a command from an address word from offset `off` on, and go on with them; a device range that sleeps is
woken first, and reads of the host are sent one page at a time and waited for (R344, R355, R482). -/
def State.fetch (s : State) (c : CmdS) (w off n : Nat) (k : State → List Byte → State) : State :=
  if awHost w then
    if c.left ≠ 0 then s
    else if c.buf.length ≥ n then k s (c.buf.take n)
    else
      let a := awAddr w + off + c.buf.length
      s.onDev fun d => d.hostFetch c.seq a (min (n - c.buf.length) (4096 - a % 4096))
  else match s.dev.awSleeps w with
    | x :: xs => s.onDev fun d => d.demands (x :: xs)
    | [] =>
      let r := s.devRead (awAddr w + off) n
      if r.2.2 = 0 then k r.1 r.2.1
      else r.1.onDev fun d => (d.cmdAddrErr r.2.2).cmdEnd c.seq (readFail r.2.2) (d.cmdMoved c.seq) 0

/-- Put bytes at an address word: the status, 0 or not. -/
def State.putAw (s : State) (w off : Nat) (bs : List Byte) : State × Nat :=
  if awHost w then (s.onDev fun d => d.hostWr (bs.length / 64 + 2) (awAddr w + off) bs, 0)
  else s.devWrite (awAddr w + off) bs

/-! COPY (R354, R355, R359). -/

/-- One part of a COPY: up to the next 4 KiB boundary of the destination (assumption 42). A COPY into SM of a core that runs
ends with ADDRESS (R139). -/
def State.copyPart (s : State) (c : CmdS) : State :=
  let p := ceP c.entry
  let len := bitsOf (p 2) 0 40
  let dst := p 1
  if c.moved = 0 && (awBad (p 0) || awBad dst || len % 8 ≠ 0) then s.onDev fun d => d.cmdEnd c.seq 3 0 0
  else if c.left = 0 && c.cancelled && (awAddr dst + c.moved) % 4096 = 0 then
    s.onDev fun d => d.cmdEnd c.seq 1 c.moved 0
  else
    let n := min (len - c.moved) (4096 - (awAddr dst + c.moved) % 4096)
    if n = 0 then s.onDev fun d => d.cmdEnd c.seq 0 c.moved 0
    else match s.dev.awSleeps dst with
      | x :: xs => s.onDev fun d => d.demands (x :: xs)
      | [] =>
        s.fetch c (p 0) c.moved n fun t bs =>
          if !awHost dst && t.dev.captureWaits (awAddr dst + c.moved) n then t
          else
            let r := t.putAw dst c.moved bs
            r.1.onDev fun d =>
              if r.2 ≠ 0 then (d.cmdAddrErr r.2).cmdEnd c.seq 6 c.moved 0
              else
                let d := d.modCmd c.seq fun x => { x with moved := c.moved + n, buf := [], left := 0 }
                if c.moved + n = len then d.cmdEnd c.seq 0 len 0 else d

/-- COPY: a running COPY moves its next part (Table 9-8). -/
def execCopy (seq : BitVec 64) (s : State) : Host.Outcome State Fault Refusal :=
  match s.dev.running seq.toNat 0x10 with
  | some c => s.done (s.copyPart c)
  | none => s.done s

/-! PREFILL (R356, R357). -/

/-- PREFILL: its tokens are read, and the session position advances by their count. -/
def execPrefill (seq : BitVec 64) (s : State) : Host.Outcome State Fault Refusal :=
  match s.dev.running seq.toNat 3 with
  | none => s.done s
  | some c =>
    let n := bitsOf (ceP c.entry 1) 0 32
    let i := ceSess c.entry
    let x := s.dev.sess i
    s.done (if n = 0 || n > 1048576 || awBad (ceP c.entry 0) then s.onDev fun d => d.cmdEnd c.seq 3 0 0
      else if x.pos + n > x.cap then s.onDev fun d => d.cmdEnd c.seq 3 x.pos (x.cap - x.pos)
      else s.fetch c (ceP c.entry 0) 0 (4 * n) fun t _ =>
        t.onDev fun d => ((d.modSess i fun y => { y with pos := x.pos + n }).showSess i).cmdEnd c.seq 0 (x.pos + n) 0)

/-! SNAPSHOT and RESTORE (R356, R357, Table 9-30). -/

/-- The bytes of a snapshot: its header, the session's save area with its generator state and adapter copies, and the
key-value entries up to the position (assumption 43). -/
def Dev.snapLen (d : Dev) (pos : Nat) : Nat := 64 + 0x400000 + pos * d.img (fun m => m.kvBytes)

/-- The snapshot header over a body. -/
def Dev.snapHdr (d : Dev) (pos : Nat) (body : List Byte) : List Byte :=
  leBytes 4 0x534E4150 ++ leBytes 2 1 ++ zeros 2 ++ leBytes 8 (64 + body.length) ++
    leBytes 8 d.man.imageId ++ leBytes 8 pos ++ sha3 body

/-- SNAPSHOT: the session's state goes to the destination behind its header. -/
def execSnapshot (seq : BitVec 64) (s : State) : Host.Outcome State Fault Refusal :=
  match s.dev.running seq.toNat 6 with
  | none => s.done s
  | some c =>
    let w := ceP c.entry 0
    let i := ceSess c.entry
    let x := s.dev.sess i
    let n := s.dev.snapLen x.pos
    s.done (if awBad w then s.onDev fun d => d.cmdEnd c.seq 3 0 0
      else if bitsOf (ceP c.entry 1) 0 40 < n then s.onDev fun d => d.cmdEnd c.seq 3 0 n
      else match s.dev.saveSleeps [i] ++ s.dev.awSleeps w with
        | k :: ks => s.onDev fun d => d.demands (k :: ks)
        | [] =>
          if !awHost w && s.dev.captureWaits (awAddr w) n then s
          else
            let s := s.saveActive
            let r := s.devRead x.base (n - 64)
            if r.2.2 ≠ 0 then r.1.onDev fun d => (d.cmdAddrErr r.2.2).cmdEnd c.seq (readFail r.2.2) 0 0
            else
              let q := r.1.putAw w 0 (s.dev.snapHdr x.pos r.2.1 ++ r.2.1)
              -- one that cannot be written whole writes nothing (R357)
              if q.2 ≠ 0 then r.1.onDev fun d => (d.cmdAddrErr q.2).cmdEnd c.seq 6 0 0 else q.1.onDev fun d => d.cmdEnd c.seq 0 n 0)

/-- What a RESTORE does with the whole snapshot: its header and digest are checked, then the session takes its state. -/
def State.restoreWith (s : State) (c : CmdS) (room : Nat) (b : List Byte) : State :=
  let d := s.dev
  let i := ceSess c.entry
  let x := d.sess i
  let len := leAt b 8 8
  let pos := leAt b 24 8
  if leAt b 0 4 ≠ 0x534E4150 || leAt b 4 2 ≠ 1 || len > room || len ≠ d.snapLen pos ||
      leAt b 16 8 ≠ d.man.imageId || pos > x.cap then s.onDev fun d => d.cmdEnd c.seq 3 0 0
  else
    let body := (b.take len).drop 64
    if (b.take 64).drop 32 ≠ sha3 body then s.onDev fun d => d.cmdEnd c.seq 7 0 0
    else
      let r := s.devWrite x.base body
      -- one that cannot be carried out whole changes nothing (R357)
      if r.2 ≠ 0 then s.onDev fun d => (d.cmdAddrErr r.2).cmdEnd c.seq 6 0 0
      else (r.1.sessionLoad i).onDev fun d => ((d.modSess i fun y => { y with pos := pos }).showSess i).cmdEnd c.seq 0 pos 0

/-- RESTORE: the whole snapshot is read, checked, and taken. Of its P1 bytes only LENGTH are read, once the header is
there. -/
def execRestore (seq : BitVec 64) (s : State) : Host.Outcome State Fault Refusal :=
  match s.dev.running seq.toNat 7 with
  | none => s.done s
  | some c =>
    let w := ceP c.entry 0
    let room := bitsOf (ceP c.entry 1) 0 40
    s.done (if awBad w || room < 64 then s.onDev fun d => d.cmdEnd c.seq 3 0 0
      else s.fetch c w 0 64 fun s h =>
        let len := leAt h 8 8
        if leAt h 0 4 ≠ 0x534E4150 || len > room || len < 64 then s.onDev fun d => d.cmdEnd c.seq 3 0 0
        else s.fetch c w 0 len fun s b =>
          if s.dev.captureWaits (s.dev.sess (ceSess c.entry)).base len then s
          else match s.dev.saveSleeps [ceSess c.entry] with
            | k :: ks => s.onDev fun d => d.demands (k :: ks)
            | [] => s.restoreWith c room b)

end Sys2Proof.Machine
end

