-- ==== Sys2Proof/Machine/Loads.lean ====
section
/-! DEFINITION. What the sections of a Floman image load into their targets (Table 16-5), by address. -/

namespace Sys2Proof.Machine

/-- The place of a global address for the boot sequencer (site 250) or Newt (site 251): the logical map is that of the epoch of its
own edge port (Table 1-3, R241). -/
def Dev.portPlace (d : Dev) (port a : Nat) : Place := d.place (d.portMap port) a

/-- Load a register of an image. The boot sequencer writes ring configurations and Cistern slots whole, which the host
cannot, and ROLE of a link (Table 10-11); of COR_CTRL it writes ENTRY alone; every other register takes the value as from a
write of 8 B. -/
def State.loadReg (port : Nat) (s : State) (x : RegLoad) : State :=
  match s.dev.portPlace port x.addr.toNat with
  | .reg blk inst off =>
    match findReg blk off with
    | some (r, i) =>
      if r.code = R.CLU_RING_CFG.code || r.code = R.CLU_CST1.code then
        s.onDev fun d => d.setR r inst (x.value &&& 0x8FFFFFFFFFFFFFFF) i
      else if r.code = R.COR_CTRL.code then s.onDev fun d => d.setF F.COR_CTRL_ENTRY inst (bitsOf x.value.toNat 16 13)
      else if r.code = R.LNK_CTRL.code then
        (s.onDev fun d => d.setF F.LNK_CTRL_ROLE inst (bitsOf x.value.toNat 4 2)).regWrite blk inst off 8 x.value.toNat
      else s.regWrite blk inst off 8 x.value.toNat
    | none => s
  | _ => s

/-- Load bytes of an image into memory. -/
def State.loadMem (port : Nat) (s : State) (x : MemLoad) : State :=
  match s.dev.portPlace port x.addr.toNat with
  | .mem a => s.put a x.bytes
  | _ => s

/-- Load a table entry of an image; the model's coefficients also stand as the image's initial ones (R462). -/
def Dev.loadTbl (d : Dev) (x : TblLoad) : Dev :=
  let e := x.entry.toNat
  if x.table ≤ 1 then d.putTrn x.table x.index e
  else if x.table ≤ 6 then d.putTbl x.unit (x.table - 2) x.index e
  else if x.table = 7 then d.putDesc x.unit x.index e
  else
    let d : Dev := { d with pwr := { d.pwr with modelInit := sset d.pwr.modelInit 0 (x.unit * 64 + x.index) e } }
    match d.newtSite x.unit with
    | some site => { d with pwr := { d.pwr with model := sset d.pwr.model 0 (site * 64 + x.index) e } }
    | none => d

/-- Whether an address lies in the window of a logical cluster (R7). -/
def inLclu (l a : Nat) : Bool := 0x1800000000 + l * 0x8000000 ≤ a && a < 0x1800000000 + (l + 1) * 0x8000000

/-- Load the registers and memories of an image at the addresses that a choice admits. -/
def State.loadWhere (port : Nat) (s : State) (img : Image) (ok : Nat → Bool) : State :=
  let s := s.each (img.mems.filter fun x => ok x.addr.toNat) (State.loadMem port)
  s.each (img.regs.filter fun x => ok x.addr.toNat) (State.loadReg port)

/-- Copy an extent of the WEIGHT_MAP from the Cellar to its destination. -/
def State.copyExtent (s : State) (x : WeightExt) : State :=
  let r := s.devRead x.src.toNat x.len
  (r.1.devWrite x.dst.toNat r.2.1).1

/-- Whether the Cellar serves (R326): enough channels, none ABSENT or FAILED in the interleave. -/
def Dev.cellarThere (d : Dev) : Bool := d.celN ≥ 6

/-- Start the AUTORUN cores of an image that a choice admits (Table 16-6 step 10, R584). -/
def Dev.autorun (d : Dev) (img : Image) (ok : Nat → Bool) : Dev :=
  d.each (img.autorun.filter fun x => ok x.1.val) fun d x =>
    match d.newtSite x.1.val with
    | none => d
    | some site => match d.coreMap site x.2.val with
      | some c => d.coreRun (cu site c)
      | none => d

/-- Give a cluster site its core map, the 32 lowest-numbered good core sites, and its ORDER (R539, R573). -/
def Dev.makeCoreMap (d : Dev) (site : Nat) : Dev :=
  let cs := d.firstCores site
  Dev.setOrder (site := site) <| d.each (List.range 4) fun d w =>
    let v := (List.range 8).foldl (fun a b => match cs.drop (8 * w + b) with
      | c :: _ => a + (128 + c) * 2 ^ (8 * b)
      | [] => a) 0
    d.setR R.CLU_CORE_MAP site (BitVec.ofNat 64 v) w

/-- Show the usable spare sites in NWT_STATUS (Table 18-11). -/
def Dev.showSpares (d : Dev) : Dev := d.setF F.NWT_STATUS_SPARE_CLU 0 d.spareSites.length

/-- A core site that begins to serve takes the image's FLOOR, ENTRY and settings by the loads; its FLOOR is that of POLICY
(R87). -/
def Dev.setFloor (d : Dev) (site : Nat) : Dev :=
  let v := d.img fun m => m.floor.toNat
  d.each (List.range 36) fun d c => d.setF F.COR_FMAX_FLOOR (cu site c) v

end Sys2Proof.Machine
end

