-- ==== Sys2Proof/Machine/Newt.lean ====
section
/-! DEFINITION. Newt's swap windows (spec/18_spares_and_testing.md R572 to R585): core swaps, live and dead cluster swaps,
row repairs and fuse update records. -/

namespace Sys2Proof.Machine

/-- Routers that answer. -/
def Dev.liveRouters (d : Dev) : List Nat := (List.range 256).filter fun x => !d.fieldLost (fieldOf x)

/-- VC1_EN in every router (R254). -/
def Dev.vc1 (d : Dev) (on : Bool) : Dev := d.each d.liveRouters fun d x => d.setB F.FAB_CTRL_VC1_EN x on

/-- VC1_EN after a test of Skink, which sets and clears it around its test; a window of Newt keeps it set (R254). -/
def Dev.vc1Done (d : Dev) : Dev := if d.nwt.window then d else d.vc1 false

/-! Copies (R580, R581). -/

/-- The words of a range of memory that are marked uncorrectable. -/
def State.dirtyIn (s : State) (a n : Nat) : Nat :=
  (s.ecc.filter fun x => decide (a ≤ x.1 ∧ x.1 < a + n) && x.2 == 2).length

/-- Copy a range of device memory to another place: corrected words go in their corrected form, uncorrectable words stay
uncorrectable (R581). -/
def State.copyRange (s : State) (a b n : Nat) : State :=
  let at_ (k : Nat) : Bool := a ≤ k && k < a + n
  let cells := (s.mem.filter fun x => at_ x.1).map fun x => (x.1 - a + b, x.2)
  let marks := (s.ecc.filter fun x => at_ x.1 && x.2 == 2).map fun x => (x.1 - a + b, x.2)
  { s with mem := canon 0 (cells ++ dropRange s.mem b (b + n)), ecc := canon 0 (marks ++ dropRange s.ecc b (b + n)) }

/-- Copy every word of a register from one unit to another. -/
def Dev.copyReg (d : Dev) (r : Reg) (u v : Nat) : Dev :=
  d.each (List.range (max 1 r.count)) fun d i => d.setR r v (d.getR r u i) i

/-- The registers of a core that step 4 of Table 18-2 copies whole. -/
def swapRegs : List Reg :=
  [R.COR_SCALAR, R.COR_DESC0, R.COR_DESC1, R.COR_PRED, R.COR_LOOP, R.COR_SEM, R.COR_QGEN, R.COR_CHAN0, R.COR_CHAN1,
   R.COR_CHK_CTRL, R.COR_FP_CTRL, R.COR_WAIT_TMO]

/-- Newt halts a core: unlike a HALT of the host (R279) it leaves the queues as they are, to be copied (R580, Table 18-2).
Words that have not started are discarded (R141). -/
def Dev.newtHalt (d : Dev) (u : Nat) : Dev :=
  if d.coreState u = 0 || d.coreState u = 4 then d
  else (d.setF F.COR_STATUS_STATE u 0).modCore u fun x =>
    { x with cd := [], v := [], m := [], held := none, halting := 0, sleepHint := 0 }

/-- Copy the memories of core site u to core site v: WM, with AM and PM where `all`, and SM, which takes a write only while v is
HALTED, from Newt too (R139, R580). -/
def State.copyMems (s : State) (u v : Nat) (all : Bool) : State :=
  let a := coreBase (u / 256) (u % 256)
  let b := coreBase (v / 256) (v % 256)
  let s := s.copyRange a b (if all then 0x140000 else 0x100000)
  if s.dev.coreState v = 0 then s.copyRange (a + 0x140000) (b + 0x140000) 0x10000
  else s.onDev fun d => d.setF F.COR_STATUS_WR_REJ v 1

/-- Copy the memories and the state of core site u to core site v, halted both (Table 18-2 steps 2 to 4). -/
def State.copyCore (s : State) (u v : Nat) : State :=
  let s := s.copyMems u v true
  s.onDev fun d =>
    let d := d.each swapRegs fun d r => d.copyReg r u v
    let d := (d.setF F.COR_CTRL_ENTRY v (d.fld F.COR_CTRL_ENTRY u)).setF F.COR_STATUS_PC v (d.fld F.COR_STATUS_PC u)
    let x := d.core u
    d.modCore v fun _ => { CoreS.init with nextSeq := x.nextSeq, qs := x.qs, qhead := x.qhead, creds := x.creds }

/-- RUN a core with ENTRY set to its recorded PC; ENTRY is then restored (Table 18-2 step 5). -/
def Dev.runAt (d : Dev) (u : Nat) : Dev :=
  let e := d.fld F.COR_CTRL_ENTRY u
  ((d.setF F.COR_CTRL_ENTRY u (d.fld F.COR_STATUS_PC u)).coreRun u).setF F.COR_CTRL_ENTRY u e

/-- Give a byte of the core map a core site (R573). -/
def Dev.setCoreMap (d : Dev) (site n c : Nat) : Dev :=
  d.setR R.CLU_CORE_MAP site
    (BitVec.ofNat 64 (putBits (d.getR R.CLU_CORE_MAP site (n / 8)).toNat (n % 8 * 8) 8 (128 + c))) (n / 8)

/-! Fuse update records (R534, R585). -/

/-- An update record: KIND 0 core site bad, 1 cube retired, 2 cluster site bad (R534). -/
def fuseRec (kind site core : Nat) : Nat := 2 ^ 63 + kind * 2 ^ 60 + site * 256 + core

/-- Newt has a record to write. -/
def Dev.fuseLater (d : Dev) (nofuse : Bool) (rec_ : Nat) : Dev :=
  if nofuse then d else d.modNwt fun x => { x with fusePend := x.fusePend ++ [rec_] }

/-- FUSE_UPDATE: the records of the last window are written; when they are exhausted, NWT raises FUSE_FULL (R585). -/
def execFuseUpdate (s : State) : Host.Outcome State Fault Refusal :=
  s.upd fun d =>
    let d := d.each d.nwt.fusePend fun d x =>
      if d.boot.fuse.updA.length < 448 then { d with boot := { d.boot with fuse := d.boot.fuse.append x } }
      else (d.setF F.NWT_STATUS_FUSE_FULL 0 1).raise (evU bNWT 0) 6 0 0
    let d := d.modNwt fun x => { x with fusePend := [] }
    if d.fld F.NWT_STATUS_STATE 0 = 4 then d.setF F.NWT_STATUS_STATE 0 (if d.nwt.reqs.isEmpty then 0 else 2) else d

/-! Results. -/

/-- Show the result of a swap (Table 18-11): the words copied as uncorrectable raise SWAP_DIRTY. -/
def Dev.swapShow (d : Dev) (r : SwapReq) (dirty res : Nat) : Dev :=
  let d := (d.setF F.NWT_STATUS_LAST_LCLU 0 r.lclu).setF F.NWT_STATUS_DIRTY_WORDS 0 (min 524287 dirty)
  let d := if r.cluster then d else d.setF F.NWT_STATUS_LAST_LCORE 0 r.lcore
  let d := d.setF F.NWT_STATUS_RESULT 0 (if res = 1 && dirty > 0 then 2 else res)
  (if dirty > 0 then d.raise (evU bNWT 0) 2 1 0 else d).showSpares

/-! Core swaps (R575, R577, Table 18-2). -/

/-- A core swap in its window. The queues of the old core close with nothing in them: their messages have gone to the new core,
whose word that takes one returns its credit (R279, Table 18-2, assumption 107). Without an eligible spare, a core whose cube
alone fails has its cube retired, and any other has its whole cluster replaced (R577). -/
def State.coreSwap (s : State) (r : SwapReq) : State :=
  match s.dev.newtSite r.lclu with
  | none => s
  | some site =>
    match if s.dev.siteOut site then none else s.dev.coreMap site r.lcore with
    | none => s
    | some c =>
      let u := cu site c
      match s.dev.spareCore site c with
      | some c' =>
        let v := cu site c'
        let s := s.onDev fun d => d.newtHalt u
        let dirty := s.dirtyIn (coreBase site c) 0x150000
        let s := s.copyCore u v
        s.onDev fun d =>
          let d := ((d.setCoreMap site r.lcore c').setOrder site).runAt v
          let d := ((d.setF F.COR_STATUS_STATE u 4).setF F.COR_QCTRL_OPEN u 0).modCore u fun _ => CoreS.init
          let d : Dev := { d with boot := { d.boot with coreBad := sset d.boot.coreBad 0 u 2 } }
          let d := d.modNwt fun x => { x with cubes := x.cubes.erase (r.lclu, r.lcore) }
          let d := ((d.swapShow r dirty 1).addSat F.NWT_COUNT_CORE_SWAPS 0 1).raise (evU bNWT 0) 1 0 0
          d.fuseLater r.nofuse (fuseRec 0 site c)
      | none =>
        if s.dev.nwt.cubes.contains (r.lclu, r.lcore) then
          s.onDev fun d =>
            let on := d.coreState u = 1 || d.coreState u = 2
            let d := ((d.newtHalt u).setB F.COR_CTRL_CUBE_RETIRED u true).modNwt fun x =>
              { x with cubes := x.cubes.erase (r.lclu, r.lcore) }
            let d := if on then d.runAt u else d
            (d.raise (evU bNWT 0) 3 0 0).fuseLater r.nofuse (fuseRec 1 site c)
        else s.onDev fun d => d.nwtAsk ⟨true, r.lclu, 0, r.nofuse⟩

/-! Cluster swaps (R576, R582 to R584). -/

/-- Write the inactive route copies equal to the active ones and the inactive logical-map copies with a new site for a
logical cluster (none: unmapped), and set them VALID (R582). -/
def Dev.prepare (d : Dev) (l : Nat) (new : Option Nat) : Dev :=
  let e := match new with
    | some x => 256 + x
    | none => 0
  d.each d.liveRouters fun d x =>
    let b := d.injEpoch x = 0
    let d := d.modRtr x fun r => if b then { r with rtB := r.rtA, lmB := sset r.lmA 0 l e }
      else { r with rtA := r.rtB, lmA := sset r.lmB 0 l e }
    d.wrFabCtrl x ((d.getR R.FAB_CTRL x).toNat ||| (if b then 4 else 2))

/-- Flip INJ_EPOCH in every router (Table 18-3 step 5). -/
def Dev.flipEpochs (d : Dev) : Dev :=
  d.each d.liveRouters fun d x => d.wrFabCtrl x ((d.getR R.FAB_CTRL x).toNat ^^^ 1)

/-- The registers of a cluster that move with it: all but its core map, its redirect and its ORDER, which Newt chooses for each
site, and its power, which PWR gives each site (Table 18-3 step 4, R230). -/
def cluMoves : List Reg := allRegs.filter fun r =>
  r.blk == 2 && r.code != R.CLU_CORE_MAP.code && r.code != R.CLU_REDIRECT.code && r.code != R.CLU_MESH_CTRL.code &&
  r.code != R.CLU_PWR.code

/-- The pairs of old and new core sites of a cluster swap, by logical core; `cs` is the new site's core map. -/
def Dev.corePairs (d : Dev) (old new : Nat) : List (Nat × Nat) :=
  (List.range 32).filterMap fun n =>
    match d.coreMap old n, (d.goodCores new).drop n with
    | some c, c' :: _ => some (cu old c, cu new c')
    | _, _ => none

/-- A spare site is powered for its service: its compute domain is in D0. -/
def Dev.powerSite (d : Dev) (site : Nat) : Dev :=
  (d.setF F.FLD_LDO_STATE (fieldOf site) 2 (localIx site)).setDom site fun _ => DomS.init

/-- LIVE_SWAP_PRECOPY: WM and SM of the cores go to the spare site, the inactive copies are made VALID, and Newt asks for
the window; the tiles rewritten meanwhile are noted (R582). A swap whose cluster has gone dark is a dead swap (R597). -/
def execLiveSwapPrecopy (rewritten : List MemLoad) (s : State) : Host.Outcome State Fault Refusal :=
  match s.dev.nwt.pre with
  | none => s.done s
  | some (r, new, _) =>
    match s.dev.newtSite r.lclu with
    | none => s.done s
    | some old =>
      if s.dev.fld F.NWT_STATUS_STATE 0 ≠ 1 then s.done s
      else
        let s' := if s.dev.siteOut old then s
          else s.each (s.dev.corePairs old new) fun s p => s.copyMems p.1 p.2 false
        s.done (s'.onDev fun d =>
          let d := d.powerSite new
          let d := if d.siteOut old then d else d.prepare r.lclu (some new)
          let d := d.modNwt fun x => { x with pre := some (r, new, rewritten),
                                              reqs := if x.reqs.contains r then x.reqs else x.reqs ++ [r] }
          d.setF F.NWT_STATUS_STATE 0 2)

/-- Newt's map and the redirect of the old site take the new site (R583, Table 18-3 step 6). -/
def Dev.moveCluster (d : Dev) (l old new : Nat) : Dev :=
  let d := d.modNwt fun x => { x with map := sset x.map 0 l (new + 1), old := sset x.old 0 l (old + 1) }
  (d.setF F.CLU_REDIRECT_SITE old new).setF F.CLU_REDIRECT_EN old 1

/-- The old site of a swap is bad from now on, unless NOFUSE was set: its faces are out (R323), and a record follows (R585). -/
def Dev.retireSite (d : Dev) (r : SwapReq) (old : Nat) : Dev :=
  let d : Dev := if r.nofuse || d.boot.siteBad.contains old then d
    else ({ d with boot := { d.boot with siteBad := old :: d.boot.siteBad } } : Dev).each (facesAt old) fun d x => d.faceOut x.1 x.2
  d.fuseLater r.nofuse (fuseRec 2 old 0)

/-- The window of a live cluster swap (Table 18-3). Every memory is copied again, which leaves what copying the recorded
tiles, AM, PM and CSM leaves. -/
def State.liveSwap (s : State) (r : SwapReq) (old new : Nat) : State :=
  let ps := s.dev.corePairs old new
  let ep := s.dev.injEpoch old
  let s := s.onDev fun d =>
    (d.makeCoreMap new).each ps fun d p => d.newtHalt p.1
  let dirty := (ps.map fun p => s.dirtyIn (coreBase old (p.1 % 256)) 0x150000).sum + s.dirtyIn (csmBase old) 0x600000
  let s := s.each ps fun s p => s.copyCore p.1 p.2
  let s := s.copyRange (csmBase old) (csmBase new) 0x600000
  s.onDev fun d =>
    let d := d.each cluMoves fun d g => d.copyReg g old new
    let c := d.clu old
    let d := (d.modClu new fun _ => c).modClu old fun _ => CluS.init
    let d : Dev := { d with asms := d.asms.map fun a => if a.dstSite = old then { a with dstSite := new } else a }
    let d := (d.flipEpochs).moveCluster r.lclu old new
    let d := d.each ps fun d p => d.runAt p.2
    let d := ((d.retireSite r old).swapShow r dirty 1).addSat F.NWT_COUNT_CLU_SWAPS 0 1
    let d := d.modNwt fun x => { x with pre := none, drain := some (r, old, decide (dirty > 0)) }
    let d := (d.setF F.FAB_DRAIN_CTRL_EPOCH old ep).setF F.FAB_DRAIN_CTRL_AUTO_RETIRE old 1
    let d := d.each (List.range 4) fun d i => d.setR R.FAB_DRAIN_MASK old (BitVec.allOnes 64) i
    d.drainStart old

/-- A logical cluster stays unmapped: RESULT and SWAP_FAIL (R577, R584). -/
def Dev.unmapCluster (d : Dev) (r : SwapReq) (res : Nat) : Dev :=
  let d := ((d.prepare r.lclu none).flipEpochs).modNwt fun x => { x with map := sset x.map 0 r.lclu 0, pre := none }
  (d.swapShow r 0 res).raise (evU bNWT 0) 4 5 0

/-- Whether the SCHEDULE and CLUSTER sections of the loaded image whose SCOPE holds a logical cluster have their digests (R584): the
base ones, or those of the variant in force. -/
def State.swapSectsOk (s : State) (l : Nat) : Bool :=
  let v := if s.dev.fld F.BSQ_GRADE_GRADE 0 = 3 then s.dev.fld F.BSQ_GRADE_LOST 0 else 255
  (s.dev.man.sects.filter fun e => e.variant == v && (e.typ == 5 || e.typ == 6) && e.scoped l).all
    (sectGood s.flash (s.dev.fld F.BSQ_STATUS_COPY 0))

/-- A dead cluster swap (R584): the sections of the loaded image go to the spare site, and the weights that fall into the
logical cluster's window come from the Cellar. -/
def State.deadSwap (s : State) (r : SwapReq) (old : Nat) (digestsOk : Bool) : State :=
  match s.dev.spareFor old with
  | none => s.onDev fun d => d.unmapCluster r 3
  | some new =>
    if !digestsOk || !s.swapSectsOk r.lclu then s.onDev fun d => d.unmapCluster r 6
    else
      let s := (s.zeroCores new false).zeroMem (csmBase new) 0x600000
      let s := s.onDev fun d =>
        let d := ((d.powerSite new).makeCoreMap new).setFloor new
        (((d.prepare r.lclu (some new)).flipEpochs).moveCluster r.lclu old new).retireSite r old
      let img := s.dev.boot.image
      let s := match img with
        | some m => s.loadWhere 251 m (inLclu r.lclu)
        | none => s
      let ws := match img with
        | some m => m.weights
        | none => []
      let have_ := !ws.isEmpty && s.dev.cellarThere && !s.dev.flag F.BSQ_STATUS_NO_WEIGHTS 0
      let s := if have_ then s.each (ws.filter fun x => inLclu r.lclu x.dst.toNat) fun s x => s.copyExtent x else s
      s.onDev fun d =>
        let d := d.addSat F.NWT_COUNT_CLU_SWAPS 0 1
        let d := d.modNwt fun x => { x with pre := none }
        if have_ then
          let d := match img with
            | some m => d.autorun m fun l => l == r.lclu
            | none => d
          (d.swapShow r 0 1).raise (evU bNWT 0) 1 0 0
        else ((d.swapShow r 0 5).raise (evU bNWT 0) 2 1 0).raise (evU bNWT 0) 1 0 0

/-- A cluster swap in its window. -/
def State.clusterSwap (s : State) (r : SwapReq) (digestsOk : Bool) : State :=
  match s.dev.newtSite r.lclu with
  | none => s
  | some old =>
    if s.dev.siteOut old then s.deadSwap r old digestsOk
    else match s.dev.nwt.pre with
      | some (r', new, _) => if r'.lclu = r.lclu then s.liveSwap r old new else s
      | none => s.onDev fun d => d.unmapCluster r 3

/-! Row repairs (R594). -/

/-- A row repair: the row's words go to a spare row of the bank under R581, and the row is switched. -/
def State.rowRepair (s : State) (a : Nat) : State :=
  let s : State := { s with ecc := if sget s.ecc 0 a = 1 then sset s.ecc 0 a 0 else s.ecc }
  s.onDev fun d =>
    let d := match coreOfAddr a with
      | some (u, la) => d.useRow u (bankOf la)
      | none => d
    (d.addSat F.NWT_COUNT_ROW_REPAIRS 0 1).raise (evU bNWT 0) 5 0 0

/-! Windows (R578 to R580). -/


/-- Whether NWT_CTRL lets a request be carried out (Table 18-10). -/
def Dev.swapOn (d : Dev) (r : SwapReq) : Bool :=
  if !r.cluster then d.flag F.NWT_CTRL_CORE_EN 0
  else match d.newtSite r.lclu with
    | some x => if d.siteOut x then d.flag F.NWT_CTRL_DEAD_EN 0 else d.flag F.NWT_CTRL_LIVE_EN 0
    | none => true

/-- Core swaps of one window: at most 16, in different clusters (R579). -/
def coreBatch : List SwapReq → List Nat → List SwapReq
  | [], _ => []
  | r :: rest, used =>
    if r.cluster || used.contains r.lclu || used.length ≥ 16 then coreBatch rest used
    else r :: coreBatch rest (r.lclu :: used)

/-- The swaps of the next window (R579): one cluster swap, or core swaps, as the first request says. -/
def Dev.windowWork (d : Dev) : List SwapReq :=
  match d.nwt.reqs.filter d.swapOn with
  | [] => []
  | r :: rest => if r.cluster then [r] else coreBatch (r :: rest) []

/-- The powered sites of a TEST's target (Table 18-5), by its P0. -/
def Dev.testSites (d : Dev) (p0 : Nat) : List Nat :=
  let all := ((List.range 240).filterMap d.newtSite).filter fun x => !d.siteOut x
  match bitsOf p0 0 2 with
  | 0 | 1 => all.filter fun x => d.newtSite (bitsOf p0 8 8) == some x
  | 2 => all.filter fun x => fieldOf x == bitsOf p0 24 4
  | _ => all

/-- The sites a window works on: those of its swaps, or of the target of a TEST with HOLD. -/
def Dev.windowSites (d : Dev) : List Nat :=
  match d.windowWork, d.nwt.test with
  | [], some p0 => d.testSites p0
  | ws, _ => ws.filterMap fun r => d.newtSite r.lclu

/-- The section reads of a dead cluster swap need boot and security in D0 for its window (R475, R584). -/
def Dev.bootWindow (d : Dev) : Dev := if d.bootBusy == ((d.dom domBoot).level == 0) then d else d.bootDom

/-- The window closes (R578): what Newt still has to do shows in STATE. -/
def Dev.windowClose (d : Dev) : Dev :=
  let us := (d.now - d.nwt.openAt) / 1000
  let d := (d.modNwt fun x => { x with window := false, hold := [], haltAt := none }).vc1 false
  let d := (d.setF F.NWT_COUNT_LAST_WIN_US 0 (min 65535 us)).isolateDue.bootWindow
  d.setF F.NWT_STATUS_STATE 0
    (if !d.nwt.fusePend.isEmpty then 4 else if !(d.nwt.reqs.isEmpty && d.nwt.rows.isEmpty && d.nwt.test.isNone) then 2 else 0)

/-- The window closes; a takeover that waited for it goes on (R609). -/
def State.windowEnd (s : State) : State :=
  let s := s.onDev Dev.windowClose
  if s.dev.pair.takeWait then s.takeoverRest else s

/-- Carry out the work of a window whose cores are halted, and close it. A window without swaps stays open for a TEST with
HOLD. -/
def State.windowRun (s : State) (digestsOk : Bool) : State :=
  let work := s.dev.windowWork
  let rows := s.dev.nwt.rows
  let s := s.onDev fun d => d.modNwt fun x => { x with reqs := x.reqs.filter fun r => !work.contains r, rows := [] }
  let s := s.each work fun s r => if r.cluster then s.clusterSwap r digestsOk else s.coreSwap r
  let s := s.each rows fun s a => s.rowRepair a
  if work.isEmpty && s.dev.nwt.test.isSome then s.onDev fun d => d.modNwt fun x => { x with haltAt := none }
  else s.windowEnd

/-- Whether a window can open (R578): it is asked for, none is open, and no decode step runs. -/
def Dev.windowFree (d : Dev) : Bool :=
  d.fld F.NWT_STATUS_STATE 0 = 2 && !d.nwt.window &&
    match d.dec with
    | some x => !x.permit && x.waiting.isEmpty
    | none => true

/-- The first request is a live cluster swap whose pre-copy has not been made. -/
def Dev.needsPre (d : Dev) : Option (SwapReq × Nat) :=
  match d.windowWork with
  | r :: _ =>
    if r.cluster && d.nwt.pre.isNone then
      match d.newtSite r.lclu with
      | some old => if d.siteOut old then none else (d.spareFor old).map fun new => (r, new)
      | none => none
    else none
  | [] => none

/-- WINDOW_OPEN: the window opens, arrivals are held, and the work is done at once when no core of the clusters is RUNNING;
else HALT_WAIT runs first (R578 to R580). A live cluster swap that has had no pre-copy makes it first (R582). -/
def execWindowOpen (sectionsOk : Bool) (s : State) : Host.Outcome State Fault Refusal :=
  if !s.dev.windowFree then s.done s
  else match s.dev.needsPre with
    | some (r, new) =>
      s.done (s.onDev fun d => (d.modNwt fun x => { x with pre := some (r, new, []) }).setF F.NWT_STATUS_STATE 0 1)
    | none =>
      let sites := s.dev.windowSites
      let s' := s.onDev fun d =>
        ((d.modNwt fun x => { x with window := true, hold := sites, openAt := d.now }).setF F.NWT_STATUS_STATE 0 3).vc1 true |>.bootWindow
      if sites.any fun x => (d_running s'.dev x) then
        s.done (s'.onDev fun d => d.modNwt fun x => { x with haltAt := some sectionsOk })
      else s.done (s'.windowRun sectionsOk)
where
  /-- A core of the site is RUNNING. -/
  d_running (d : Dev) (x : Nat) : Bool := !d.siteOut x && (d.servingCores x).any fun u => d.coreState u == 1

/-- HALT_WAIT_EXPIRY: the cores still RUNNING are halted and the work is done (R580). -/
def execHaltWaitExpiry (s : State) : Host.Outcome State Fault Refusal :=
  match s.dev.nwt.haltAt with
  | some ok => s.done (if s.dev.nwt.window then s.windowRun ok else s)
  | none => s.done s

end Sys2Proof.Machine
end

