-- ==== Sys2Proof/Machine/Skink.lean ====
section
/-! DEFINITION. Skink (spec/18_spares_and_testing.md R586 to R595): visits, failures, observation, scrubbing, ageing, and the
TEST command. -/

namespace Sys2Proof.Machine

/-- Whether a unit may be tested now (R588); in Off Skink has no effect (R603). -/
def Dev.visitOk (d : Dev) (x : SkinkUnit) : Bool :=
  let quiet (site : Nat) : Bool := (List.range 36).all fun c => d.coreState (cu site c) ≠ 1
  d.pstate ≠ 4 && match x with
  | .core c =>
    let u := cu c.site.val c.core.val
    !d.siteOut c.site.val && !d.coreAbsent u &&
      (d.coreState u = 0 || (d.coreState u = 2 && d.fld F.COR_SEQ_STATUS_SLEEP_HINT u ≠ 0))
  | .cluster s => !d.siteOut s.val && quiet s.val
  | .router s => !d.fieldLost (fieldOf s.val) && quiet s.val
  | .ldo s => !d.siteOut s.val && d.flag F.SKK_CTRL_LDO_EN 0 && ((d.dom s.val).level = 2 || (d.dom s.val).level = 3)

/-- Newt asks for a window when it asks for none yet (R578). -/
def Dev.windowAsk (d : Dev) : Dev := if d.fld F.NWT_STATUS_STATE 0 = 0 then d.setF F.NWT_STATUS_STATE 0 2 else d

/-- A row is queued for repair (R594). -/
def Dev.rowAsk (d : Dev) (a : Nat) : Dev :=
  (d.modNwt fun x => { x with rows := if x.rows.contains a then x.rows else x.rows ++ [a] }).windowAsk

/-- A confirmed failure (R592): TEST_FAIL, the unit's own class with the Skink origin flag, and the replacement. A router
failure isolates nothing by itself. -/
def Dev.testFail (d : Dev) (x : SkinkUnit) (cubeOnly : Bool) : Dev :=
  let d := (d.addSat F.SKK_COUNT_FAILS 0 1).raise (evU bSKK 0) 1 1 0
  match x with
  | .core c =>
    let u := cu c.site.val c.core.val
    let d := if cubeOnly then d.raise (evU bCOR u) 1 1 0 true else d.raise (evU bCOR u) 4 2 0 true
    let d := match cubeOnly, d.logicalOf c.site.val, d.lcoreOf u with
      | true, some l, some n => d.modNwt fun x => { x with cubes := if x.cubes.contains (l, n) then x.cubes else x.cubes ++ [(l, n)] }
      | _, _, _ => d
    -- a spare that fails is no longer a good one (assumption 111)
    if (d.lcoreOf u).isSome && (d.logicalOf c.site.val).isSome then d.askCore u else d.retireCore u
  | .cluster s =>
    let d := d.raise (evU bCLU s.val) 12 1 0 true
    if (d.logicalOf s.val).isSome then d.askCluster s.val
    else if d.boot.siteBad.contains s.val then d
    else Dev.each { d with boot := { d.boot with siteBad := s.val :: d.boot.siteBad } } (facesAt s.val) fun d x => d.faceOut x.1 x.2
  | .ldo s => d.ldoFail s.val none true
  | .router s => d.raise (evU bFAB s.val) 1 0 0 true

/-- Whether a core is under observation. -/
def Dev.observed (d : Dev) (u : Nat) : Bool := d.obs.any fun o => o.site == u / 256 && o.core == u % 256

/-- A failure of a core that its reruns did not confirm: under observation it is confirmed, else the core enters
observation (R592, R593). -/
def Dev.unconfirmed (d : Dev) (c : Core) (cause : Nat) : Dev :=
  let u := cu c.site.val c.core.val
  if d.observed u then d.testFail (.core c) false
  else (d.addSat F.SKK_COUNT_UNCONFIRMED 0 1).observe u cause

/-- The ageing monitor of a core: a lower limit reaches the clock at once (R586, R86, R87). -/
def Dev.ageing (d : Dev) (u code : Nat) : Dev :=
  let d := d.setF F.COR_AGE_MEAS u code
  let cur := d.fld F.COR_FMAX_FMAX_CUR u
  if code < cur then
    let d := ((d.setF F.COR_FMAX_FMAX_CUR u (cur - 1)).addSat F.COR_AGE_STEPS u 1).raise (evU bNWT 0) 7 0 0
    let d := d.showClk (u / 256)
    if cur - 1 < d.fld F.COR_FMAX_FLOOR u then (d.retireCore u).raise (evU bCOR u) 6 2 0 else d
  else d

/-- The data words that a scrub of a unit reads: WM and SM outside the test area, or CSM (Table 18-4). -/
def scrubIn (x : SkinkUnit) (a : Nat) : Bool :=
  match x with
  | .core c =>
    let b := coreBase c.site.val c.core.val
    (b ≤ a && a < b + 0xFE000) || (b + 0x140000 ≤ a && a < b + 0x150000)
  | .cluster s => csmBase s.val ≤ a && a < csmBase s.val + 0x600000
  | _ => false

/-- What a scrub does about a word that it found marked 1 corrected or 2 uncorrectable (R592, R594). `spare` says whether a bank
of CSM has a spare row. -/
def Dev.scrubHit (d : Dev) (a v : Nat) (spare : Bool) : Dev :=
  let free := match coreOfAddr a with
    | some (u, la) => d.nwt.rows.contains a || d.rowFree u la
    | none => spare
  if v = 2 then
    let d := if free then d.rowAsk a else d
    match coreOfAddr a with
    | some (u, la) =>
      let d := d.eccUe u la true
      if free then d else d.retireCore u
    | none => d.raise (evU bCLU ((a - 0x1000000000) / 0x8000000)) 12 1 (a % 0x8000000 / 64) true
  else if d.nwt.scrubCe.contains a && free then d.rowAsk a
  else d

/-- A scrub (R594): the words that it met with an error stay as they are in storage (R75, R76), beside those that already had one
(assumption 116); the corrections count, and stand for the next visit. -/
def State.scrub (s : State) (x : SkinkUnit) (hits : List ScrubHit) : State :=
  let word (h : ScrubHit) : Nat := h.addr.toNat / 8 * 8
  let s := s.each (hits.filter fun h => scrubIn x (word h)) fun s h =>
    if h.uncorrectable || !s.ue (word h) 1 then s.mark (word h) 1 (if h.uncorrectable then 2 else 1) else s
  let found := s.ecc.filter fun e => scrubIn x e.1
  let ce := (found.filter fun e => e.2 == 1).map fun e => e.1
  s.onDev fun d =>
    let d := match x with
      | .core c => if ce.isEmpty then d else d.countCe (cu c.site.val c.core.val) (ce.map fun a => (a - 0x1000000000) % 0x8000000 % 0x200000)
      | _ => d
    let d := d.each found fun d e => d.scrubHit e.1 e.2 (hits.any fun h => word h == e.1 && h.spareRow)
    d.modNwt fun n => { n with scrubCe := (n.scrubCe.filter fun a => !scrubIn x a) ++ ce }

/-- The test area of a core takes values that the manual does not state (R587). -/
def State.testArea (s : State) (u : Nat) : State :=
  let b := coreBase (u / 256) (u % 256)
  [(0xFE000, 0x2000), (0x12E000, 0x2000), (0x13F000, 0x1000)].foldl (fun s x =>
    let k := s.dev.fresh
    let s : State := { s with mem := fillCells s.mem (b + x.1) x.2 (freeByte k), ecc := dropRange s.ecc (b + x.1) (b + x.1 + x.2) }
    s.onDev fun d => { d with fresh := d.fresh + x.2 / 8 }) s

/-- Skink's content on a unit (Table 18-4, R592); `cause` is that of an observation it starts. -/
def State.visit (s : State) (v : UnitVisit) (cause : Nat) : State :=
  let s := match v.unit with
    | .core c => s.testArea (cu c.site.val c.core.val)
    | _ => s
  let s := s.onDev fun d => d.addWrap F.SKK_COUNT_PASSES 0 v.passes
  let s := if s.dev.flag F.SKK_CTRL_SCRUB_EN 0 then s.scrub v.unit v.hits else s
  s.onDev fun d =>
    let d := match v.unit with
      | .core c =>
        let u := cu c.site.val c.core.val
        { (d.ageing u v.ageCode.toNat) with visited := sset d.visited 0 u d.now }
      | _ => d
    match v.result, v.unit with
    | .pass, _ => d
    | .unconfirmed, .core c => d.unconfirmed c cause
    | .unconfirmed, _ => d.addSat F.SKK_COUNT_UNCONFIRMED 0 1
    | .confirmed cubeOnly, x => d.testFail x cubeOnly

/-- Whether a visit's result is a confirmed failure (R592). -/
def Dev.confirms (d : Dev) (v : UnitVisit) : Bool :=
  match v.result, v.unit with
  | .confirmed _, _ => true
  | .unconfirmed, .core c => d.observed (cu c.site.val c.core.val)
  | _, _ => false

/-- SKINK_VISIT: Skink's content on a unit (Table 18-4, R590, R592). -/
def execSkinkVisit (x : SkinkUnit) (r : VisitResult) (passes : Nat) (ageCode : BitVec 6) (hits : List ScrubHit) (s : State) :
    Host.Outcome State Fault Refusal :=
  s.done (if s.dev.flag F.SKK_CTRL_EN 0 && s.dev.visitOk x then (s.visit ⟨x, r, passes, ageCode, hits⟩ 3).onDev Dev.vc1Done else s)

/-- SKINK_YIELD: Skink yields to a session word or a wake demand (R589). -/
def execSkinkYield (ns : Nat) (late : Bool) (s : State) : Host.Outcome State Fault Refusal :=
  s.upd fun d =>
    let d := d.addSat F.SKK_STATUS_YIELDS 0 1
    let d := d.setF F.SKK_STATUS_YIELD_MAX_NS 0 (max (min 65535 ns) (d.fld F.SKK_STATUS_YIELD_MAX_NS 0))
    if late then d.raise (evU bSKK 0) 6 1 0 else d

/-- CADENCE_MISS: a core was left unvisited for longer than PERIOD (R590). -/
def execCadenceMiss (c : Core) (s : State) : Host.Outcome State Fault Refusal :=
  s.upd fun d =>
    let u := cu c.site.val c.core.val
    if d.flag F.SKK_CTRL_EN 0 && !d.siteOut c.site.val && !d.coreAbsent u && d.coreState u ≠ 4 &&
      decide (d.now > sget d.visited 0 u + 1000000000 * max 1 (d.fld F.SKK_CTRL_PERIOD 0)) then d.raise (evU bSKK 0) 5 0 0 else d

/-- OBSERVATION_VISIT: a visit of an observed core with the cube, dot and vector items, whose operands lie in the test area; it
leaves the list after RELEASE passing visits (R593). -/
def execObservationVisit (c : Core) (r : VisitResult) (passes : Nat) (s : State) : Host.Outcome State Fault Refusal :=
  let u := cu c.site.val c.core.val
  if !s.dev.flag F.SKK_CTRL_EN 0 || !s.dev.observed u || !s.dev.visitOk (.core c) then s.done s
  else
    s.testArea u |>.upd fun d =>
      let d := d.addWrap F.SKK_COUNT_PASSES 0 passes
      Dev.vc1Done <| match r with
      | .pass =>
        let mine (o : ObsEnt) : Bool := o.site == u / 256 && o.core == u % 256
        let obs := d.obs.map fun o => if mine o then { o with passes := o.passes + 1 } else o
        let left := obs.filter fun o => !(mine o && decide (o.passes ≥ d.fld F.SKK_CTRL_RELEASE 0))
        let out := left.length < obs.length
        let d : Dev := { d with obs := left }
        let d := d.setF F.SKK_STATUS_OBS_N 0 left.length
        if out then d.raise (evU bSKK 0) 3 0 0 else d
      | .unconfirmed => d.testFail (.core c) false
      | .confirmed cubeOnly => d.testFail (.core c) cubeOnly

/-! TEST (R595). -/

/-- Whether the target of a TEST exists: mapped, and in no lost field (Table 18-5). -/
def Dev.testTarget (d : Dev) (p0 : Nat) : Bool :=
  let l := bitsOf p0 8 8
  match bitsOf p0 0 2 with
  | 0 => match d.newtSite l with
    | some x => !d.siteOut x && (d.coreMap x (bitsOf p0 16 5)).isSome
    | none => false
  | 1 => match d.newtSite l with
    | some x => !d.siteOut x
    | none => false
  | 2 => !d.fieldLost (bitsOf p0 24 4)
  | _ => true

/-- Whether a unit belongs to the target of a TEST. -/
def Dev.inTarget (d : Dev) (p0 : Nat) (x : SkinkUnit) : Bool :=
  let site := match x with
    | .core c => c.site.val
    | .cluster y | .ldo y | .router y => y.val
  match bitsOf p0 0 2, x with
  | 0, .core c => d.newtSite (bitsOf p0 8 8) == some site && d.coreMap site (bitsOf p0 16 5) == some c.core.val
  | 0, _ => false
  | 1, _ => d.newtSite (bitsOf p0 8 8) == some site
  | 2, _ => fieldOf site == bitsOf p0 24 4
  | _, _ => true

/-- The cores of a target that Newt halts for a TEST with HOLD and runs again after it (R580, R595, assumption 112). -/
def Dev.heldCores (d : Dev) (p0 : Nat) : List Nat :=
  ((d.testSites p0).flatMap d.servingCores).filter fun u => (d.coreState u == 1 || d.coreState u == 2) &&
    (bitsOf p0 0 2 ≠ 0 || d.coreMap (u / 256) (bitsOf p0 16 5) == some (u % 256))

/-- Skink's content on the units of a target, with the numbers of passes and of confirmed failures. -/
def State.testRun (s : State) (p0 : Nat) (visits : List UnitVisit) : State × Nat × Nat :=
  visits.foldl (fun x v =>
    if x.1.dev.inTarget p0 v.unit && x.1.dev.visitOk v.unit then
      (x.1.visit v 4, x.2.1 + v.passes, x.2.2 + b2n (x.1.dev.confirms v))
    else x) (s, 0, 0)

/-- TEST: Skink's content on a target, each unit where it may be tested (R588): its cores, then its clusters with their routers, then
its LDOs. With HOLD it runs in a swap window, for which it asks (R578, R595). -/
def execTest (seq : BitVec 64) (cores clusters ldos : List UnitVisit) (s : State) : Host.Outcome State Fault Refusal :=
  match s.dev.running seq.toNat 0x21 with
  | none => s.done s
  | some c =>
    let p0 := ceP c.entry 0
    let hold := bitOf p0 33
    let d := s.dev
    if bitsOf (ceP c.entry 1) 0 16 = 0 || !d.testTarget p0 then s.upd fun d => d.complete seq.toNat 3 0 0
    else if hold && !(d.nwt.window && d.nwt.test.isSome && d.nwt.haltAt.isNone) then
      s.upd fun d => (d.modNwt fun x => { x with test := some p0 }).windowAsk
    else
      let held := if hold then d.heldCores p0 else []
      let (s, m, n) := (s.onDev fun d => d.each held fun d u => d.newtHalt u).testRun p0 (cores ++ clusters ++ ldos)
      let s := s.onDev fun d => d.each held fun d u => d.runAt u
      let s := if hold then (s.onDev fun d => d.modNwt fun x => { x with test := none }).windowEnd else s
      s.upd fun d => d.vc1Done.complete seq.toNat 0 (m % 2 ^ 64) n

end Sys2Proof.Machine
end

