-- ==== Sys2Proof/Machine/Boot.lean ====
section
/-! DEFINITION. The start paths of the boot sequencer and region reload (spec/16_start_and_configuration.md R527 to R554), and
the reset pin and rails (R425, R616). Each path is one step, with what its tests and its image hold as operands. -/

namespace Sys2Proof.Machine

/-! Images (R530, R531). -/

/-- The sections of a copy. -/
def imgOf (x : Images) (c : Nat) : Image := if c = 0 then x.a else x.b

/-- What the checks of a copy find. -/
def checkOf (x : Images) (c : Nat) : CopyCheck := if c = 0 then x.checkA else x.checkB

/-- The consistency checks of R529 over what the sections hold: 1 to 64 guest slots and at least MAX_PK of them (R194), FLOOR in
codes 8 to 20 (R87), each cap and CURT_LEVEL in 600 W to 2,400 W, CURT_DESC at most 800 µs. -/
def imgOk (img : Image) : Bool :=
  let watts (w : Nat) : Bool := 600 ≤ w && w ≤ 2400
  1 ≤ img.guestN.toNat && img.guestN.toNat ≤ 64 && img.maxPk.toNat ≤ img.guestN.toNat &&
    8 ≤ img.floor.toNat && img.floor.toNat ≤ 20 && img.caps.length = 8 && (img.caps.all fun w => watts w.toNat) &&
    watts img.curtLevel.toNat && img.curtDesc.toNat ≤ 800

/-- The links that an image gives the role MIRROR (Table 10-11). -/
def Dev.imgMirrors (d : Dev) (img : Image) : List Nat :=
  let of (x : RegLoad) : Option (Nat × Nat) :=
    match d.portPlace 250 x.addr.toNat with
    | .reg blk inst off =>
      match findReg blk off with
      | some (r, _) => if r.code = R.LNK_CTRL.code then some (inst, bitsOf x.value.toNat 4 2) else none
      | none => none
    | _ => none
  let xs := (img.regs.filterMap of).reverse
  ((xs.map (·.1)).eraseDups).filter fun l => (xs.find? fun x => x.1 == l).any fun x => x.2 == 1

/-- The failure code of a manifest with its sections, before their digests (R529, R530 items 1 to 4): an image of a pair names 2 to 8
MIRROR links. -/
def Dev.manFail (d : Dev) (m : Manifest) (img : Image) (k : CopyCheck) : Nat :=
  let v := m.verify d.boot.fuse.rootHash d.boot.fuse.count k
  let n := (d.imgMirrors img).length
  if v ≠ 0 then v else if !m.tableOk || !imgOk img || (m.role ≠ 0 && (n < 2 || n > 8)) then 8 else 0

/-- The failure code of copy 0 (A) or 1 (B) in the flash, when the sections that a choice names are read (R529, R530, Table 16-20). -/
def Dev.copyFail (d : Dev) (fl : List Host.Cell) (x : Images) (c : Nat) (reads : SectEnt → Bool) : Nat :=
  let m := manifestOf fl c
  let v := d.manFail m (imgOf x c) (checkOf x c)
  if v ≠ 0 then v else if (m.sects.filter reads).all (sectGood fl c) then 0 else 7

/-- Fall back from a copy to the other (R531): the copy used, if any, and the failure code. IMG_FALLBACK is raised. Every section is
read (Table 16-6 step 8). -/
def Dev.chooseCopy (d : Dev) (fl : List Host.Cell) (x : Images) (first : Nat) : Dev × Option Nat :=
  let a := d.copyFail fl x first fun _ => true
  let d := (d.setF F.BSQ_STATUS_FAIL_CODE 0 a).setF F.BSQ_STATUS_FALLBACK 0 0
  if a = 0 then (d, some first)
  else
    let b := d.copyFail fl x (1 - first) fun _ => true
    let d := ((d.setF F.BSQ_STATUS_FALLBACK 0 1).raise (evU bBSQ 0) 1 1 0)
    if b = 0 then (d, some (1 - first)) else (d.setF F.BSQ_STATUS_FAIL_CODE 0 b, none)

/-- FAILSAFE (R532, R608): no copy is loaded, the command engine is disabled, UCIe runs at 16 GT/s, the caps are at 600 W. -/
def Dev.failsafe (d : Dev) : Dev :=
  let d : Dev := { d with boot := { d.boot with image := none, man := none, digest := 0, restart := none } }
  let d := (d.setF F.BSQ_STATUS_STATE 0 3).setF F.CMD_CTRL_EN 0 0
  let d := d.each (List.range 4) fun d i => (d.setR R.BSQ_DIGEST 0 0 i).setF F.UCI_STATUS_RATE i 0
  let d := d.each (List.range 8) fun d i => d.setF F.PWR_CAPTBL_W 0 600 i
  let d := ((d.setF F.PWR_CAP_EFFECTIVE 0 600).setF F.PWR_CURTAIL_LEVEL 0 600).setF F.PWR_SLOT_CAMPUS 0 0
  let d := (d.setF F.PWR_SLOPE_RATE 0 50).setRole 0 0
  (d.raise (evU bBSQ 0) 2 5 0).bootDom

/-! Fuses, BIST and reconciliation (R534 to R538). -/

/-- Core sites of a site named by bits. -/
def coreBits (site bits : Nat) : List Nat := ((List.range 36).filter (bitOf bits ·)).map (cu site)

/-- The sites of a die, each with its factory record. -/
def Dev.records (d : Dev) : List (Nat × Nat) := (List.range 256).map fun x => (x, d.boot.fuse.record x)

/-- The sites and cores of the update records of a kind (R534). -/
def Dev.updated (d : Dev) (kind : Nat) : List (Nat × Nat) := d.fuses.filterMap (fuseOf kind)

/-- Whether the fuse map says that a site is bad. -/
def Dev.fusedSite (d : Dev) (x : Nat) : Bool := recSiteBad (d.boot.fuse.record x) || (d.updated 2).any fun y => y.1 == x

/-- The core sites that the fuse map says are bad. -/
def Dev.fusedCores (d : Dev) : List Nat :=
  (d.records.flatMap fun x => coreBits x.1 (recCores x.2)) ++ (d.updated 0).map fun x => cu x.1 x.2

/-- Reconcile fuses and BIST (Table 16-8): a unit is bad when either says so. -/
def Dev.reconcile (d : Dev) (t : StartTest) : Dev :=
  let sites := ((d.records.filter fun x => recSiteBad x.2 || recLdoBad x.2).map (·.1)) ++ (d.updated 2).map (·.1) ++
    (t.sites.filter fun x => x.siteBad || x.ldoBad).map (·.site.val)
  let rtrs := t.sites.flatMap fun x => coreBits x.site.val x.routerBad.toNat
  let cores := d.fusedCores ++ t.sites.flatMap fun x => coreBits x.site.val (x.coreBad ||| x.routerBad).toNat
  let cubes := (d.records.flatMap fun x => coreBits x.1 (recCubes x.2)) ++ (d.updated 1).map fun x => cu x.1 x.2
  let boot : BootS := { d.boot with
    siteBad := (d.boot.siteBad ++ sites).eraseDups, coreBad := cores.foldl (fun m u => sset m 0 u 1) d.boot.coreBad,
    routerBad := (d.boot.routerBad ++ t.routerBad.map (·.val)).eraseDups, cubeFused := cubes,
    coreRtrBad := (d.boot.coreRtrBad ++ rtrs).eraseDups }
  let d : Dev := { d with boot := boot, nwt := { d.nwt with rowUse := [], colUse := [] } }
  -- the SRAM repair records of the fuses (R65, R534)
  let d := d.each d.boot.fuse.rows fun d x => d.useRow x.1 x.2
  let d := d.each d.boot.fuse.cols fun d x => d.useCol x.1 x.2
  let d := d.each boot.siteBad fun d x => d.each (facesAt x) (fun d y => d.faceOut y.1 y.2)
  -- a FAILED LDO stays FAILED until a cold start (R434)
  let d := d.each boot.siteBad fun d x =>
    if d.fld F.FLD_LDO_STATE (fieldOf x) (localIx x) = 4 then d else d.setF F.FLD_LDO_STATE (fieldOf x) 0 (localIx x)
  d.fuseCubes cubes

/-- FMAX_FUSE of the factory record, and FMAX_CUR the lower of it and the ageing monitor's code; a core without a measured code has its
fused one (R84, R586). FLOOR is at its default, code 14, until POLICY is loaded (R87), and each core's limit shows (R85). -/
def Dev.fmaxStart (d : Dev) (t : StartTest) : Dev :=
  d.each (List.range 256) fun d site => Dev.showClk (site := site) <|
    let xs : List Nat := match t.sites.find? fun x => x.site.val == site with
      | some x => x.meas.map fun y => y.toNat
      | none => []
    let w := d.boot.fuse.record site
    d.each (List.range 36) fun d c =>
      let fuse := min 36 (recFmax w c)
      let meas := xs.getD c fuse
      let d := (d.setF F.COR_FMAX_FMAX_FUSE (cu site c) fuse).setF F.COR_FMAX_FMAX_CUR (cu site c) (min fuse meas)
      let d := (d.setF F.COR_AGE_MEAS (cu site c) meas).setF F.COR_FMAX_FLOOR (cu site c) 14
      d.setF F.COR_CLK_FLL_LOCK (cu site c) 1

/-- New defects of a field (R536): what BIST finds bad and the fuse map does not. -/
def Dev.newDefects (d : Dev) (t : StartTest) (f hallways : Nat) : Nat :=
  let fused := d.fusedCores
  let mine := t.sites.filter fun x => fieldOf x.site.val == f
  let one (x : SiteTest) : Nat :=
    ((coreBits x.site.val (x.coreBad ||| x.routerBad).toNat).filter fun u => !fused.contains u).length
      + b2n (x.siteBad && !d.fusedSite x.site.val) + b2n (x.ldoBad && !recLdoBad (d.boot.fuse.record x.site.val))
  (mine.map one).sum + (t.routerBad.filter fun x => fieldOf x.val == f).length + hallways

/-- Count the new defects that the tests of this start found, and raise FIELD_DEFECTS (R536); `hw` holds the field of each bad bundle.
A lost field is not tested and keeps its count. -/
def Dev.countDefects (d : Dev) (t : StartTest) (hw : List Nat) : Dev :=
  d.each ((List.range 16).filter fun f => !d.fieldLost f) fun d f =>
    let n := d.newDefects t f (hw.filter (· == f)).length
    let d := d.setF F.BSQ_DEFECTS_N 0 (putBits (d.fld F.BSQ_DEFECTS_N 0) (4 * f) 4 (min 15 n))
    if n > 8 then d.raise (evU bBSQ 0) 3 0 f else d

/-- The wire tests of a start path (R30, R31, R33): failed wires go onto spares; the Hallways that fail, by owning field. -/
def Dev.hallwayTests (d : Dev) (t : StartTest) : Dev × List Nat :=
  let x := t.hallwayWires.foldl (fun (x : Dev × List (Nat × Nat)) (w : FieldN × Fin 8 × WireFault) =>
    let r := x.1.hwCover w.1.val w.2.1.val [w.2.2]
    (r.1, if r.2 then (w.1.val, w.2.1.val) :: x.2 else x.2)) (d, t.hallwayBad.map fun y => (y.1.val, y.2.val))
  let bad := x.2.eraseDups.filter fun y => ownsHw y.1 y.2
  let d := x.1.each bad fun d y => d.hwFail y.1 y.2
  (d, bad.map (·.1))

/-- The bundles that the wire tests find beyond their spares, by owning field; a Hallway that the tests name as a whole counts as one
(R33, R536). -/
def Dev.badBundles (d : Dev) (t : StartTest) : List Nat :=
  let x := t.hallwayWires.foldl (fun (x : Dev × List (Nat × Nat)) (w : FieldN × Fin 8 × WireFault) =>
    let r := x.1.hwCover w.1.val w.2.1.val [w.2.2]
    (r.1, if r.2 && ownsHw w.1.val w.2.1.val then (w.1.val, hwKey w.1.val w.2.1.val w.2.2.dirIn w.2.2.bundle.val) :: x.2 else x.2))
    (d, [])
  (x.2.eraseDups.map fun y => y.1) ++ (t.hallwayBad.map fun y => y.1.val).filter fun f => !x.2.any fun y => y.1 == f

/-- Release the Hallways (Table 1-4, Table 16-6 step 9): HOLD is cleared, and every good Hallway between fields in service is
OPEN; one without power-good on both sides stays CLAMPED until its own release (R28, R30), and so does a CLAMPED one on a path that
makes no wire tests: its release goes on with HALLWAY_WIRE_TEST. -/
def Dev.openHallways (d : Dev) (tested : Bool) : Dev :=
  d.each (List.range 16) fun d f =>
    d.each ((List.range 8).filter (ownsHw f)) fun d h =>
      let d := (d.setF F.FLD_HW_CTRL_HOLD f 0 h).showBad f h
      if d.fieldLost f || d.fieldLost (hwFar f h) || !d.hwPower f h || d.flag F.FLD_HW_STATUS_FAILED f h || (!tested && d.hwState f h = 1)
      then d
      else d.setHw f h 0

/-- A field counts as lost without a rail loss (R538): it is isolated as under R439, and counted. -/
def Dev.loseAtStart (d : Dev) (f : Nat) : Dev :=
  if d.fieldLost f then d
  else
    let n := d.fld F.PWR_FIELD_LOSS_COUNT 0
    let d := d.setFbit F.PWR_RAIL_STATUS_ISOLATED 0 f true
    let d := if n = 0 then d.setF F.PWR_FIELD_LOSS_FIRST 0 f else if n = 1 then d.setF F.PWR_FIELD_LOSS_SECOND 0 f else d
    let d := (d.setF F.PWR_FIELD_LOSS_COUNT 0 (min 2 (n + 1))).clampField f
    let d := (d.setF F.FLD_RAIL_STATUS_FAB_PG f 0).setDom (256 + f) fun _ => DomS.off
    d.each (fieldSites f) fun d s => d.darken s

/-- The fields that are lost. -/
def Dev.lostFields (d : Dev) : List Nat := (List.range 16).filter d.fieldLost

/-! Power and training (R313, R326, R336, R494). -/

/-- The good phases of a field at a start: 22 where the tests list none. -/
def phasesOf (t : StartTest) (f : Nat) : Nat := ((t.phases[f]?).map (·.toNat)).getD 22

/-- The fields power up: fabric power-good, LDOs on, PLL0 active unless it failed to lock (R494). -/
def Dev.powerFields (d : Dev) (t : StartTest) : Dev :=
  let d := (d.setF F.PWR_RAIL_STATUS_RAIL_PG 0 (((List.range 20).filter fun r => !d.pch.down.contains r).map (2 ^ ·)).sum).setF
    F.PWR_RAIL_STATUS_FIELD_PG 0 (((List.range 16).filter fun f => !d.pch.dark.contains f).map (2 ^ ·)).sum
  d.each ((List.range 16).filter fun f => !d.fieldLost f) fun d f =>
    let d := (d.setF F.FLD_PG_STATUS_OWN_PG f 1).setF F.FLD_RAIL_STATUS_FAB_PG f 1
    let on (g : Nat) (has : Bool) (b : Nat) (d : Dev) : Dev := d.setFbit F.FLD_PG_STATUS_NEIGH_PG f b (has && !d.fieldLost g)
    let d := on (f - 4) (decide (f ≥ 4)) 0 d
    let d := on (f + 1) (decide (f % 4 < 3)) 1 d
    let d := on (f + 4) (decide (f < 12)) 2 d
    let d := on (f - 1) (decide (f % 4 > 0)) 3 d
    let d := ((d.setPhases f (phasesOf t f)).setF F.FLD_FABLDO_STATE0 f 1).setF F.FLD_FABLDO_STATE1 f 1
    let d := d.each (List.range 16) fun d k => d.setF F.FLD_LDO_STATE f 2 k
    -- the Vout transition rate of 10 mV/µs, once after reset (Table 11-3; data in mV/µs up and down, assumption 120)
    let d := d.avsTry f 0 1 true 0x0A0A (d.avsUp f)
    let ok := t.pll0Ok.any fun x => x.val == f
    ((d.setF F.FLD_CLK_PLL0 f (if ok then 2 else 3)).setF F.FLD_CLK_PLL1 f (if ok then 1 else 2)).setF F.FLD_CLK_ACTIVE f
      (if ok then 0 else 1)

/-- A stack trains: logical channel l on physical channel l, a bad channel on the spare (R313). Each bad channel raises
HBM_CH_FAIL, and more of them than the spare covers fail the stack (R315). -/
def Dev.trainStack (d : Dev) (t : StartTest) (h : Nat) : Dev :=
  let bad := ((t.hbmBadCh.filter fun x => x.1.val == h).map fun x => x.2.val).eraseDups
  let d := d.each (List.range 31) fun d l => d.setHbmMap h l (if bad.contains l then 128 + 31 else 128 + l)
  let d := d.setHbmMap h 31 (if bad.isEmpty then 128 + 31 else 0)
  let d := (d.setB F.HBM_STATUS_SPARE_USED h (bad.any (· != 31))).modHbm h fun x => { x with badCh := bad }
  let d := d.each bad fun d c => d.raise (evU bHBM h) 3 2 c
  if bad.length > 1 then d.stackFail h else d.setF F.HBM_STATUS_STATE h 2

/-- The Cellar trains (R326): every channel that trains is in the interleave, and below 6 of them it is ABSENT. A channel at the
face of a lost field is stranded (R546). POLICY gives the speed (R325). -/
def Dev.trainCellar (d : Dev) (img : Image) (t : StartTest) : Dev :=
  let ok := (List.range 12).filter fun c => (t.celOk.any fun x => x.val == c) && !d.fieldLost (fieldOf (celFace c))
  let n := ok.length
  d.each (List.range 12) fun d c =>
    let on := ok.contains c
    let d := ((d.setF F.CEL_STATUS_N c n).setB F.CEL_STATUS_IN_ILV c on).setF F.CEL_STATUS_STATE c
      (if on && decide (n ≥ 6) then 2 else 0)
    let d := (d.setF F.CEL_STATUS_SIZE c t.celSize.toNat).setF F.CEL_STATUS_SPEED c img.celRate.val
    if n < 6 && c = 0 then d.raise (evU bCEL c) 4 0 0 else d

/-- The UCIe modules train at the rate of POLICY (R335); one that fails is not in Sill (R336). -/
def Dev.trainUcie (d : Dev) (img : Image) (t : StartTest) : Dev :=
  let d := d.each (List.range 4) fun d m =>
    let ok := t.uciModules.any fun x => x.val == m
    let d := (d.setF F.UCI_STATUS_RATE m img.uciRate.val).setB F.UCI_STATUS_IN_SILL m ok
    let d := (d.setF F.UCI_STATUS_STATE m (if ok then 2 else 4)).setF F.UCI_STATUS_LANES_REPAIRED m
      (t.uciRepaired.getD m 0).toNat
    if ok then d else d.raise (evU bUCI m) 1 1 0
  let d := d.showModules
  if t.uciModules.isEmpty then d.raise (evU bUCI 0) 2 5 0 else d.sillUp

/-- HBM, Cellar and UCIe train (Table 16-6 step 5). -/
def Dev.train (d : Dev) (img : Image) (t : StartTest) : Dev :=
  (((d.each (List.range 16) fun d h => d.trainStack t h).trainCellar img t).trainUcie img t)

/-- The enabled links that train are UP, at half width below 8 good lanes, FAILED below 4 (R380, R393). -/
def Dev.trainLinks (d : Dev) (t : StartTest) : Dev :=
  d.each t.linksUp fun d x =>
    let l := x.1.val
    let good := d.goodRx l x.2.toNat
    let tx := goodTx x.2.toNat
    if !d.flag F.LNK_CTRL_EN l || d.fieldLost (fieldOf (lnkFace l)) then d
    else if good.length < 4 || tx.length < 4 then
      ((d.setF F.LNK_STATUS_GOOD_LANES l good.length).linkDown l 4).raise (evU bLNK l) 3 2 15
    else
      let d := ((d.lanesSet l good).txSet l tx).linkUp l
      if good.length < 8 || tx.length < 8 then d.raise (evU bLNK l) 2 1 15 else d

/-! The Newt map (R537, R539). -/

/-- The number of usable cluster sites G. -/
def Dev.countGood (d : Dev) : Nat := ((List.range 256).filter d.usable).length

/-- Place logical clusters on sites that a dimension order can serve (R230): first each preferred site that is usable and free,
then spare sites by the rule of a cluster swap (R539, R576). -/
def Dev.placeClusters (d : Dev) (img : Image) (n : Nat) : Dev :=
  let pref (l : Nat) : Nat := match img.preferred.drop l with
    | x :: _ => x.val
    | [] => l
  let put (d : Dev) (l x : Nat) : Dev := d.modNwt fun y => { y with map := sset y.map 0 l (x + 1) }
  let d := d.modNwt fun y => { y with map := [], old := [] }
  let d := d.each (List.range n) fun d l =>
    if d.placeable (pref l) && (d.logicalOf (pref l)).isNone then put d l (pref l) else d
  d.each ((List.range n).filter fun l => (d.newtSite l).isNone) fun d l =>
    match d.spareFor (pref l) with
    | some x => put d l x
    | none => d

/-- Core maps, CLU_MESH_CTRL.ORDER, logical-map copy A and the epoch of every router follow the map (R539). -/
def Dev.writeMaps (d : Dev) (n : Nat) : Dev :=
  let sites := (List.range n).filterMap d.newtSite
  let lm : SMap Nat := (List.range n).filterMap fun l => (d.newtSite l).map fun x => (l, 256 + x)
  let d := d.each sites fun d x => d.makeCoreMap x
  d.each d.liveRouters fun d x =>
    ((d.modRtr x fun r => { r with lmA := lm }).setF F.FAB_CTRL_VALID_A x 1).setF F.FAB_CTRL_INJ_EPOCH x 0

/-- The fewest good core sites in an active cluster. -/
def Dev.minCores (d : Dev) (n : Nat) : Nat :=
  ((List.range n).filterMap d.newtSite).foldl (fun m x => min m (d.goodCores x).length) 36

/-- BSQ_GRADE for a start with N active clusters (Table 16-21): GRADE is the grade that the image asks for (assumption 92). -/
def Dev.showGrade (d : Dev) (n : Nat) (lost : Option Nat) : Dev :=
  let d := ((d.setF F.BSQ_GRADE_GOOD 0 d.countGood).setF F.BSQ_GRADE_ACTIVE 0 n).setF F.BSQ_GRADE_SPARE 0 d.spareSites.length
  let d := ((d.setF F.BSQ_GRADE_MIN_CORES 0 (d.minCores n)).setF F.BSQ_GRADE_REQ 0 n).setF F.BSQ_GRADE_LOST 0 (lost.getD 0)
  d.setF F.BSQ_GRADE_GRADE 0 (if lost.isSome then 3 else d.man.reqGrade)

/-! Loading (Tables 16-5, 16-6 step 8). -/

/-- The fields of POLICY that the image holds apart from its register loads (Table 16-5). -/
def Dev.loadPolicy (d : Dev) (img : Image) : Dev :=
  let d := ((d.loadCaps img).setF F.PWR_CURTAIL_LEVEL 0 img.curtLevel.toNat).setF F.PWR_CURTAIL_DESC 0 img.curtDesc.toNat
  (d.setF F.PWR_SLOT_CAMPUS 0 img.campus.toNat).each (List.range 256) fun d x => d.each (List.range 36) fun d c =>
    d.setF F.COR_FMAX_FLOOR (cu x c) img.floor.toNat

/-- What registers show of the header of a manifest: IMAGE_ROLE, AUTO_VARIANT, the SVN (Tables 10-16, 16-19, 16-23). -/
def Dev.showHeader (d : Dev) (m : Manifest) : Dev :=
  ((d.setF F.CMD_PAIR_CTRL_IMAGE_ROLE 0 m.role).setB F.BSQ_CTRL_AUTO_VARIANT 0 (bitOf m.flags 0)).setF F.SEC_SVN_IMAGE 0 m.svn

/-- The image is the loaded one: manifest, digest, copy, N. -/
def Dev.adopt (d : Dev) (m : Manifest) (img : Image) (copy n : Nat) : Dev :=
  let d : Dev := { d with boot := { d.boot with image := some img, man := some m, digest := m.digest, n := n } }
  let d := d.each (List.range 4) fun d i => d.setR R.BSQ_DIGEST 0 (BitVec.ofNat 64 (m.digest / 2 ^ (64 * i))) i
  (d.showHeader m).setF F.BSQ_STATUS_COPY 0 copy

/-- The effective cap at a start: of the selection and the software cap in force (R456, Table 12-11). -/
def Dev.startCap (d : Dev) : Dev :=
  if d.fld F.PWR_CAP_EFFECTIVE 0 = 0 then d.setF F.PWR_CAP_EFFECTIVE 0 (d.effCap (d.fld F.PWR_CAP_SEL 0) (d.fld F.PWR_CAP_SW_CAP 0))
  else d

/-- Load every section that the command loads. -/
def State.loadAll (s : State) (img : Image) : State :=
  let s := s.onDev fun d => ((d.loadPolicy img).each img.tables fun d x => d.loadTbl x).setGuest img.guestN.toNat
  (s.loadWhere 250 img fun _ => true).onDev fun d => d.startCap

/-! Ready (Table 16-6 step 10). -/

/-- The journal is cleared and SEQ starts at 1 (R374, R377). -/
def Dev.clearJournal (d : Dev) : Dev :=
  let d : Dev := { d with jmem := dropRange d.jmem 0x800000 0xC00000 }
  (d.setR R.JNL_NEXT_SEQ 0 1).setR R.JNL_MIRROR_SEQ 0 0

/-- The role at Ready (R401, R402): SOLO, or WAITING until the pair settles. -/
def Dev.startRole (d : Dev) : Dev := d.setRole (if d.man.role = 0 then 1 else 0) 0

/-- READY: AUTORUN cores run, STATE is sent with Run, boot and security enter D4. -/
def Dev.ready (d : Dev) (img : Image) (path : Nat) : Dev :=
  let d := (d.autorun img fun _ => true).vc1 false
  let d := (d.setF F.BSQ_STATUS_STATE 0 2).setF F.BSQ_STATUS_PATH 0 path
  ((d.emit (.sideband 0x10 0)).showSpares).bootDom

/-! Cold start (R540, Table 16-6). -/

/-- Whether a cold start can begin: Merif is out of reset and has not started (R425, R616). -/
def Dev.canStart (d : Dev) : Bool := d.fld F.BSQ_STATUS_STATE 0 = 1 && !d.pch.resetLow

/-- The fuses are read; each region whose primary copy fails its check bits comes from the spare bank (R533, R534). -/
def Dev.readFuses (d : Dev) (t : StartTest) : Dev :=
  let bad := (t.fuseBad.map (·.val)).eraseDups
  let d : Dev := { d with boot := { d.boot with fuse := { d.boot.fuse with bad := bad }, restart := none } }
  d.showCount.each bad fun d _ => d.raise (evU bSEC 0) 1 0 0

/-- BIST and reconciliation; fields with a bad router or a FAILED Hallway count as lost (R535 to R538). -/
def Dev.selfTest (d : Dev) (t : StartTest) : Dev :=
  let d := d.reconcile t
  let bundles := d.badBundles t
  let (d, hw) := d.hallwayTests t
  let d := d.countDefects t bundles
  d.each ((t.routerBad.map fun x => fieldOf x.val) ++ hw).eraseDups fun d f => d.loseAtStart f

/-- Whether the lost fields take the device out of service: two of them, or F13 or F14 (R538, R546, R547). -/
def Dev.lostTooMuch (d : Dev) : Bool := d.lostFields.length ≥ 2 || d.lostFields.any fun f => f == 13 || f == 14

/-- The grade check (R537): with G below N, GRADE_FAIL. -/
def Dev.gradeFail (d : Dev) : Dev :=
  (((d.setF F.BSQ_STATUS_FAIL_CODE 0 9).setF F.CMD_CTRL_EN 0 0).setF F.BSQ_GRADE_GOOD 0 d.countGood).raise (evU bBSQ 0) 5 5 0

/-- SPARES_LOW (R537). -/
def Dev.sparesLow (d : Dev) (n : Nat) : Dev :=
  if d.countGood < n + 4 || d.minCores n < 34 then d.raise (evU bBSQ 0) 4 0 0 else d

/-- Steps 7 to 10 of a cold start on a copy of the image. -/
def State.startOn (s : State) (img : Image) (t : StartTest) (copy n : Nat) (lost : Option Nat) : State :=
  let m := manifestOf s.flash copy
  let s := s.onDev fun d => ((((d.placeClusters img n).writeMaps n).adopt m img copy n).showGrade n lost).sparesLow n
  let s := s.loadAll img
  s.onDev fun d => ((((d.openHallways true).trainLinks t).clearJournal).startRole).ready img 0

/-- The fields whose rail is off are lost at a cold start, and so are those that lack phases (R428, R438, R538). -/
def Dev.darkFields (d : Dev) (t : StartTest) : Dev :=
  let d := d.each d.pch.dark fun d f => d.loseAtStart f
  d.each ((List.range 16).filter fun f => phasesOf t f ≤ 17) fun d f => (d.shed f).loseAtStart f

/-- NT counts from 0 when the boot sequencer starts time discipline (R503). -/
def Dev.startTime (d : Dev) : Dev :=
  { d with tim := { TimS.init with skew := d.tim.skew - d.tim.sub }, pwr := { d.pwr with tickNt := 0, slotNt := 0 } }

/-- PWR_CAP.SEL takes the pin's value at a start (Table 12-11). -/
def Dev.sampleCap (d : Dev) (t : StartTest) : Dev := d.setF F.PWR_CAP_SEL 0 t.capSel.val

/-- A cold start. The rails that are down take what they feed with them (R441). -/
def State.coldRun (s : State) (img : Images) (t : StartTest) : State :=
  let d := (((((s.dev.readFuses t).startTime.sampleCap t).darkFields t).powerFields t).vc1 true).fmaxStart t
  let c := d.chooseCopy s.flash img 0
  let d := (Dev.each (c.1.train (imgOf img (c.2.getD 0)) t) d.pch.down fun d r => d.railOut r).selfTest t
  if d.lostTooMuch then { s with dev := d.outOfService }
  else
    match c.2 with
    | none => { s with dev := d.failsafe }
    | some copy =>
      let n := (manifestOf s.flash copy).nReq - (if d.lostFields.isEmpty then 0 else 16)
      if d.countGood < n then { s with dev := d.gradeFail }
      else ({ s with dev := d } : State).startOn (imgOf img copy) t copy n d.lostFields.head?

/-- COLD_START (R540). -/
def execColdStart (img : Images) (t : StartTest) (s : State) : Host.Outcome State Fault Refusal :=
  s.done (if s.dev.canStart then s.coldRun img t else s)

/-- A cold start from FAILSAFE, or of a start that did not reach Ready (R532, R552). The isolation of a field ends (R439), unless its
rail is still off. -/
def State.coldAgain (s : State) (img : Images) (t : StartTest) : State :=
  let up := s.dev.pch.rails
  ((s.dieReset true).onDev fun d => d.modPch fun p => { p with rails := up }).coldRun img t

/-! Warm reset (R541, R542, Table 16-9). -/

/-- Registers that a warm reset or restart keeps whole: unit maps, routes, training results, measured units, the Newt map and
redirects, histories of events, TERM and SEQ, and what a start path finds. -/
def warmWhole : List Reg :=
  [R.EVT_HIST0, R.EVT_HIST1, R.FLD_PG_STATUS, R.COR_FMAX, R.COR_AGE, R.CLU_CORE_MAP, R.CLU_REDIRECT, R.CLU_MESH_CTRL,
   R.HBM_CHMAP, R.HBM_STG_CFG, R.CEL_STATUS, R.LNK_LANE, R.PWR_RAIL_STATUS, R.PWR_FIELD_LOSS,
   R.JNL_NEXT_SEQ, R.JNL_MIRROR_SEQ, R.BSQ_GRADE, R.BSQ_DEFECTS, R.BSQ_DIGEST, R.BSQ_CTRL, R.BLOCK_ID]

/-- The bits of a register that a warm reset keeps: sticky bits (Table 0-8) and what Table 16-9 names. -/
def warmMask (r : Reg) : Nat :=
  if warmWhole.any fun x => x.code == r.code then 2 ^ 64 - 1
  else if r.code = R.FLD_FABLDO.code then 0x33
  else if r.code = R.FLD_LDO.code then 0x70000000007
  else if r.code = R.FLD_CLK.code then 0x7D
  else if r.code = R.FAB_CTRL.code then 7
  else if r.code = R.HBM_STATUS.code then 0x6F
  else if r.code = R.UCI_STATUS.code then 0xFFFFF
  else if r.code = R.LNK_STATUS.code then 0x1F00F
  else if r.code = R.FLD_HW_STATUS.code then 0xFFFF07
  else if r.code = R.FLD_RAIL_STATUS.code then 0x1F01
  else if r.code = R.CMD_PAIR_STATUS.code then 0xFFFFFFFF00000000
  else if r.code = R.BSQ_STATUS.code then 0x10F
  else if r.code = R.TIM_STATUS.code then 0x600
  else if r.code = R.SEC_SVN.code then 0xFFFF00
  else r.ros

/-- Every register goes to its reset word but for the bits a choice keeps. -/
def Dev.resetRegs (d : Dev) (mask : Reg → Nat) : Dev :=
  { d with regs := d.regs.filterMap fun x =>
      match allRegs.find? fun r => r.code == x.1 / 4096 / 4194304 with
      | none => none
      | some r =>
        let m := BitVec.ofNat 64 (mask r)
        let w := (x.2 &&& m) ||| (r.word &&& ~~~m)
        if w = r.word then none else some (x.1, w) }

/-- Every PENDING journal entry becomes ABORTED (R373). -/
def Dev.abortJournal (d : Dev) : Dev :=
  d.each (List.range 65536) fun d i =>
    let e := d.getJ (0x800000 + 64 * i) 64
    if leAt e 14 1 = 0xFF && leAt e 0 8 ≠ 0 then d.putJ (0x800000 + 64 * i) (jnlFinal e 0x0C d.cmdNt 0 d.term) else d

/-- The status blocks show every session FREE (R372, R373). -/
def Dev.freeSessions (d : Dev) : Dev :=
  { d with sessions := [], jmem := dropRange d.jmem 0xC00000 0xC00400 }

/-- The commit of an anti-rollback count that a reset cuts off leaves each bank with free bits of the new code (R533). -/
def Dev.cutCommit (d : Dev) : Dev :=
  match d.boot.commit with
  | none => d
  | some v =>
    let f := d.boot.fuse.program v d.free (d.took).free
    let d := d.took.took
    let d : Dev := { d with boot := { d.boot with commit := none, fuse := f } }
    d.showCount

/-- After a warm reset the current limits follow the good phases of each field again (R438), the Chameleons relock, and every core runs
at the lower of its two codes (R500, R502). -/
def Dev.resumeClocks (d : Dev) : Dev :=
  let d := d.each ((List.range 16).filter fun f => !d.fieldLost f) fun d f => d.setPhases f (d.fld F.FLD_RAIL_STATUS_PHASES f)
  d.each ((List.range 256).filter fun x => !d.siteOut x) fun d x =>
    Dev.showClk (site := x) <| d.each (d.activeCores x) fun d u => d.setF F.COR_CLK_FLL_LOCK u 1

/-- Everything but what Table 16-9 keeps is as after reset. `mask` says which register bits stay. -/
def Dev.softReset (d : Dev) (mask : Reg → Nat) : Dev :=
  let d := (d.abortJournal.freeSessions).cutCommit
  -- a warm reset during ACQUIRING restarts in it (R518)
  let acq := d.fld F.TIM_STATUS_STATE 0 = 1
  let k := d.resetRegs mask
  let boot : BootS := { d.boot with nvm := none, report := none, warmReq := false, policy := none, restart := none }
  let d : Dev := { Dev.reset with
    regs := k.regs, jmem := d.jmem, out := d.out, fresh := d.fresh, evtCount := d.evtCount, boot := boot,
    rtrs := (d.rtrs.map fun x => (x.1, { RtrS.init with rtA := x.2.rtA, rtB := x.2.rtB, circ := x.2.circ, lmA := x.2.lmA,
                                                        lmB := x.2.lmB, deadPorts := x.2.deadPorts })).filter fun x => x.2 ≠ RtrS.init,
    hbms := (d.hbms.map fun x => (x.1, { HbmS.init with descs := x.2.descs, repairs := x.2.repairs, ueLog := x.2.ueLog,
                                                        badCh := x.2.badCh })).filter fun x => x.2 ≠ HbmS.init,
    cels := (d.cels.map fun x => (x.1, { CelS.init with repairs := x.2.repairs, rowCe := x.2.rowCe })).filter fun x => x.2 ≠ CelS.init,
    lnks := (d.lnks.map fun x => (x.1, { LnkS.init with badLanes := x.2.badLanes, txMap := x.2.txMap, txHalf := x.2.txHalf })).filter
      fun x => x.2 ≠ LnkS.init,
    hw := ⟨d.hw.act, [], []⟩, trn := { TrnS.init with dir := d.trn.dir, exp := d.trn.exp, slots := d.trn.slots },
    pwr := { PwrS.init with model := d.pwr.model, modelInit := d.pwr.modelInit, gain := d.pwr.gain, lost := d.pwr.lost,
                            avsDead := d.pwr.avsDead, shed := d.pwr.shed },
    pch := { PchS.init with resetLow := d.pch.resetLow, rails := d.pch.rails, down := d.pch.down, dark := d.pch.dark },
    tim := { TimS.init with sub := d.tim.sub, skew := d.tim.skew, acquired := d.tim.acquired || acq, lag := d.tim.lag, tb := d.tim.tb,
                            due := d.tim.due },
    nwt := { NwtS.init with map := d.nwt.map, old := d.nwt.old, rowUse := d.nwt.rowUse, colUse := d.nwt.colUse } }
  let d := (d.fuseCubes d.fusedCubes).setF F.TIM_STATUS_STATE 0 (b2n acq)
  -- what is lost or retired stays so
  let d := d.each (d.boot.coreBad.filter fun x => x.2 == 2) fun d x => d.setF F.COR_STATUS_STATE x.1 4
  let d := d.each d.pwr.lost fun d n => d.setDom n fun _ => DomS.off
  let d := d.each d.lostFields fun d f =>
    (d.setDom (256 + f) fun _ => DomS.off).each (fieldSites f) fun d x =>
      d.setDom x fun _ => DomS.off
  let d := d.each (List.range 256) fun d x =>
    let st := d.fld F.FLD_LDO_STATE (fieldOf x) (localIx x)
    if st = 1 || st = 3 then d.setF F.FLD_LDO_STATE (fieldOf x) 2 (localIx x) else d
  d.resumeClocks

/-- AM, PM and the activation buffers of every core read zero after a warm reset (assumption 44). -/
def State.softMem (s : State) : State :=
  let at_ (a : Nat) : Bool :=
    let o := a % 0x8000000
    0x1000000000 ≤ a && a < 0x1800000000 && 0x1000000 ≤ o && o < 0x1000000 + 36 * 0x200000 &&
      0x100000 ≤ o % 0x200000 && o % 0x200000 < 0x140000
  { s with mem := s.mem.filter fun x => !at_ x.1, ecc := s.ecc.filter fun x => !at_ x.1, abuf := [] }

/-- The UCIe main band is retrained from retained results (Table 16-10 step 2), and Sill comes up. -/
def Dev.uciResume (d : Dev) : Dev :=
  let d := d.each (List.range 4) fun d m => if d.flag F.UCI_STATUS_IN_SILL m then d.setF F.UCI_STATUS_STATE m 2 else d
  if d.sillModule.isSome then d.sillUp else d

/-- HBM, DDR5, UCIe and links resume from retained training (Table 16-10). -/
def Dev.resume (d : Dev) (links : List Nat) : Dev :=
  let d := d.each (List.range 16) fun d h => if d.fld F.HBM_STATUS_STATE h = 1 || d.fld F.HBM_STATUS_STATE h = 3 then
    d.setF F.HBM_STATUS_STATE h 2 else d
  let d := d.each (List.range 12) fun d c => if d.fld F.CEL_STATUS_STATE c = 1 || d.fld F.CEL_STATUS_STATE c = 3 then
    d.setF F.CEL_STATUS_STATE c 2 else d
  d.uciResume.each links fun d l => if d.flag F.LNK_CTRL_EN l then d.linkUp l else d

/-- The links that were UP, asleep or retraining: they resume. -/
def Dev.liveLinks (d : Dev) : List Nat :=
  (List.range 48).filter fun l => d.fld F.LNK_STATUS_STATE l ≠ 0 && d.fld F.LNK_STATUS_STATE l ≠ 4 &&
    !d.fieldLost (fieldOf (lnkFace l))

/-- Whether a register load belongs to the sections that the fast path reapplies: POLICY, CLUSTER, TIME and ENTRY of
SCHEDULE (Tables 16-5, 16-10). -/
def Dev.reapplied (d : Dev) (a : Nat) : Bool :=
  match d.portPlace 250 a with
  | .reg blk _ off =>
    blk = 2 || blk = 7 || blk = 9 || blk = 14 || blk = 15 || blk = 17 ||
      (blk = 1 && match findReg blk off with
        | some (r, _) => r.code == R.COR_CTRL.code || r.code == R.COR_WAIT_TMO.code
        | none => false)
  | _ => false

/-- The common end of the warm paths: Hallways, training, role, Ready. The journal is kept. -/
def Dev.warmEnd (d : Dev) (img : Image) (links : List Nat) (path : Nat) : Dev :=
  (((d.openHallways false).resume links).startRole).ready img path

/-- A warm reset, on the fast path when the manifest of the chosen copy has the loaded digest, else as a reload start
(R541, R542). One that cuts a REGION_RELOAD is a reload start (Table 16-16). -/
def State.warmRun (s : State) (img : Images) (t : StartTest) : State :=
  let links := s.dev.liveLinks
  let cut := s.dev.cmds.any fun c => c.started && ceOp c.entry == 0x20
  let first := if s.dev.flag F.BSQ_CTRL_PREFER_B 0 then 1 else s.dev.fld F.BSQ_STATUS_COPY 0
  let s := (s.softMem).onDev fun d => (((d.softReset warmMask).sampleCap t).setF F.BSQ_STATUS_STATE 0 1).vc1 true
  let m := manifestOf s.flash first
  let reapply (e : SectEnt) : Bool := e.variant == 255 && [1, 6, 9].contains e.typ
  if !cut && s.dev.copyFail s.flash img first reapply = 0 && m.digest = s.dev.boot.digest then
    let img := imgOf img first
    let s := s.onDev fun d => ((d.showHeader m).loadPolicy img).setGuest (d.img fun m => m.guestN.toNat)
    let s := s.each (img.regs.filter fun x => s.dev.reapplied x.addr.toNat) (State.loadReg 250)
    s.onDev fun d => (d.startCap.setF F.BSQ_STATUS_COPY 0 first).warmEnd img links 1
  else
    let c := s.dev.chooseCopy s.flash img first
    match c.2 with
    | none => { s with dev := c.1.uciResume.failsafe }
    | some copy =>
      let m := manifestOf s.flash copy
      let img := imgOf img copy
      let n := m.nReq - (if c.1.lostFields.isEmpty then 0 else 16)
      let s := (({ s with dev := c.1.adopt m img copy n } : State).loadAll img)
      s.onDev fun d => (d.showGrade n d.lostFields.head?).warmEnd img links 2

/-! Field-loss restart (R545 to R547, Table 16-13). -/

/-- Curtail and the caps stay in force through a restart (R608), and the role stays. -/
def restartMask (r : Reg) : Nat :=
  if r.blk = 17 then 2 ^ 64 - 1 else if r.code = R.CMD_PAIR_STATUS.code then 2 ^ 64 - 1 else warmMask r

/-- Step 7: WEIGHT_MAP extents come from the Cellar, unless a loss stranded its channels (R546). -/
def State.restartWeights (s : State) (img : Image) : State :=
  if s.dev.cellarThere then s.each img.weights fun s x => s.copyExtent x
  else s.onDev fun d => d.setF F.BSQ_STATUS_NO_WEIGHTS 0 1

/-- The copy whose manifest has the loaded digest, and whose sections of the variant have theirs: the loaded one, else the other
(R545). -/
def State.restartCopy (s : State) (img : Images) (f : Nat) : Option Nat :=
  let fits (c : Nat) : Bool :=
    let m := manifestOf s.flash c
    (checkOf img c).readOk && m.digest == s.dev.boot.digest && (m.sects.filter fun e => e.variant == f).all (sectGood s.flash c)
  let c := s.dev.fld F.BSQ_STATUS_COPY 0
  if fits c then some c else if fits (1 - c) then some (1 - c) else none

/-- Whether the flagged extents of an image have their digests in the Cellar (Table 16-13 step 7). -/
def State.weightsOk (s : State) (img : Image) : Bool :=
  img.weights.all fun x => match x.digest with
    | none => true
    | some v => leNat (sha3 (s.devRead x.src.toNat x.len).2.1) == v.toNat

/-- The restart of the surviving die on the variant of the lost field. BIST leaves the cluster memories zero
(assumption 44); the Cellar loses its contents with F12 or F15 (R330). -/
def State.restartRun (s : State) (img : Images) (t : StartTest) (f : Nat) : State :=
  let links := s.dev.liveLinks
  let keep := s.dev.pwr
  let role := s.dev.role
  let s : State := { s with mem := dropRange s.mem 0x1000000000 0x1800000000, ecc := dropRange s.ecc 0x1000000000 0x1800000000,
                            abuf := [] }
  let s := s.onDev fun d =>
    let d := (d.softReset restartMask).setF F.BSQ_STATUS_STATE 0 1
    let d : Dev := { d with pwr := { d.pwr with hist := keep.hist, slope := keep.slope, pendSel := keep.pendSel,
                                                pendSw := keep.pendSw, curtFrom := keep.curtFrom, curtTicks := keep.curtTicks,
                                                curtAt := keep.curtAt } }
    let d := if f = 12 || f = 15 then d.each (List.range 12) fun d c =>
        ((d.setF F.CEL_STATUS_N c 0).setB F.CEL_STATUS_IN_ILV c false).setF F.CEL_STATUS_STATE c 0 else d
    (d.vc1 true).selfTest t
  if s.dev.lostTooMuch then s.onDev Dev.outOfService
  else
    match s.restartCopy img f with
    | none => s.onDev fun d => (d.setF F.BSQ_STATUS_FAIL_CODE 0 7).uciResume.failsafe
    | some copy =>
      let m := manifestOf s.flash copy
      let img := imgOf img copy
      let n := m.nReq - 16
      if s.dev.countGood < n then s.onDev fun d => d.gradeFail.outOfService
      else if s.dev.cellarThere && !s.weightsOk img then
        s.onDev fun d => (d.setF F.BSQ_STATUS_FAIL_CODE 0 7).uciResume.failsafe
      else
        let s := s.onDev fun d => ((((d.placeClusters img n).writeMaps n).adopt m img copy n).showGrade n (some f)).sparesLow n
        let s := (s.loadAll img).restartWeights img
        s.onDev fun d => (((d.openHallways true).resume links).ready img 3).setRole role 0

/-- FIELD_LOSS_RESTART: with AUTO_VARIANT set, BSQ restarts the surviving die (R545). -/
def execFieldLossRestart (img : Images) (t : StartTest) (s : State) : Host.Outcome State Fault Refusal :=
  match s.dev.boot.restart with
  | none => s.done s
  | some f => s.done (if s.dev.flag F.BSQ_CTRL_AUTO_VARIANT 0 && s.dev.fld F.BSQ_STATUS_STATE 0 = 2 then s.restartRun img t f else s)

/-- A warm reset as it is asked for: out of service it is ignored, in FAILSAFE and before Ready it is a cold start, after a
field loss it is the restart (R532, R545, R547, R552). -/
def State.warmReset (s : State) (img : Images) (t : StartTest) : State :=
  let st := s.dev.fld F.BSQ_STATUS_STATE 0
  if st = 3 || (st = 1 && s.dev.canStart) then s.coldAgain img t
  else if st ≠ 2 then s
  else match s.dev.boot.restart with
    | some f => s.restartRun img t f
    | none => s.warmRun img t

/-- WARM_RESET: the sideband message (Table 9-2). -/
def execWarmReset (img : Images) (t : StartTest) (s : State) : Host.Outcome State Fault Refusal :=
  s.done (if s.dev.pstate = 4 then s else s.warmReset img t)

/-- BSQ_WARM: the warm reset that a write of WARM asked for (assumption 40). -/
def execBsqWarm (img : Images) (t : StartTest) (s : State) : Host.Outcome State Fault Refusal :=
  s.done (if s.dev.boot.warmReq then
    (s.onDev fun d => ({ d with boot := { d.boot with warmReq := false } } : Dev)).warmReset img t else s)

/-! Reset (R425, R616, R618). -/

/-- RESET_N: low for 10 µs holds Merif in reset; its rise is the trigger of a cold start once the rails are qualified. In Off
only the level counts. -/
def execResetN (low : Bool) (s : State) : Host.Outcome State Fault Refusal :=
  if s.dev.pstate = 4 then s.done (s.onDev fun d => d.modPch fun p => { p with resetLow := low })
  else if low then
    s.done ((s.dieReset s.dev.pch.rails).onDev fun d =>
      (d.modPch fun p => { p with resetLow := true }).setF F.BSQ_STATUS_STATE 0 0)
  else s.done (s.onDev fun d =>
    if d.pch.resetLow then
      let d := d.modPch fun p => { p with resetLow := false }
      if d.pch.rails then d.setF F.BSQ_STATUS_STATE 0 1 else d
    else d)

/-- RAIL_QUALIFIED: every rail has been within tolerance for 1 ms; a Merif in reset leaves it unless RESET_N holds it (R425). -/
def execRailQualified (s : State) : Host.Outcome State Fault Refusal :=
  if s.dev.pch.rails then s.done s
  else
    let t := s.onDev fun d => d.modPch fun p => { p with rails := true, down := [], dark := [] }
    if s.dev.fld F.BSQ_STATUS_STATE 0 ≠ 0 && s.dev.pstate ≠ 4 then s.done t
    else s.done ((t.dieReset true).onDev fun d => if d.pch.resetLow then d.setF F.BSQ_STATUS_STATE 0 0 else d)

/-! Region reload (R543, R544). -/

/-- COPY of a REGION_RELOAD (Table 16-11). -/
def rrCopy (e : List Byte) : Nat := bitsOf (ceP e 0) 0 1
/-- KIND of a REGION_RELOAD. -/
def rrKind (e : List Byte) : Nat := bitsOf (ceP e 0) 8 4
/-- The logical clusters that a REGION_RELOAD names. -/
def rrRange (e : List Byte) : List Nat := (List.range (bitsOf (ceP e 0) 24 8 + 1)).map (· + bitsOf (ceP e 0) 16 8)
/-- The drain root of a REGION_RELOAD. -/
def rrRoot (e : List Byte) : Nat := bitsOf (ceP e 0) 32 8

/-- The condition of Table 16-12. -/
def Dev.reloadFree (d : Dev) (kind : Nat) (ls : List Nat) : Bool :=
  if kind = 1 || kind = 2 then ls.all fun l => match d.newtSite l with
    | none => true
    | some x => (List.range 36).all fun c => d.coreAbsent (cu x c) || d.coreState (cu x c) == 0 || d.coreState (cu x c) == 4
  else if kind = 5 || kind = 6 then (List.range 16).all fun i => (d.sess i).state != 2
  else true

/-- Whether a section is of the kind of a reload, and of the clusters that it names (Table 16-12). -/
def inKind (kind : Nat) (ls : List Nat) (e : SectEnt) : Bool :=
  e.typ == [0, 5, 6, 3, 4, 7, 8, 1, 10].getD kind 0 &&
    (decide (kind > 2) || ls.contains (bitsOf e.scope 0 8) && ls.contains (bitsOf e.scope 0 8 + bitsOf e.scope 8 8))

/-- The base sections of a manifest outside those of a reload. -/
def Manifest.outside (m : Manifest) (kind : Nat) (ls : List Nat) : List SectEnt :=
  m.sects.filter fun e => e.variant == 255 && !inKind kind ls e

/-- The base sections of a manifest that a reload takes. -/
def Manifest.inside (m : Manifest) (kind : Nat) (ls : List Nat) : List SectEnt :=
  m.sects.filter fun e => e.variant == 255 && inKind kind ls e

/-- The status with which a reload fails (R544), or none: it reads the sections of its kind, and the variant sections that differ. -/
def State.reloadBad (s : State) (e : List Byte) (img : Image) (check : CopyCheck) : Option Nat :=
  let d := s.dev
  let kind := rrKind e
  let ls := rrRange e
  let m := manifestOf s.flash (rrCopy e)
  if kind = 0 || kind > 8 || rrCopy e = d.fld F.BSQ_STATUS_COPY 0 then some 3
  else if d.manFail m img check ≠ 0 then some 0x0B
  else if d.man.outside kind ls ≠ m.outside kind ls || d.man.imageId ≠ m.imageId || d.man.reqGrade ≠ m.reqGrade ||
      d.man.role ≠ m.role then some 3
  else if !(m.inside kind ls ++ m.sects.filter fun x => x.variant != 255 && !d.man.sects.contains x).all (sectGood s.flash (rrCopy e))
    then some 0x0B
  else if !d.reloadFree kind ls then some 4
  else none

/-- The loaded image after a reload of a kind: the new loads take the place of the old ones. -/
def mergeImage (old new : Image) (kind : Nat) (ls : List Nat) : Image :=
  { new with
    regs := (old.regs.filter fun x => !new.regs.any fun y => y.addr == x.addr) ++ new.regs,
    mems := old.mems ++ new.mems,
    tables := (old.tables.filter fun x => !new.tables.any fun y => y.table == x.table && y.unit == x.unit && y.index == x.index)
      ++ new.tables,
    autorun := if kind = 1 then (old.autorun.filter fun x => !ls.contains x.1.val) ++ new.autorun else old.autorun,
    weights := if kind = 8 then new.weights else old.weights,
    preferred := if kind = 7 then new.preferred else old.preferred }

/-- KIND 1 resets the model's coefficients of its clusters to the image's initial ones (R462). -/
def Dev.resetModel (d : Dev) (ls : List Nat) : Dev :=
  d.each ls fun d l => match d.newtSite l with
    | none => d
    | some x => d.each (List.range 64) fun d ph =>
      { d with pwr := { d.pwr with model := sset d.pwr.model 0 (x * 64 + ph) (sget d.pwr.modelInit 0 (l * 64 + ph)) } }

/-- KIND 3: the inactive copies take the new routes and the logical map in force, VALID is set, INJ_EPOCH flips, and the drain
from the root with AUTO_RETIRE ends with a status: clean or lossy, the old copies are retired; else they stay valid. -/
def Dev.reloadRoutes (d : Dev) (img : Image) (root st : Nat) : Dev :=
  let ep := d.injEpoch root
  let d := d.each d.liveRouters fun d x =>
    let b := d.injEpoch x = 0
    let d := d.modRtr x fun r => if b then { r with rtB := [], lmB := r.lmA } else { r with rtA := [], lmA := r.lmB }
    let d := d.each (img.tables.filter fun y => (y.table == 2 || y.table == 3) && y.unit == x) fun d y =>
      d.putTbl x (if b then 1 else 0) y.index y.entry.toNat
    d.wrFabCtrl x ((d.getR R.FAB_CTRL x).toNat ||| (if b then 4 else 2))
  let d := d.flipEpochs
  let d := (d.setF F.FAB_DRAIN_CTRL_EPOCH root ep).setF F.FAB_DRAIN_CTRL_AUTO_RETIRE root 1
  let d := if st = 2 || st = 3 then d.each d.liveRouters fun d x => d.setF (if ep = 0 then F.FAB_CTRL_VALID_A else F.FAB_CTRL_VALID_B) x 0
    else d
  d.drainEnd root st

/-- KIND 4: circuits that the new section does not hold go, new and changed ones come (R253). -/
def Dev.reloadCircuits (d : Dev) (img : Image) : Dev :=
  d.each d.liveRouters fun d x =>
    let mine := img.tables.filter fun y => y.table == 4 && y.unit == x
    d.each (List.range 56) fun d i =>
      let e := match mine.find? fun y => y.index == i with
        | some y => y.entry.toNat
        | none => 0
      if sget (d.rtr x).circ 0 i = e &&& 0xFF8FFF00 then d else d.putTbl x 2 i e

/-- Whether an address belongs to what CLUSTER holds: a cluster register, or COR_WAIT_TMO (Table 16-5). -/
def Dev.ofCluster (d : Dev) (a : Nat) : Bool :=
  match d.portPlace 250 a with
  | .reg blk _ off => blk == 2 || (blk == 1 && match findReg blk off with
      | some (r, _) => r.code == R.COR_WAIT_TMO.code
      | none => false)
  | _ => false

/-- Apply a kind (Table 16-12). -/
def State.reloadApply (s : State) (img : Image) (kind : Nat) (ls : List Nat) (root st : Nat) : State :=
  let inLs (a : Nat) : Bool := ls.any fun l => inLclu l a
  let regsOf (bs : List Nat) (s : State) : State :=
    s.each (img.regs.filter fun x => match s.dev.portPlace 250 x.addr.toNat with
      | .reg blk _ _ => bs.contains blk
      | _ => false) (State.loadReg 250)
  let tablesOf (ts : List Nat) (s : State) : State :=
    s.onDev fun d => d.each (img.tables.filter fun x => ts.contains x.table) fun d x => d.loadTbl x
  if kind = 1 then (s.loadWhere 250 img fun a => inLs a && !s.dev.ofCluster a).onDev fun d => d.resetModel ls
  else if kind = 2 then s.loadWhere 250 img fun a => inLs a && s.dev.ofCluster a
  else if kind = 3 then s.onDev fun d => d.reloadRoutes img root st
  else if kind = 4 then s.onDev fun d => d.reloadCircuits img
  else if kind = 5 then
    let en := s.dev.fld F.TRN_CTRL_EN 0
    (regsOf [19] (tablesOf [0, 1] (s.onDev fun d => d.setF F.TRN_CTRL_EN 0 0))).onDev fun d =>
      (d.setGuest img.guestN.toNat).setF F.TRN_CTRL_EN 0 en
  else if kind = 6 then
    let en := (List.range 16).map fun h => s.dev.fld F.HBM_CTRL_STRM_EN h
    let s := regsOf [5] (tablesOf [7] (s.onDev fun d => d.each (List.range 16) fun d h => d.setF F.HBM_CTRL_STRM_EN h 0))
    s.onDev fun d => d.each (List.range 16) fun d h => d.setF F.HBM_CTRL_STRM_EN h (en.getD h 0)
  else if kind = 7 then s.onDev fun d => { d with boot := { d.boot with policy := some img } }
  else s

/-- Sections loaded: those of the kind, none for KIND 8 (Table 16-12). -/
def Manifest.reloadCount (m : Manifest) (kind : Nat) (ls : List Nat) : Nat := if kind = 8 then 0 else (m.inside kind ls).length

/-- The POLICY of a REGION_RELOAD comes into force at the next tick (Table 16-12): the fields of Table 16-5 and the registers of LNK,
CMD, NWT and PWR. -/
def State.policyIn (s : State) : State :=
  match s.dev.boot.policy with
  | none => s
  | some img =>
    let s := s.each (img.regs.filter fun x => match s.dev.portPlace 250 x.addr.toNat with
      | .reg blk _ _ => [7, 9, 15, 17].contains blk
      | _ => false) (State.loadReg 250)
    s.onDev fun d => ({ d with boot := { d.boot with policy := none } } : Dev).loadPolicy img

/-- ESTIMATION_TICK. In Off there is none (R603). -/
def execEstimationTick (m : TickMeas) (s : State) : Host.Outcome State Fault Refusal :=
  if s.dev.pstate = 4 || !s.dev.tickDue then s.done s else s.policyIn.updLost fun d => d.estTick m

/-- REGION_RELOAD (R543): `img` holds the sections of the copy that it names. -/
def execRegionReload (seq : BitVec 64) (img : Image) (check : CopyCheck) (drainStatus : BitVec 3) (s : State) :
    Host.Outcome State Fault Refusal :=
  match s.dev.running seq.toNat 0x20 with
  | none => s.done s
  | some c =>
    let e := c.entry
    match s.reloadBad e img check with
    | some st => s.done (s.onDev fun d => ((d.complete seq.toNat st 0 0).raise (evU bBSQ 0) 6 1 0).bootDom)
    | none =>
      let kind := rrKind e
      let ls := rrRange e
      let s' := s.reloadApply img kind ls (rrRoot e) drainStatus.toNat
      s.done (s'.onDev fun d =>
        let new := match d.boot.image with
          | some old => mergeImage old img kind ls
          | none => img
        let m := manifestOf s.flash (rrCopy e)
        let d := d.adopt m new (rrCopy e) d.boot.n
        (d.complete seq.toNat 0 (m.reloadCount kind ls) (if kind = 3 then drainStatus.toNat else 0)).bootDom)

end Sys2Proof.Machine
end

