-- ==== Sys2Proof/Machine/I3C.lean ====
section
/-! DEFINITION. The I3C target (spec/20_pins_and_ratings.md R617, R619, R620): addressing, its common command codes, and
register reads. -/

namespace Sys2Proof.Machine

/-- Change the I3C target. -/
def Dev.modI3c (d : Dev) (f : I3cS → I3cS) : Dev := { d with i3c := f d.i3c }

/-- The n bytes of a number, most significant first, as the bus carries them. -/
def beBytes (n v : Nat) : List Byte := (leBytes n v).reverse

/-- The provisional ID: manufacturer 0x3A5 in bits [47:33], part 0x0F16 in bits [31:16], the low 16 bits of the serial number
(Table 20-5; the places are those of MIPI I3C Basic, assumption 45). -/
def i3cPid : Nat := 0x3A5 * 2 ^ 33 + 0x0F16 * 65536 + idWord 0 % 65536

/-- The target answers a command code only at its dynamic address. -/
def Dev.i3cSay (d : Dev) (bs : List Byte) : Dev := if d.i3c.addr.isSome then d.emit (.i3c bs) else d

/-! Register reads (R620). -/

/-- The domain of a register, for a read by the port: BSQ and SEC lie in boot and security, UCI in the UCIe domain. -/
def i3cDomain (blk inst : Nat) : Option Nat :=
  if blk = 8 then some domUci else if blk = 12 || blk = 13 then some domBoot else regDomain blk inst

/-- Status 0 OK, 1 ADDRESS, 2 ASLEEP of a read of 8 B at an address. -/
def Dev.i3cStatus1 (d : Dev) (a : Nat) : Nat :=
  if 0x10000000 ≤ a && a < 0x21000000 then
    match d.cmdPlace a with
    | .reg blk inst _ => match i3cDomain blk inst with
      | some n => if (d.dom n).level = 0 && (d.dom n).entering.isNone then 0 else 2
      | none => 0
    | .resv => 0
    | _ => 1
  else 1

/-- The status of a read of n words from an address. -/
def Dev.i3cStatus (d : Dev) (a n : Nat) : Nat :=
  let xs := (List.range n).map fun i => d.i3cStatus1 (a + 8 * i)
  if xs.any (· == 1) then 1 else if xs.any (· == 2) then 2 else 0

/-- The value of the register at an address, without a side effect. -/
def Dev.i3cWord (d : Dev) (a : Nat) : Nat :=
  match d.cmdPlace a with
  | .reg blk inst off => match findReg blk off with
    | some (r, i) => d.regVal blk inst r i
    | none => 0
  | _ => 0

/-- I3C_PRIVATE_WRITE: 8 B set up a read (R620). The setup holds the status found, the address, the number of words and the
NT from which data is ready. A write of another length sets nothing up. -/
def execI3cPrivateWrite (data : List Byte) (s : State) : Host.Outcome State Fault Refusal :=
  s.upd fun d =>
    if d.i3c.addr.isNone || data.length ≠ 8 || data.length > d.i3c.mwl then d
    else
      let a := leAt data 1 6
      let n := leAt data 7 1 + 1
      let st := if leAt data 0 1 ≠ 1 || a % 8 ≠ 0 || n > 8 then 1 else d.i3cStatus a n
      d.modI3c fun x => { x with setup := some (st, a, n, d.now + 50000) }

/-- I3C_PRIVATE_READ: a status byte and then the data; BUSY before the data is ready (assumption 46). RC fields keep their
values. -/
def execI3cPrivateRead (s : State) : Host.Outcome State Fault Refusal :=
  s.upd fun d =>
    match d.i3c.setup with
    | none => d
    | some (st, a, n, at_) =>
      if d.now < at_ then d.i3cSay [3]
      else
        let data := if st = 0 then (List.range n).flatMap fun i => leBytes 8 (d.i3cWord (a + 8 * i)) else []
        (d.i3cSay ((leBytes 1 st ++ data).take d.i3c.mrl)).modI3c fun x => { x with setup := none }

/-- I3C_SCL_TIMEOUT: SCL low for 1 ms resets the target logic (R617). -/
def execI3cSclTimeout (s : State) : Host.Outcome State Fault Refusal := s.upd fun d => d.modI3c fun _ => I3cS.init

/-! Addressing (R619). -/

/-- ENTDAA: a target without a dynamic address sends its ID, BCR and DCR and takes the address. In Off the port floats (R613). -/
def execEntdaa (addr : BitVec 7) (s : State) : Host.Outcome State Fault Refusal :=
  s.upd fun d =>
    if d.i3c.addr.isSome || d.pstate = 4 then d
    else (d.emit (.i3c (beBytes 6 i3cPid ++ [0x06, 0x00]))).modI3c fun x => { x with addr := some addr.toNat }

/-- SETDASA: the target of static address 0x4C takes the address. -/
def execSetdasa (static addr : BitVec 7) (s : State) : Host.Outcome State Fault Refusal :=
  s.upd fun d =>
    if static.toNat = 0x4C && d.i3c.addr.isNone && d.pstate ≠ 4 then d.modI3c fun x => { x with addr := some addr.toNat } else d

/-- RSTDAA: the dynamic address is forgotten. -/
def execRstdaa (s : State) : Host.Outcome State Fault Refusal := s.upd fun d => d.modI3c fun x => { x with addr := none }

/-- ENEC: bit 0 enables in-band interrupts. -/
def execEnec (events : BitVec 8) (s : State) : Host.Outcome State Fault Refusal :=
  s.upd fun d => if bitOf events.toNat 0 then d.modI3c fun x => { x with ibi := true } else d

/-- DISEC: bit 0 disables in-band interrupts. -/
def execDisec (events : BitVec 8) (s : State) : Host.Outcome State Fault Refusal :=
  s.upd fun d => if bitOf events.toNat 0 then d.modI3c fun x => { x with ibi := false } else d

/-! Characteristics (R619). -/

/-- GETPID. -/
def execGetpid (s : State) : Host.Outcome State Fault Refusal := s.upd fun d => d.i3cSay (beBytes 6 i3cPid)

/-- GETBCR. -/
def execGetbcr (s : State) : Host.Outcome State Fault Refusal := s.upd fun d => d.i3cSay [0x06]

/-- GETDCR. -/
def execGetdcr (s : State) : Host.Outcome State Fault Refusal := s.upd fun d => d.i3cSay [0x00]

/-- GETSTATUS: two bytes, whose contents the manual does not give: a free value. -/
def execGetstatus (s : State) : Host.Outcome State Fault Refusal :=
  s.upd fun d => (d.i3cSay (leBytes 2 d.free.toNat)).took

/-- GETMRL: the maximum read length, and the one byte of an in-band interrupt's payload (assumption 45). -/
def execGetmrl (s : State) : Host.Outcome State Fault Refusal := s.upd fun d => d.i3cSay (beBytes 2 d.i3c.mrl ++ [1])

/-- SETMRL. -/
def execSetmrl (v : BitVec 16) (s : State) : Host.Outcome State Fault Refusal :=
  s.upd fun d => d.modI3c fun x => { x with mrl := v.toNat }

/-- GETMWL. -/
def execGetmwl (s : State) : Host.Outcome State Fault Refusal := s.upd fun d => d.i3cSay (beBytes 2 d.i3c.mwl)

/-- SETMWL. -/
def execSetmwl (v : BitVec 16) (s : State) : Host.Outcome State Fault Refusal :=
  s.upd fun d => d.modI3c fun x => { x with mwl := v.toNat }

end Sys2Proof.Machine
end

