-- ==== Sys2Proof/Machine/Dispatch.lean ====
section
/-! DEFINITION. The dispatch of a command to its meaning: one arm per row of spec/opcode_table.json, in its order. -/

namespace Sys2Proof.Machine

/-- The effect of a command on everything but the queue. -/
def exec (i : Instr) (s : State) : Host.Outcome State Fault Refusal :=
  match i with
  | .registerWrite addr eight v => Sys2Proof.Machine.execRegisterWrite addr eight v s
  | .rcRegisterRead addr eight => Sys2Proof.Machine.execRcRegisterRead addr eight s
  | .fabricPgFall f => Sys2Proof.Machine.execFabricPgFall f s
  | .fabricPgRise f => Sys2Proof.Machine.execFabricPgRise f s
  | .hallwayWireTest f h => Sys2Proof.Machine.execHallwayWireTest f h s
  | .wireTestEnd f h found => Sys2Proof.Machine.execWireTestEnd f h found s
  | .apply f h => Sys2Proof.Machine.execApply f h s
  | .hwTest f h => Sys2Proof.Machine.execHwTest f h s
  | .quiesce f h v => Sys2Proof.Machine.execQuiesce f h v s
  | .hold f h v => Sys2Proof.Machine.execHold f h v s
  | .run c => Sys2Proof.Machine.execRun c s
  | .halt c => Sys2Proof.Machine.execHalt c s
  | .step c => Sys2Proof.Machine.execStep c s
  | .cubeRetired c v => Sys2Proof.Machine.execCubeRetired c v s
  | .nop c g => Sys2Proof.Machine.execNop c g s
  | .end_ c g => Sys2Proof.Machine.execEnd c g s
  | .br c g tgt => Sys2Proof.Machine.execBr c g tgt s
  | .loop c g lc tgt => Sys2Proof.Machine.execLoop c g lc tgt s
  | .lset c g lc src sa imm => Sys2Proof.Machine.execLset c g lc src sa imm s
  | .pset c g pd cmp sa imf sb imm => Sys2Proof.Machine.execPset c g pd cmp sa imf sb imm s
  | .plog c g pd pa pb op => Sys2Proof.Machine.execPlog c g pd pa pb op s
  | .salu c g sd sa sb op => Sys2Proof.Machine.execSalu c g sd sa sb op s
  | .salui c g sd sa op imm => Sys2Proof.Machine.execSalui c g sd sa op imm s
  | .sli c g sd imm => Sys2Proof.Machine.execSli c g sd imm s
  | .qrd c g sd q w pop => Sys2Proof.Machine.execQrd c g sd q w pop s
  | .dadd c g dd imf sa imm => Sys2Proof.Machine.execDadd c g dd imf sa imm s
  | .semWait c g scope idx vs sv val => Sys2Proof.Machine.execSemWait c g scope idx vs sv val s
  | .semAdd c g scope idx vs sv val => Sys2Proof.Machine.execSemAdd c g scope idx vs sv val s
  | .semSub c g scope idx vs sv val => Sys2Proof.Machine.execSemSub c g scope idx vs sv val s
  | .fenceLocal c g eng => Sys2Proof.Machine.execFenceLocal c g eng s
  | .fenceOutbound c g eng => Sys2Proof.Machine.execFenceOutbound c g eng s
  | .fenceFull c g eng => Sys2Proof.Machine.execFenceFull c g eng s
  | .route c g mode => Sys2Proof.Machine.execRoute c g mode s
  | .phase c g ph => Sys2Proof.Machine.execPhase c g ph s
  | .sleep c g lvl exp => Sys2Proof.Machine.execSleep c g lvl exp s
  | .mov c g y ds dd => Sys2Proof.Machine.execMov c g y ds dd s
  | .recv c g y q dd drop => Sys2Proof.Machine.execRecv c g y q dd drop s
  | .send c g y ds chan sig sign sten sreg => Sys2Proof.Machine.execSend c g y ds chan sig sign sten sreg s
  | .cstArm c g y slot count chan => Sys2Proof.Machine.execCstArm c g y slot count chan s
  | .cstAdd c g y ds clu slot => Sys2Proof.Machine.execCstAdd c g y ds clu slot s
  | .sld c g y sr sa off => Sys2Proof.Machine.execSld c g y sr sa off s
  | .sst c g y sr sa off => Sys2Proof.Machine.execSst c g y sr sa off s
  | .dld c g y sr sa dd off => Sys2Proof.Machine.execDld c g y sr sa dd off s
  | .cube c g y da dw dp acc => Sys2Proof.Machine.execCube c g y da dw dp acc s
  | .dot c g y da dw dp acc => Sys2Proof.Machine.execDot c g y da dw dp acc s
  | .vop c g y fn da db dc dd bs => Sys2Proof.Machine.execVop c g y fn da db dc dd bs s
  | .vred c g y rfn da sd => Sys2Proof.Machine.execVred c g y rfn da sd s
  | .cvt c g y ds dd db ben ss sen sc cen rnd de een => Sys2Proof.Machine.execCvt c g y ds dd db ben ss sen sc cen rnd de een s
  | .chk c g y cfn da db pd sd => Sys2Proof.Machine.execChk c g y cfn da db pd sd s
  | .issueResume c => Sys2Proof.Machine.execIssueResume c s
  | .engineWordStart c q => Sys2Proof.Machine.execEngineWordStart c q s
  | .engineWordComplete c q => Sys2Proof.Machine.execEngineWordComplete c q s
  | .routeRequest site body => Sys2Proof.Machine.execRouteRequest site body s
  | .predictRequest site body => Sys2Proof.Machine.execPredictRequest site body s
  | .predictRecord body => Sys2Proof.Machine.execPredictRecord body s
  | .routeRecord body => Sys2Proof.Machine.execRouteRecord body s
  | .skipRecord body => Sys2Proof.Machine.execSkipRecord body s
  | .trnHoldExpiry layer token expert => Sys2Proof.Machine.execTrnHoldExpiry layer token expert s
  | .slotWaitEnd expert => Sys2Proof.Machine.execSlotWaitEnd expert s
  | .trnSlotWait => Sys2Proof.Machine.execTrnSlotWait s
  | .trnTblData v => Sys2Proof.Machine.execTrnTblData v s
  | .select site body => Sys2Proof.Machine.execSelect site body s
  | .update site body => Sys2Proof.Machine.execUpdate site body s
  | .rollback site body => Sys2Proof.Machine.execRollback site body s
  | .draft site body => Sys2Proof.Machine.execDraft site body s
  | .norm site body => Sys2Proof.Machine.execNorm site body s
  | .mass site body => Sys2Proof.Machine.execMass site body s
  | .token site body => Sys2Proof.Machine.execToken site body s
  | .asuTimeout site => Sys2Proof.Machine.execAsuTimeout site s
  | .cluAsuState site v => Sys2Proof.Machine.execCluAsuState site v s
  | .thrMax site v => Sys2Proof.Machine.execThrMax site v s
  | .zskPinned site => Sys2Proof.Machine.execZskPinned site s
  | .packetForward site port p fate => Sys2Proof.Machine.execPacketForward site port p fate s
  | .linkPauseEnd site port => Sys2Proof.Machine.execLinkPauseEnd site port s
  | .circuitFlit site port slot f => Sys2Proof.Machine.execCircuitFlit site port slot f s
  | .tagFree site port => Sys2Proof.Machine.execTagFree site port s
  | .write p => Sys2Proof.Machine.execWrite p s
  | .writeAck p => Sys2Proof.Machine.execWriteAck p s
  | .readReq p => Sys2Proof.Machine.execReadReq p s
  | .readResp p => Sys2Proof.Machine.execReadResp p s
  | .msg p => Sys2Proof.Machine.execMsg p s
  | .ack p => Sys2Proof.Machine.execAck p s
  | .testPacket p => Sys2Proof.Machine.execTestPacket p s
  | .fabTimeout site port tag => Sys2Proof.Machine.execFabTimeout site port tag s
  | .vcStall site port => Sys2Proof.Machine.execVcStall site port s
  | .fabCtrl site v => Sys2Proof.Machine.execFabCtrl site v s
  | .fabTblData site v => Sys2Proof.Machine.execFabTblData site v s
  | .teardownDone site idx => Sys2Proof.Machine.execTeardownDone site idx s
  | .drainStart site => Sys2Proof.Machine.execDrainStart site s
  | .drainWaveReturn root => Sys2Proof.Machine.execDrainWaveReturn root s
  | .drainGapExpiry root => Sys2Proof.Machine.execDrainGapExpiry root s
  | .retireWaveReturn root => Sys2Proof.Machine.execRetireWaveReturn root s
  | .drainWaveTimeout root => Sys2Proof.Machine.execDrainWaveTimeout root s
  | .cluMeshCtrl site order => Sys2Proof.Machine.execCluMeshCtrl site order s
  | .cisternRearm site slot => Sys2Proof.Machine.execCisternRearm site slot s
  | .creditMessage p => Sys2Proof.Machine.execCreditMessage p s
  | .creditRequest p => Sys2Proof.Machine.execCreditRequest p s
  | .creditWaitTimer c => Sys2Proof.Machine.execCreditWaitTimer c s
  | .ringWaitEnd site ring => Sys2Proof.Machine.execRingWaitEnd site ring s
  | .ringWaitTimeout site ring => Sys2Proof.Machine.execRingWaitTimeout site ring s
  | .queueReset c q => Sys2Proof.Machine.execQueueReset c q s
  | .queueClose c q => Sys2Proof.Machine.execQueueClose c q s
  | .clusterRingReset site ring => Sys2Proof.Machine.execClusterRingReset site ring s
  | .clusterRingClose site ring => Sys2Proof.Machine.execClusterRingClose site ring s
  | .pop site ring => Sys2Proof.Machine.execPop site ring s
  | .waitTmo c waiter => Sys2Proof.Machine.execWaitTmo c waiter s
  | .freqFallDeadline site => Sys2Proof.Machine.execFreqFallDeadline site s
  | .hbmRefresh h ch bank temp => Sys2Proof.Machine.execHbmRefresh h ch bank temp s
  | .hbmScrub h x => Sys2Proof.Machine.execHbmScrub h x s
  | .maintenanceStep h ch => Sys2Proof.Machine.execMaintenanceStep h ch s
  | .hbmSpareStart h lch share => Sys2Proof.Machine.execHbmSpareStart h lch share s
  | .spareCopyDone h => Sys2Proof.Machine.execSpareCopyDone h s
  | .hbmOffline h v => Sys2Proof.Machine.execHbmOffline h v s
  | .hbmRetrain h => Sys2Proof.Machine.execHbmRetrain h s
  | .hbmRetrainDone h => Sys2Proof.Machine.execHbmRetrainDone h s
  | .streamRequest h desc slot => Sys2Proof.Machine.execStreamRequest h desc slot s
  | .streamStart h => Sys2Proof.Machine.execStreamStart h s
  | .streamFaceDone h half => Sys2Proof.Machine.execStreamFaceDone h half s
  | .hbmStgFree h face buf => Sys2Proof.Machine.execHbmStgFree h face buf s
  | .hbmStgWait h => Sys2Proof.Machine.execHbmStgWait h s
  | .hbmFaceOut h face => Sys2Proof.Machine.execHbmFaceOut h face s
  | .celScrub ch x => Sys2Proof.Machine.execCelScrub ch x s
  | .celSoftPpr q => Sys2Proof.Machine.execCelSoftPpr q s
  | .celChFail ch => Sys2Proof.Machine.execCelChFail ch s
  | .hppr ch => Sys2Proof.Machine.execHppr ch s
  | .celOffline ch v => Sys2Proof.Machine.execCelOffline ch v s
  | .celRetrain ch => Sys2Proof.Machine.execCelRetrain ch s
  | .sillFlit f => Sys2Proof.Machine.execSillFlit f s
  | .wr r => Sys2Proof.Machine.execWr r s
  | .rd r => Sys2Proof.Machine.execRd r s
  | .cpl r data => Sys2Proof.Machine.execCpl r data s
  | .cple r status => Sys2Proof.Machine.execCple r status s
  | .hostReadTimeout tag => Sys2Proof.Machine.execHostReadTimeout tag s
  | .wake => Sys2Proof.Machine.execWake s
  | .warmReset img t => Sys2Proof.Machine.execWarmReset img t s
  | .sidebandRegisterAccess write addr eight v => Sys2Proof.Machine.execSidebandRegisterAccess write addr eight v s
  | .uciModuleDown x => Sys2Proof.Machine.execUciModuleDown x s
  | .uciRetrain m => Sys2Proof.Machine.execUciRetrain m s
  | .uciDisable m v => Sys2Proof.Machine.execUciDisable m v s
  | .commandEntryExamine => Sys2Proof.Machine.execCommandEntryExamine s
  | .commandAccept => Sys2Proof.Machine.execCommandAccept s
  | .commandStart seq => Sys2Proof.Machine.execCommandStart seq s
  | .commandDeadline seq => Sys2Proof.Machine.execCommandDeadline seq s
  | .cmdNop seq => Sys2Proof.Machine.execCmdNop seq s
  | .sessionOpen seq => Sys2Proof.Machine.execSessionOpen seq s
  | .sessionClose seq => Sys2Proof.Machine.execSessionClose seq s
  | .prefill seq => Sys2Proof.Machine.execPrefill seq s
  | .decode seq => Sys2Proof.Machine.execDecode seq s
  | .cancel seq => Sys2Proof.Machine.execCancel seq s
  | .snapshot seq => Sys2Proof.Machine.execSnapshot seq s
  | .restore seq => Sys2Proof.Machine.execRestore seq s
  | .copy seq => Sys2Proof.Machine.execCopy seq s
  | .regionReload seq img check drainStatus => Sys2Proof.Machine.execRegionReload seq img check drainStatus s
  | .test seq cores clusters ldos => Sys2Proof.Machine.execTest seq cores clusters ldos s
  | .powerPref seq => Sys2Proof.Machine.execPowerPref seq s
  | .stepPermit => Sys2Proof.Machine.execStepPermit s
  | .stepRecord body => Sys2Proof.Machine.execStepRecord body s
  | .tokenRecord => Sys2Proof.Machine.execTokenRecord s
  | .ringReset => Sys2Proof.Machine.execRingReset s
  | .en v => Sys2Proof.Machine.execEn v s
  | .pause v => Sys2Proof.Machine.execPause v s
  | .cmdHringHead ring v => Sys2Proof.Machine.execCmdHringHead ring v s
  | .hostRingReset ring => Sys2Proof.Machine.execHostRingReset ring s
  | .jnlMirrorLag => Sys2Proof.Machine.execJnlMirrorLag s
  | .linkBlock l b => Sys2Proof.Machine.execLinkBlock l b s
  | .ackItem l nak bsn credits => Sys2Proof.Machine.execAckItem l nak bsn credits s
  | .nakResendTimer l => Sys2Proof.Machine.execNakResendTimer l s
  | .ackSendTimer l => Sys2Proof.Machine.execAckSendTimer l s
  | .fastRetrain l => Sys2Proof.Machine.execFastRetrain l s
  | .fastRetrainEnd l ok goodLanes => Sys2Proof.Machine.execFastRetrainEnd l ok goodLanes s
  | .linkRetrain l => Sys2Proof.Machine.execLinkRetrain l s
  | .laneSwap l pos => Sys2Proof.Machine.execLaneSwap l pos s
  | .laneRequest l pos phys => Sys2Proof.Machine.execLaneRequest l pos phys s
  | .laneGrant l pos phys bsn => Sys2Proof.Machine.execLaneGrant l pos phys bsn s
  | .laneRetrainDone l lane good => Sys2Proof.Machine.execLaneRetrainDone l lane good s
  | .retrainLane l lane => Sys2Proof.Machine.execRetrainLane l lane s
  | .spanForward l p => Sys2Proof.Machine.execSpanForward l p s
  | .linkSleep l => Sys2Proof.Machine.execLinkSleep l s
  | .wakePattern quad => Sys2Proof.Machine.execWakePattern quad s
  | .wakePatternRepeat l => Sys2Proof.Machine.execWakePatternRepeat l s
  | .spuriousWake quad => Sys2Proof.Machine.execSpuriousWake quad s
  | .beat l item => Sys2Proof.Machine.execBeat l item s
  | .beatTimer => Sys2Proof.Machine.execBeatTimer s
  | .hbtInPulse width => Sys2Proof.Machine.execHbtInPulse width s
  | .ageCheck => Sys2Proof.Machine.execAgeCheck s
  | .joinWaitExpiry => Sys2Proof.Machine.execJoinWaitExpiry s
  | .mlinkTmo => Sys2Proof.Machine.execMlinkTmo s
  | .mack l mseq => Sys2Proof.Machine.execMack l mseq s
  | .mirrorWrite mseq addr data => Sys2Proof.Machine.execMirrorWrite mseq addr data s
  | .mirrorJournal mseq entry => Sys2Proof.Machine.execMirrorJournal mseq entry s
  | .mirrorStep mseq session body => Sys2Proof.Machine.execMirrorStep mseq session body s
  | .mirrorSession mseq session body => Sys2Proof.Machine.execMirrorSession mseq session body s
  | .mirrorCommand mseq session body => Sys2Proof.Machine.execMirrorCommand mseq session body s
  | .mseqGap => Sys2Proof.Machine.execMseqGap s
  | .resyncRequest l term => Sys2Proof.Machine.execResyncRequest l term s
  | .resyncStart l term => Sys2Proof.Machine.execResyncStart l term s
  | .resyncDone l term => Sys2Proof.Machine.execResyncDone l term s
  | .resyncNoStart => Sys2Proof.Machine.execResyncNoStart s
  | .pairFence => Sys2Proof.Machine.execPairFence s
  | .join => Sys2Proof.Machine.execJoin s
  | .solo => Sys2Proof.Machine.execSolo s
  | .railLoss rail => Sys2Proof.Machine.execRailLoss rail s
  | .fieldLoss f => Sys2Proof.Machine.execFieldLoss f s
  | .avsStatusAlert f answered => Sys2Proof.Machine.execAvsStatusAlert f answered s
  | .phaseStatusRead f answered good => Sys2Proof.Machine.execPhaseStatusRead f answered good s
  | .fscFrame f vmin ifwd received crcOk => Sys2Proof.Machine.execFscFrame f vmin ifwd received crcOk s
  | .ldoFail site cause => Sys2Proof.Machine.execLdoFail site cause s
  | .fabldoFail f ldo1 => Sys2Proof.Machine.execFabldoFail f ldo1 s
  | .powerUpRequest f row col => Sys2Proof.Machine.execPowerUpRequest f row col s
  | .throttleEnd f => Sys2Proof.Machine.execThrottleEnd f s
  | .estimationTick m => Sys2Proof.Machine.execEstimationTick m s
  | .rampSlot => Sys2Proof.Machine.execRampSlot s
  | .fieldGainUpdate f milliamps answered => Sys2Proof.Machine.execFieldGainUpdate f milliamps answered s
  | .capSelStable v => Sys2Proof.Machine.execCapSelStable v s
  | .swCap v => Sys2Proof.Machine.execSwCap v s
  | .curtailAssert => Sys2Proof.Machine.execCurtailAssert s
  | .curtailRelease => Sys2Proof.Machine.execCurtailRelease s
  | .curtailPersist => Sys2Proof.Machine.execCurtailPersist s
  | .floorShort => Sys2Proof.Machine.execFloorShort s
  | .pwrInfeasible rank => Sys2Proof.Machine.execPwrInfeasible rank s
  | .activityRamp f k => Sys2Proof.Machine.execActivityRamp f k s
  | .thermtrip f => Sys2Proof.Machine.execThermtrip f s
  | .target v => Sys2Proof.Machine.execTarget v s
  | .domainEntry dom level => Sys2Proof.Machine.execDomainEntry dom level s
  | .domainEntryComplete dom => Sys2Proof.Machine.execDomainEntryComplete dom s
  | .domainExit dom => Sys2Proof.Machine.execDomainExit dom s
  | .firstAccess dom => Sys2Proof.Machine.execFirstAccess dom s
  | .wakeN => Sys2Proof.Machine.execWakeN s
  | .wakeAlarm => Sys2Proof.Machine.execWakeAlarm s
  | .wakeFail dom => Sys2Proof.Machine.execWakeFail dom s
  | .wakeSlow => Sys2Proof.Machine.execWakeSlow s
  | .wakePinStuck => Sys2Proof.Machine.execWakePinStuck s
  | .pllFail f pll1 => Sys2Proof.Machine.execPllFail f pll1 s
  | .refLoss => Sys2Proof.Machine.execRefLoss s
  | .refclkRestore => Sys2Proof.Machine.execRefclkRestore s
  | .oscTrim => Sys2Proof.Machine.execOscTrim s
  | .beacon => Sys2Proof.Machine.execBeacon s
  | .tbLost f => Sys2Proof.Machine.execTbLost f s
  | .droop c cycles => Sys2Proof.Machine.execDroop c cycles s
  | .clkFail c => Sys2Proof.Machine.execClkFail c s
  | .sync m => Sys2Proof.Machine.execSync m s
  | .followUp m => Sys2Proof.Machine.execFollowUp m s
  | .delayResp m => Sys2Proof.Machine.execDelayResp m s
  | .announce m => Sys2Proof.Machine.execAnnounce m s
  | .delayReq t3 => Sys2Proof.Machine.execDelayReq t3 s
  | .sourceLoss => Sys2Proof.Machine.execSourceLoss s
  | .ppsInEdge => Sys2Proof.Machine.execPpsInEdge s
  | .ppsInvalid => Sys2Proof.Machine.execPpsInvalid s
  | .ppsOut => Sys2Proof.Machine.execPpsOut s
  | .timNt => Sys2Proof.Machine.execTimNt s
  | .coldStart img t => Sys2Proof.Machine.execColdStart img t s
  | .bsqWarm img t => Sys2Proof.Machine.execBsqWarm img t s
  | .fieldLossRestart img t => Sys2Proof.Machine.execFieldLossRestart img t s
  | .resetN low => Sys2Proof.Machine.execResetN low s
  | .railQualified => Sys2Proof.Machine.execRailQualified s
  | .commit => Sys2Proof.Machine.execCommit s
  | .attGo => Sys2Proof.Machine.execAttGo s
  | .nvmRead dev addr => Sys2Proof.Machine.execNvmRead dev addr s
  | .nvmProgram dev addr => Sys2Proof.Machine.execNvmProgram dev addr s
  | .nvmErase dev addr => Sys2Proof.Machine.execNvmErase dev addr s
  | .nvmTimeout => Sys2Proof.Machine.execNvmTimeout s
  | .eventOccurrence unit cls cause detail by_ => Sys2Proof.Machine.execEventOccurrence unit cls cause detail by_ s
  | .eventMessage unit seq => Sys2Proof.Machine.execEventMessage unit seq s
  | .eventRetry unit seq => Sys2Proof.Machine.execEventRetry unit seq s
  | .evtAck unit cls => Sys2Proof.Machine.execEvtAck unit cls s
  | .ackAll unit => Sys2Proof.Machine.execAckAll unit s
  | .swapRequest cluster lclu lcore nofuse => Sys2Proof.Machine.execSwapRequest cluster lclu lcore nofuse s
  | .liveSwapPrecopy rewritten => Sys2Proof.Machine.execLiveSwapPrecopy rewritten s
  | .windowOpen sectionsOk => Sys2Proof.Machine.execWindowOpen sectionsOk s
  | .haltWaitExpiry => Sys2Proof.Machine.execHaltWaitExpiry s
  | .fuseUpdate => Sys2Proof.Machine.execFuseUpdate s
  | .cluRedirect site => Sys2Proof.Machine.execCluRedirect site s
  | .skinkVisit u r passes ageCode hits => Sys2Proof.Machine.execSkinkVisit u r passes ageCode hits s
  | .skinkYield ns late => Sys2Proof.Machine.execSkinkYield ns late s
  | .cadenceMiss c => Sys2Proof.Machine.execCadenceMiss c s
  | .observationVisit c r passes => Sys2Proof.Machine.execObservationVisit c r passes s
  | .i3cPrivateWrite data => Sys2Proof.Machine.execI3cPrivateWrite data s
  | .i3cPrivateRead => Sys2Proof.Machine.execI3cPrivateRead s
  | .i3cSclTimeout => Sys2Proof.Machine.execI3cSclTimeout s
  | .entdaa addr => Sys2Proof.Machine.execEntdaa addr s
  | .setdasa static addr => Sys2Proof.Machine.execSetdasa static addr s
  | .rstdaa => Sys2Proof.Machine.execRstdaa s
  | .enec events => Sys2Proof.Machine.execEnec events s
  | .disec events => Sys2Proof.Machine.execDisec events s
  | .getpid => Sys2Proof.Machine.execGetpid s
  | .getbcr => Sys2Proof.Machine.execGetbcr s
  | .getdcr => Sys2Proof.Machine.execGetdcr s
  | .getstatus => Sys2Proof.Machine.execGetstatus s
  | .getmrl => Sys2Proof.Machine.execGetmrl s
  | .setmrl v => Sys2Proof.Machine.execSetmrl v s
  | .getmwl => Sys2Proof.Machine.execGetmwl s
  | .setmwl v => Sys2Proof.Machine.execSetmwl v s
  | .channelEntryWrite cluster c chan v => Sys2Proof.Machine.execChannelEntryWrite cluster c chan v s
  | .ringResetDone => Sys2Proof.Machine.execRingResetDone s
  | .celRetrainDone ch => Sys2Proof.Machine.execCelRetrainDone ch s
  | .nvmOpDone => Sys2Proof.Machine.execNvmOpDone s
  | .svnCommitDone took => Sys2Proof.Machine.execSvnCommitDone took s
  | .attReportDone sig => Sys2Proof.Machine.execAttReportDone sig s
  | .mackInterval => Sys2Proof.Machine.execMackInterval s
  | .rampWindow f => Sys2Proof.Machine.execRampWindow f s

end Sys2Proof.Machine
end

