-- ==== Sys2Proof/Safety.lean ====
section
/-! DEFINITION. The words in which claims about the block are made: what a safe step is, when two states hold the same
memories, what it means that a command answers a given state, and when a core is ready to issue a word. -/

namespace Sys2Proof.Machine

/-- Every memory of the state is in canonical form. -/
def State.Canonical (s : State) : Prop :=
  Memory.wf s.mem = true ∧ Memory.wf s.abuf = true ∧ Memory.wf s.flash = true ∧ swf 0 s.ecc = true

/-- A step is safe when the block goes on: it neither faults nor refuses. -/
def State.SafeStep (s : State) : Prop := ∃ t, step s = .next t

/-- Two states hold the same memories: every address of each memory reads the same, and so does every ECC mark. -/
def State.SameMem (t x : State) : Prop :=
  (∀ a, peek t.mem a = peek x.mem a) ∧ (∀ a, peek t.abuf a = peek x.abuf a) ∧
  (∀ a, peek t.flash a = peek x.flash a) ∧ (∀ a, sget t.ecc 0 a = sget x.ecc 0 a)

/-- An outcome is a next state with the queue of s that has the device and the memories of x. -/
def State.Gives (s : State) (o : Host.Outcome State Fault Refusal) (x : State) : Prop :=
  ∃ t, o = .next t ∧ t.pending = s.pending ∧ t.dev = x.dev ∧ t.SameMem x

/-- The four memories are the same data. -/
def State.MemKept (s t : State) : Prop := t.mem = s.mem ∧ t.abuf = s.abuf ∧ t.flash = s.flash ∧ t.ecc = s.ecc

/-- The state after n steps, if none of them stops. -/
def runSteps : Nat → State → Option State
  | 0, s => some s
  | n + 1, s =>
    match step s with
    | .next t => runSteps n t
    | _ => none

/-- The PC of a core (COR_STATUS). -/
def Dev.pc (d : Dev) (u : Nat) : Nat := d.fld F.COR_STATUS_PC u

/-- Core u would issue this word now: it issues words, the guard's predicate has no pending mark and holds, the word is
legal, and it meets no mark (R93, R101 to R103). -/
def State.Ready (s : State) (u : Nat) (g : Guard) (b : WordBody) : Prop :=
  s.dev.issues u = true ∧ (s.dev.marks u).2.2.contains g.pred.toNat = false ∧
  ((bitOf (s.dev.fld F.COR_PRED_P u) g.pred.toNat || g.pred.toNat = 0) != g.pn) = true ∧
  legalBody b = true ∧ s.dev.blocked u b = false

/-- Core u would pass over this word now: its guard does not hold (R103). -/
def State.Passes (s : State) (u : Nat) (g : Guard) : Prop :=
  s.dev.issues u = true ∧ (s.dev.marks u).2.2.contains g.pred.toNat = false ∧
  ((bitOf (s.dev.fld F.COR_PRED_P u) g.pred.toNat || g.pred.toNat = 0) != g.pn) = false

/-- A sequencer word b issues on core u: it leaves the device d, and the PC goes on at `pc` (R99, R142). -/
def State.Issues (s : State) (u : Nat) (o : Host.Outcome State Fault Refusal) (d : Dev) (b : WordBody) (pc : Nat) : Prop :=
  s.Gives o { s with dev := d.issued u b pc true false false }

/-- A word b of core u is passed over, its guard not holding: the PC goes on and the word has no effect (R103). -/
def State.PassesOver (s : State) (u : Nat) (o : Host.Outcome State Fault Refusal) (b : WordBody) : Prop :=
  s.Gives o { s with dev := s.dev.issued u b (s.dev.pc u + 1) false false false }

/-- Scalar register i of core u. -/
def Dev.sreg (d : Dev) (u i : Nat) : Nat := d.fld F.COR_SCALAR_S u i

/-- Predicate i of core u; P0 is always true (R103). -/
def Dev.predBit (d : Dev) (u i : Nat) : Bool := bitOf (d.fld F.COR_PRED_P u) i || i = 0

/-- The unit of a core operand. -/
def coreU (c : Core) : Nat := cu c.site.val c.core.val

/-- The row that issues a word on a core. -/
def rowOf (c : Core) (g : Guard) : WordBody → Instr
  | .nop => .nop c g
  | .end_ => .end_ c g
  | .br tgt => .br c g tgt
  | .loop lc tgt => .loop c g lc tgt
  | .lset lc src sa imm => .lset c g lc src sa imm
  | .pset pd cmp sa imf sb imm => .pset c g pd cmp sa imf sb imm
  | .plog pd pa pb op => .plog c g pd pa pb op
  | .salu sd sa sb op => .salu c g sd sa sb op
  | .salui sd sa op imm => .salui c g sd sa op imm
  | .sli sd imm => .sli c g sd imm
  | .qrd sd q w pop => .qrd c g sd q w pop
  | .dadd dd imf sa imm => .dadd c g dd imf sa imm
  | .sem op scope idx vs sv val =>
    if op = 0 then .semWait c g scope idx vs sv val
    else if op = 1 then .semAdd c g scope idx vs sv val else .semSub c g scope idx vs sv val
  | .fence kind eng =>
    if kind = 0 then .fenceLocal c g eng else if kind = 1 then .fenceOutbound c g eng else .fenceFull c g eng
  | .route mode => .route c g mode
  | .phase ph => .phase c g ph
  | .sleep lvl exp => .sleep c g lvl exp
  | .mov y ds dd => .mov c g y ds dd
  | .recv y q dd drop => .recv c g y q dd drop
  | .send y ds chan sig sign sten sreg => .send c g y ds chan sig sign sten sreg
  | .cstArm y slot count chan => .cstArm c g y slot count chan
  | .cstAdd y ds clu slot => .cstAdd c g y ds clu slot
  | .sld y sr sa off => .sld c g y sr sa off
  | .sst y sr sa off => .sst c g y sr sa off
  | .dld y sr sa dd off => .dld c g y sr sa dd off
  | .cube y da dw dp acc => .cube c g y da dw dp acc
  | .dot y da dw dp acc => .dot c g y da dw dp acc
  | .vop y fn da db dc dd bs => .vop c g y fn da db dc dd bs
  | .vred y rfn da sd => .vred c g y rfn da sd
  | .cvt y ds dd db ben ss sen sc cen rnd de een => .cvt c g y ds dd db ben ss sen sc cen rnd de een
  | .chk y cfn da db pd sd => .chk c g y cfn da db pd sd

/-- A packet can be served at its sink now: it is its turn, it is whole, no redirect sends it on, and its cluster, where it is for
one, is neither held by Newt nor out nor asleep (R240, R247, R580, R583). -/
def State.Serves (s : State) (p : Packet) : Prop :=
  s.dev.isNext p = true ∧ p.kill = false ∧ p.crcBad = false ∧ s.dev.redirects p = false ∧
  (toCluster p = true → s.dev.nwt.hold.contains p.dstSite.toNat = false ∧ s.dev.siteOut p.dstSite.toNat = false ∧
    s.dev.asleep p.dstSite.toNat = false)

/-- The state with a packet taken from its sink and counted as ejected there (R257). -/
def State.takenIn (s : State) (p : Packet) : State :=
  s.onDev fun d => (d.depart p.dstSite.toNat 15 p).ejected p.dstSite.toNat p

/-- The commands whose effect may reach the memories or the ECC marks: the core's words, the accesses of the fabric, of Sill and of
commands, the units that read or write CSM, HBM and the Cellar, the mirror stream, the starts and swaps that load and copy, and the
tests and ECC events. Every other command changes the device alone. -/
def mayTouchMemory : Instr → Bool
  | .registerWrite .. => true
  | .step .. => true
  | .nop .. => true
  | .end_ .. => true
  | .br .. => true
  | .loop .. => true
  | .lset .. => true
  | .pset .. => true
  | .plog .. => true
  | .salu .. => true
  | .salui .. => true
  | .sli .. => true
  | .qrd .. => true
  | .dadd .. => true
  | .semWait .. => true
  | .semAdd .. => true
  | .semSub .. => true
  | .fenceLocal .. => true
  | .fenceOutbound .. => true
  | .fenceFull .. => true
  | .route .. => true
  | .phase .. => true
  | .sleep .. => true
  | .mov .. => true
  | .recv .. => true
  | .send .. => true
  | .cstArm .. => true
  | .cstAdd .. => true
  | .sld .. => true
  | .sst .. => true
  | .dld .. => true
  | .cube .. => true
  | .dot .. => true
  | .vop .. => true
  | .vred .. => true
  | .cvt .. => true
  | .chk .. => true
  | .issueResume .. => true
  | .engineWordStart .. => true
  | .engineWordComplete .. => true
  | .select .. => true
  | .update .. => true
  | .rollback .. => true
  | .circuitFlit .. => true
  | .write .. => true
  | .writeAck .. => true
  | .readReq .. => true
  | .readResp .. => true
  | .msg .. => true
  | .ack .. => true
  | .creditMessage .. => true
  | .creditRequest .. => true
  | .testPacket .. => true
  | .fabTimeout .. => true
  | .cisternRearm .. => true
  | .ringWaitEnd .. => true
  | .pop .. => true
  | .hbmScrub .. => true
  | .streamFaceDone .. => true
  | .celScrub .. => true
  | .wr .. => true
  | .rd .. => true
  | .wake => true
  | .warmReset .. => true
  | .sidebandRegisterAccess .. => true
  | .commandStart .. => true
  | .prefill .. => true
  | .sessionOpen .. => true
  | .snapshot .. => true
  | .test .. => true
  | .restore .. => true
  | .copy .. => true
  | .regionReload .. => true
  | .linkBlock .. => true
  | .beat .. => true
  | .ageCheck => true
  | .mirrorWrite .. => true
  | .mirrorJournal .. => true
  | .mirrorStep .. => true
  | .mirrorSession .. => true
  | .mirrorCommand .. => true
  | .resyncRequest .. => true
  | .railLoss .. => true
  | .target .. => true
  | .domainEntryComplete .. => true
  | .domainExit .. => true
  | .wakeFail .. => true
  | .coldStart .. => true
  | .bsqWarm .. => true
  | .fieldLossRestart .. => true
  | .fieldLoss .. => true
  | .resetN .. => true
  | .railQualified => true
  | .liveSwapPrecopy .. => true
  | .windowOpen .. => true
  | .haltWaitExpiry => true
  | .skinkVisit .. => true
  | .observationVisit .. => true
  | .eventOccurrence .. => true
  | .nvmOpDone => true
  | _ => false

end Sys2Proof.Machine
end

