-- ==== Sys2Proof/Certificates/Slice0/Obligations.lean ====
section
/-! DEFINITION. The statements for the provers. Each docstring names the rules of spec/ that it formalises. -/

open Sys2Proof Sys2Proof.Machine

/-! The block as a whole. -/

/-- One step of a state with a command at the front of its queue is that command's effect on the state with the queue's
rest. On an empty queue one cycle of the 400 MHz master counter passes (R503; that the idle step is this tick is the model's
choice, log 1): the device's NT counter advances, nothing else changes, no command is waited for. -/
def Obligations.StepRunsTheFrontCommand : Prop :=
  (∀ (s : State) (c : Instr) (q : List Instr), step { s with pending := c :: q } = exec c { s with pending := q }) ∧
  (∀ s : State, s.pending = [] →
    ∃ t, step s = .next t ∧ t.MemKept s ∧ t.pending = [] ∧
      { t.dev with tim := s.dev.tim } = s.dev ∧ { t.dev.tim with sub := s.dev.tim.sub } = s.dev.tim ∧
      (s.dev.fld F.TIM_SERVO_FREQ_ADJ 0 = 0 → t.dev.tim.sub = s.dev.tim.sub + 100000000000))

/-- Every command answers a next state in every state, and leaves the queue as it was: no command faults or is refused. A
command that has no access to the memories leaves every byte of them and every ECC mark as they are. The model's choices in it:
log 47. -/
def Obligations.EveryCommandAnswers : Prop :=
  ∀ (c : Instr) (s : State), ∃ t, exec c s = .next t ∧ t.pending = s.pending ∧ (mayTouchMemory c = false → t.MemKept s)

/-- The memories keep their canonical form: a step of a canonical state, whatever its command, answers a canonical state. The
model's choices in it: log 13. -/
def Obligations.StepKeepsMemoriesCanonical : Prop :=
  ∀ s t : State, s.Canonical → step s = .next t → t.Canonical

/-- The memories after reset are canonical, and no command waits. The model's choices in it: log 13, 14. -/
def Obligations.ResetIsCanonical : Prop := State.reset.Canonical ∧ State.reset.pending = []

/-- A run of any length from a canonical state never stops, ends in a canonical state, and consumes one command of the queue
each step. The model's choices in it: log 1, 13, 47. -/
def Obligations.RunsAreSafe : Prop :=
  ∀ (n : Nat) (s : State), s.Canonical →
    ∃ t, runSteps n s = some t ∧ t.Canonical ∧ t.pending = s.pending.drop n

/-! Registers and fields. -/

/-- A write of a register word reads back, and every word of every other register, unit and index keeps its value: the keys of
the map's registers do not meet (Appendix A). A field that is stored reads back modulo its width, and every field of the same
word that shares no bit with it keeps its value. -/
def Obligations.RegisterWritesAreIndependent : Prop :=
  (∀ (d : Dev) (r q : Reg) (u v i j : Nat) (w : Word), r ∈ allRegs → q ∈ allRegs → u < 4194304 → v < 4194304 →
    i < 4096 → j < 4096 →
    (d.setR r u w i).getR q v j = if q = r ∧ v = u ∧ j = i then w else d.getR q v j) ∧
  (∀ (d : Dev) (f g : Fld) (u i v : Nat), f.lo + f.width ≤ 64 → g.lo + g.width ≤ 64 → g.reg = f.reg →
    (d.setF f u v i).fld f u i = v % 2 ^ f.width ∧
    (f.lo + f.width ≤ g.lo ∨ g.lo + g.width ≤ f.lo → (d.setF f u v i).fld g u i = d.fld g u i))

/-- What a write does to each bit of a plain register (R12): an RW bit takes the value written, a W1C bit is cleared by a 1,
every other bit stands. Every other register word of every unit keeps its value. -/
def Obligations.PlainWriteFollowsAccessCodes : Prop :=
  ∀ (d : Dev) (r : Reg) (u i v : Nat), r.rw < 2 ^ 64 → r.w1c < 2 ^ 64 →
    (∀ b, b < 64 → ((d.plainWrite r u i v).getR r u i).getLsbD b =
      if r.rw.testBit b then v.testBit b
      else (d.getR r u i).getLsbD b && !(r.w1c.testBit b && v.testBit b)) ∧
    (∀ (q : Reg) (w j : Nat), q.key w j ≠ r.key u i → (d.plainWrite r u i v).getR q w j = d.getR q w j)

/-- REGISTER_WRITE and RC_REGISTER_READ of a register that answers (R9 to R12): the write acts as a write of the register's
word and of nothing else; the read gives the register's value and clears its RC bits in the bytes read, and changes no
memory. An address that is no register is neither written nor read (R10). -/
def Obligations.RegisterAccessByAddress : Prop :=
  (∀ (s : State) (a : BitVec 48) (eight : Bool) (v : Word) (blk inst off : Nat),
    s.dev.place s.dev.hostMap a.toNat = .reg blk inst off → accOk off (if eight then 8 else 4) = true →
    s.dev.regWaits blk inst = [] →
    s.Gives (exec (.registerWrite a eight v) s) (s.regWrite blk inst off (if eight then 8 else 4) v.toNat)) ∧
  (∀ (s : State) (a : BitVec 48) (eight : Bool) (blk inst off : Nat),
    s.dev.place s.dev.hostMap a.toNat = .reg blk inst off → accOk off (if eight then 8 else 4) = true →
    s.dev.regWaits blk inst = [] →
    exec (.rcRegisterRead a eight) s = .next (s.onDev fun _ =>
      (s.dev.regRead blk inst off (if eight then 8 else 4)).1.emit
        (.regRead a.toNat (BitVec.ofNat 64 (s.dev.regRead blk inst off (if eight then 8 else 4)).2)))) ∧
  (∀ (s : State) (a : BitVec 48) (eight : Bool) (v : Word), s.dev.place s.dev.hostMap a.toNat = .unmapped →
    s.Gives (exec (.registerWrite a eight v) s) s ∧
    exec (.rcRegisterRead a eight) s = .next (s.onDev fun _ => s.dev.emit (.regRead a.toNat 0)))

/-! Schedule words. -/

/-- Encoding then decoding a schedule word gives it back, whatever its guard, body and operands, and a word decodes only to
what encodes to it: no bit of an encoding is dropped and no two words stand for one (R99, R101). -/
def Obligations.ScheduleWordsRoundTrip : Prop :=
  (∀ w : SWord, decodeWord (encodeWord w) = some w) ∧
  (∀ (v : BitVec 64) (w : SWord), decodeWord v = some w → encodeWord w = v)

/-- Words written out bit by bit from the manual's encodings decode to what they stand for (Tables 3-2, 3-3, 3-10 to 3-16): END,
SLI, a guarded BR, SALU, SEM ADD, MOV with WAIT, CUBE and VOP with POST; a word with a reserved bit set, and one with an
undefined opcode, decode to none (R101). -/
def Obligations.WrittenOutWordsDecode : Prop :=
  decodeWord (BitVec.ofNat 64 (0x01 * 2 ^ 58)) = some ⟨⟨false, 0⟩, .end_⟩ ∧
  decodeWord (BitVec.ofNat 64 (0x0A * 2 ^ 58 + 5 * 2 ^ 50 + 0xDEADBEEF)) = some ⟨⟨false, 0⟩, .sli 5 0xDEADBEEF⟩ ∧
  decodeWord (BitVec.ofNat 64 (0x02 * 2 ^ 58 + 1 * 2 ^ 57 + 3 * 2 ^ 54 + 0x1ABC * 2 ^ 41)) =
    some ⟨⟨true, 3⟩, .br 0x1ABC⟩ ∧
  decodeWord (BitVec.ofNat 64 (0x08 * 2 ^ 58 + 1 * 2 ^ 50 + 2 * 2 ^ 46 + 3 * 2 ^ 42 + 12 * 2 ^ 38)) =
    some ⟨⟨false, 0⟩, .salu 1 2 3 12⟩ ∧
  decodeWord (BitVec.ofNat 64 (0x14 * 2 ^ 58 + 1 * 2 ^ 52 + 1 * 2 ^ 51 + 200 * 2 ^ 43 + 7)) =
    some ⟨⟨false, 0⟩, .sem 1 true 200 false 0 7⟩ ∧
  decodeWord (BitVec.ofNat 64 (0x20 * 2 ^ 58 + 1 * 2 ^ 53 + 9 * 2 ^ 47 + 30 * 2 ^ 35 + 31 * 2 ^ 30)) =
    some ⟨⟨false, 0⟩, .mov ⟨true, 9, false, 0⟩ 30 31⟩ ∧
  decodeWord (BitVec.ofNat 64 (0x28 * 2 ^ 58 + 1 * 2 ^ 35 + 2 * 2 ^ 30 + 3 * 2 ^ 25 + 1 * 2 ^ 24)) =
    some ⟨⟨false, 0⟩, .cube ⟨false, 0, false, 0⟩ 1 2 3 true⟩ ∧
  decodeWord (BitVec.ofNat 64 (0x30 * 2 ^ 58 + 1 * 2 ^ 46 + 63 * 2 ^ 40 + 0x13 * 2 ^ 34 + 1 * 2 ^ 29 + 4 * 2 ^ 14)) =
    some ⟨⟨false, 0⟩, .vop ⟨false, 0, true, 63⟩ 0x13 1 0 0 4 false⟩ ∧
  decodeWord (BitVec.ofNat 64 (0x01 * 2 ^ 58 + 1)) = none ∧ decodeWord (BitVec.ofNat 64 (0x3F * 2 ^ 58)) = none

/-- A word whose guard does not hold issues without effect: the PC moves on, nothing is dispatched and no queue changes (R103).
Every word that a row issues, whatever its operands, illegal ones among them. -/
def Obligations.AWordWithAFalseGuardIsPassedOver : Prop :=
  ∀ (s : State) (c : Core) (g : Guard) (b : WordBody), s.Passes (coreU c) g →
    (match b with | .sem op .. => op ≠ 3 | .fence kind _ => kind ≠ 3 | _ => True) →
    s.PassesOver (coreU c) (exec (rowOf c g b) s) b ∧
    (s.dev.pc (coreU c) < 8191 → ∀ q,
      ((s.dev.issued (coreU c) b (s.dev.pc (coreU c) + 1) false false false).core (coreU c)).queue q =
        (s.dev.core (coreU c)).queue q)

/-- Branches (R130): BR jumps to TGT; LOOP jumps to TGT and decrements its counter when that is not zero, and falls through with
the counter at zero when it is; a BR or LOOP that does not execute falls through. -/
def Obligations.BranchesAndLoopsSteerThePc : Prop :=
  ∀ (s : State) (c : Core) (g : Guard) (lc : BitVec 2) (tgt : BitVec 13),
    let u := coreU c
    let d := s.dev
    (s.Ready u g (.br tgt) → s.Issues u (exec (.br c g tgt) s) d (.br tgt) tgt.toNat) ∧
    (s.Ready u g (.loop lc tgt) → d.fld F.COR_LOOP_L u lc.toNat ≠ 0 →
      s.Issues u (exec (.loop c g lc tgt) s) (d.setF F.COR_LOOP_L u (d.fld F.COR_LOOP_L u lc.toNat - 1) lc.toNat)
        (.loop lc tgt) tgt.toNat) ∧
    (s.Ready u g (.loop lc tgt) → d.fld F.COR_LOOP_L u lc.toNat = 0 →
      s.Issues u (exec (.loop c g lc tgt) s) d (.loop lc tgt) (d.pc u + 1)) ∧
    (s.Passes u g → s.PassesOver u (exec (.br c g tgt) s) (.br tgt) ∧ s.PassesOver u (exec (.loop c g lc tgt) s) (.loop lc tgt))

/-- What issuing a word changes beside the word's own effect (R142, Table 2-10): STATE, PC and STALL of the core, its count of
issued words and its sleep hint. Every other register, every other core, and everything else of the device stands. -/
def Obligations.IssueChangesOnlyTheSequencer : Prop :=
  ∀ (d : Dev) (u pc : Nat) (b : WordBody) (x : Bool), (d.core u).halting = 0 → pc ≤ 8191 →
    let e := d.issued u b pc x false false
    e.pc u = pc ∧ e.coreState u = 1 ∧
    e.fld F.COR_STALL_CNT_ISSUED u = (d.fld F.COR_STALL_CNT_ISSUED u + 1) % 2 ^ F.COR_STALL_CNT_ISSUED.width ∧
    (∀ (r : Reg) (v i : Nat), r.key v i ≠ R.COR_STATUS.key u 0 → r.key v i ≠ R.COR_SEQ_STATUS.key u 0 →
      r.key v i ≠ R.COR_STALL_CNT.key u 0 → e.getR r v i = d.getR r v i) ∧
    (∀ v, v ≠ u → e.core v = d.core v) ∧
    (e.core u).held = none ∧ (e.core u).halting = 0 ∧
    { e.core u with held := (d.core u).held, sleepHint := (d.core u).sleepHint } = d.core u ∧
    { e with regs := d.regs, cores := d.cores } = d

/-- The sequencer words that write a scalar, a predicate, a loop counter, a descriptor or a mode write exactly that, and the PC
goes on (R129, R133, R134, Table 3-16): NOP, SLI, SALU, SALUI, PSET, PLOG, LSET, DADD, ROUTE and PHASE. -/
def Obligations.RegisterWordsWriteTheirDestination : Prop :=
  ∀ (s : State) (c : Core) (g : Guard),
    let u := coreU c
    let d := s.dev
    let n := d.pc u + 1
    (s.Ready u g .nop → s.Issues u (exec (.nop c g) s) d .nop n) ∧
    (∀ sd imm, s.Ready u g (.sli sd imm) →
      s.Issues u (exec (.sli c g sd imm) s) (d.setF F.COR_SCALAR_S u imm.toNat sd.toNat) (.sli sd imm) n) ∧
    (∀ sd sa sb op, s.Ready u g (.salu sd sa sb op) →
      s.Issues u (exec (.salu c g sd sa sb op) s)
        (d.setF F.COR_SCALAR_S u (saluOp op.toNat (d.sreg u sa.toNat) (d.sreg u sb.toNat)) sd.toNat) (.salu sd sa sb op) n) ∧
    (∀ sd sa op imm, s.Ready u g (.salui sd sa op imm) →
      s.Issues u (exec (.salui c g sd sa op imm) s)
        (d.setF F.COR_SCALAR_S u (saluOp op.toNat (d.sreg u sa.toNat) imm.toNat) sd.toNat) (.salui sd sa op imm) n) ∧
    (∀ pd cmp sa imf sb imm, s.Ready u g (.pset pd cmp sa imf sb imm) →
      s.Issues u (exec (.pset c g pd cmp sa imf sb imm) s)
        (d.setPred u pd.toNat (psetCmp cmp.toNat (d.sreg u sa.toNat)
          (if imf then ofSigned 32 (toSigned 16 imm.toNat) else d.sreg u sb.toNat))) (.pset pd cmp sa imf sb imm) n) ∧
    (∀ pd pa pb op, s.Ready u g (.plog pd pa pb op) →
      let x := d.predBit u pa.toNat
      let y := d.predBit u pb.toNat
      s.Issues u (exec (.plog c g pd pa pb op) s)
        (d.setPred u pd.toNat (if op = 0 then x && y else if op = 1 then x || y else if op = 2 then x != y else x && !y))
        (.plog pd pa pb op) n) ∧
    (∀ lc src sa imm, s.Ready u g (.lset lc src sa imm) →
      s.Issues u (exec (.lset c g lc src sa imm) s)
        (d.setF F.COR_LOOP_L u (if src then d.sreg u sa.toNat % 2 ^ 20 else imm.toNat) lc.toNat) (.lset lc src sa imm) n) ∧
    (∀ dd imf sa imm, s.Ready u g (.dadd dd imf sa imm) →
      let x := (d.getR R.COR_DESC0 u dd.toNat).toNat
      let k := toSigned 32 (if imf then imm.toNat else d.sreg u sa.toNat)
      s.Issues u (exec (.dadd c g dd imf sa imm) s)
        (d.setR R.COR_DESC0 u (BitVec.ofNat 64 (putBits x 0 48 (ofSigned 48 ((bitsOf x 0 48 : Int) + k)))) dd.toNat)
        (.dadd dd imf sa imm) n) ∧
    (∀ mode, s.Ready u g (.route mode) →
      s.Issues u (exec (.route c g mode) s) (d.setF F.COR_SEQ_STATUS_EPOCH_MODE u mode.toNat) (.route mode) n) ∧
    (∀ ph, s.Ready u g (.phase ph) →
      s.Issues u (exec (.phase c g ph) s)
        ((((d.setF F.COR_SEQ_STATUS_PHASE u ph.toNat).applyFall (u / 256)).setF F.CLU_PWR_PHASE (u / 256) ph.toNat).modClu (u / 256)
          fun x => { x with phase := ph.toNat, steady := x.steady && x.phase == ph.toNat })
        (.phase ph) n)

/-- The words that steer issue (R131, R132, R135, R136, R98): END ends issue at its own PC; SLEEP sets the hint, and its level 3
ends issue; a FENCE whose condition holds, a SEM whose value serves and a QRD whose queue holds a message go on. -/
def Obligations.ControlWordsSteerIssue : Prop :=
  ∀ (s : State) (c : Core) (g : Guard),
    let u := coreU c
    let d := s.dev
    let n := d.pc u + 1
    let site := u / 256
    (s.Ready u g .end_ → s.Issues u (exec (.end_ c g) s) (d.modCore u fun x => { x with halting := 1 }) .end_ (d.pc u)) ∧
    (∀ lvl exp, s.Ready u g (.sleep lvl exp) →
      s.Issues u (exec (.sleep c g lvl exp) s)
        (if lvl = 3 then (d.setF F.COR_SEQ_STATUS_SLEEP_HINT u 3).modCore u fun x => { x with halting := 1 }
          else d.setF F.COR_SEQ_STATUS_SLEEP_HINT u lvl.toNat)
        (.sleep lvl exp) (if lvl = 3 then d.pc u else n)) ∧
    (∀ eng, s.Ready u g (.fence 0 eng) → d.engBusy u eng.toNat = false →
      s.Issues u (exec (.fenceLocal c g eng) s) d (.fence 0 eng) n) ∧
    (∀ eng, s.Ready u g (.fence 1 eng) → d.unacked u = false →
      s.Issues u (exec (.fenceOutbound c g eng) s) d (.fence 1 eng) n) ∧
    (∀ eng, s.Ready u g (.fence 2 eng) → d.engBusy u eng.toNat = false → d.unacked u = false →
      s.Issues u (exec (.fenceFull c g eng) s) d (.fence 2 eng) n) ∧
    (∀ idx vs sv val, s.Ready u g (.sem 0 true idx vs sv val) → d.semVal u vs sv.toNat val.toNat ≤ d.fld F.CLU_SEM_V site idx.toNat →
      s.Issues u (exec (.semWait c g true idx vs sv val) s) d (.sem 0 true idx vs sv val) n) ∧
    (∀ idx vs sv val, s.Ready u g (.sem 0 false idx vs sv val) → d.semVal u vs sv.toNat val.toNat ≤ d.fld F.COR_SEM_V u idx.toNat →
      s.Issues u (exec (.semWait c g false idx vs sv val) s) d (.sem 0 false idx vs sv val) n) ∧
    (∀ idx vs sv val, s.Ready u g (.sem 1 true idx vs sv val) →
      d.fld F.CLU_SEM_V site idx.toNat + d.semVal u vs sv.toNat val.toNat ≤ 0xFFFF →
      s.Issues u (exec (.semAdd c g true idx vs sv val) s)
        (d.setF F.CLU_SEM_V site (d.fld F.CLU_SEM_V site idx.toNat + d.semVal u vs sv.toNat val.toNat) idx.toNat)
        (.sem 1 true idx vs sv val) n) ∧
    (∀ idx vs sv val, s.Ready u g (.sem 1 false idx vs sv val) →
      d.fld F.COR_SEM_V u idx.toNat + d.semVal u vs sv.toNat val.toNat ≤ 0xFFFF →
      s.Issues u (exec (.semAdd c g false idx vs sv val) s)
        (d.setF F.COR_SEM_V u (d.fld F.COR_SEM_V u idx.toNat + d.semVal u vs sv.toNat val.toNat) idx.toNat)
        (.sem 1 false idx vs sv val) n) ∧
    (∀ idx vs sv val, s.Ready u g (.sem 2 true idx vs sv val) → d.semVal u vs sv.toNat val.toNat ≤ d.fld F.CLU_SEM_V site idx.toNat →
      s.Issues u (exec (.semSub c g true idx vs sv val) s)
        (d.setF F.CLU_SEM_V site (d.fld F.CLU_SEM_V site idx.toNat - d.semVal u vs sv.toNat val.toNat) idx.toNat)
        (.sem 2 true idx vs sv val) n) ∧
    (∀ idx vs sv val, s.Ready u g (.sem 2 false idx vs sv val) → d.semVal u vs sv.toNat val.toNat ≤ d.fld F.COR_SEM_V u idx.toNat →
      s.Issues u (exec (.semSub c g false idx vs sv val) s)
        (d.setF F.COR_SEM_V u (d.fld F.COR_SEM_V u idx.toNat - d.semVal u vs sv.toNat val.toNat) idx.toNat)
        (.sem 2 false idx vs sv val) n) ∧
    (∀ sd q w pop m, s.Ready u g (.qrd sd q w pop) → d.qHead u q.toNat = some m →
      let e := d.setF F.COR_SCALAR_S u (if 4 * w.toNat ≥ m.body.length then 0 else leAt m.body (4 * w.toNat) 4) sd.toNat
      s.Issues u (exec (.qrd c g sd q w pop) s) (if pop then e.qPop u q.toNat else e) (.qrd sd q w pop) n)

/-- The words that cannot go on hold issue and change nothing but the core's own status (R98, R131, R132): a SEM WAIT below its
value holds with STALL 5, a QRD on an empty queue with 6, a FENCE whose condition fails with 7, and STATE is WAITING. -/
def Obligations.UnmetWordsHoldIssue : Prop :=
  ∀ (s : State) (c : Core) (g : Guard),
    let u := coreU c
    let d := s.dev
    (∀ idx vs sv val, s.Ready u g (.sem 0 false idx vs sv val) → d.fld F.COR_SEM_V u idx.toNat < d.semVal u vs sv.toNat val.toNat →
      s.Gives (exec (.semWait c g false idx vs sv val) s)
        { s with dev := d.holdIssue u ⟨g, .sem 0 false idx vs sv val⟩ false 5 }) ∧
    (∀ sd q w pop, s.Ready u g (.qrd sd q w pop) → d.qHead u q.toNat = none →
      s.Gives (exec (.qrd c g sd q w pop) s) { s with dev := d.holdIssue u ⟨g, .qrd sd q w pop⟩ false 6 }) ∧
    (∀ eng, s.Ready u g (.fence 0 eng) → d.engBusy u eng.toNat = true →
      s.Gives (exec (.fenceLocal c g eng) s) { s with dev := d.holdIssue u ⟨g, .fence 0 eng⟩ false 7 }) ∧
    (∀ (w : SWord) (code : Nat), 5 ≤ code → code ≤ 7 →
      let e := d.holdIssue u w false code
      e.coreState u = 2 ∧ e.fld F.COR_STATUS_STALL u = code ∧ (e.core u).held = some (w, false) ∧ e.pc u = d.pc u ∧
      (∀ (r : Reg) (v i : Nat), r.key v i ≠ R.COR_STATUS.key u 0 → e.getR r v i = d.getR r v i) ∧
      (∀ v, v ≠ u → e.core v = d.core v))

/-- An engine word issues to the tail of its queue with what it captures, and the PC goes on (R91, R92): MOV, RECV, SEND,
CST_ARM, CST_ADD, SLD, SST, DLD to the M queue, CUBE and DOT to the CD queue, VOP, VRED, CVT and CHK to the V queue. Where its
queue was empty, nothing holds it and its start succeeds, it has read its operands in the same step; the word is marked started
and keeps the results that it will write when it completes (R97; the moment of the reads is the model's choice, assumption 18). A CUBE
or DOT word of a quiet cluster first asks for a ramp window, and starts where the cluster need not wait for one (R463). -/
def Obligations.EngineWordsIssueAndStart : Prop :=
  ∀ (s : State) (c : Core) (g : Guard),
    let u := coreU c
    let good (i : Instr) (b : WordBody) (q : EngQ) : Prop :=
      let s1 := s.onDev fun d => (d.dispatch u (d.pc u) q b).issued u b (d.pc u + 1) true false false
      let s2 := if isMac b then s1.onDev fun d => d.rampAsk (u / 256) else s1
      s.Ready u g b →
      (((s.dev.core u).queue q).length < 8 → ((s.dev.core u).queue q) ≠ [] →
        s.Gives (exec i s) ((s1.startHead u q).onDev fun d => d.settle u)) ∧
      (∀ (w : QWord) (t : State) (r : WordRes), ((s.dev.core u).queue q) = [] → ((s1.dev.core u).queue q) = [w] →
        (syncOf b).waitEn = false → (isMac b = true → s2.dev.rampHeld (u / 256) = false) → s2.wordStart u w = .ok t r →
        (t.dev.core u).halting = 0 →
        s.Gives (exec i s) (t.onDev fun d => (d.macTook u b).modWord u w.seq fun x =>
          { x with started := true, res := if r = WordRes.none then x.res else r }))
    (∀ y ds dd, good (.mov c g y ds dd) (.mov y ds dd) .m) ∧
    (∀ y q dd drop, good (.recv c g y q dd drop) (.recv y q dd drop) .m) ∧
    (∀ y ds chan sig sign sten sreg,
      good (.send c g y ds chan sig sign sten sreg) (.send y ds chan sig sign sten sreg) .m) ∧
    (∀ y slot count chan, good (.cstArm c g y slot count chan) (.cstArm y slot count chan) .m) ∧
    (∀ y ds clu slot, good (.cstAdd c g y ds clu slot) (.cstAdd y ds clu slot) .m) ∧
    (∀ y sr sa off, good (.sld c g y sr sa off) (.sld y sr sa off) .m) ∧
    (∀ y sr sa off, good (.sst c g y sr sa off) (.sst y sr sa off) .m) ∧
    (∀ y sr sa dd off, good (.dld c g y sr sa dd off) (.dld y sr sa dd off) .m) ∧
    (∀ y da dw dp acc, good (.cube c g y da dw dp acc) (.cube y da dw dp acc) .cd) ∧
    (∀ y da dw dp acc, good (.dot c g y da dw dp acc) (.dot y da dw dp acc) .cd) ∧
    (∀ y fn da db dc dd bs, good (.vop c g y fn da db dc dd bs) (.vop y fn da db dc dd bs) .v) ∧
    (∀ y rfn da sd, good (.vred c g y rfn da sd) (.vred y rfn da sd) .v) ∧
    (∀ y ds dd db ben ss sen sc cen rnd de een, good (.cvt c g y ds dd db ben ss sen sc cen rnd de een)
      (.cvt y ds dd db ben ss sen sc cen rnd de een) .v) ∧
    (∀ y cfn da db pd sd, good (.chk c g y cfn da db pd sd) (.chk y cfn da db pd sd) .v)

/-- What an engine word is when it is dispatched (R91, R92, R133): the next sequence number, its PC, the descriptors and the
scalars that it names as they stand, the epoch mode in force; it has not started. A later write of any register leaves it as it
is. -/
def Obligations.DispatchCapturesOperands : Prop :=
  ∀ (d : Dev) (u pc : Nat) (q : EngQ) (b : WordBody),
    ∃ w : QWord, ((d.dispatch u pc q b).core u).queue q = (d.core u).queue q ++ [w] ∧
      w.seq = (d.core u).nextSeq ∧ w.pc = pc ∧ w.body = b ∧ w.started = false ∧
      w.mode = d.fld F.COR_SEQ_STATUS_EPOCH_MODE u ∧
      w.ds = (wordDescs b).map (fun i => (d.getR R.COR_DESC0 u i).toNat + 2 ^ 64 * (d.getR R.COR_DESC1 u i).toNat) ∧
      w.ss = (wordScals b).map (fun i => d.sreg u i) ∧
      ((d.dispatch u pc q b).core u).nextSeq = (d.core u).nextSeq + 1 ∧
      (∀ p, p ≠ q → ((d.dispatch u pc q b).core u).queue p = (d.core u).queue p) ∧
      (d.dispatch u pc q b).regs = d.regs ∧
      (∀ (r : Reg) (v i : Nat) (x : Word), (((d.dispatch u pc q b).setR r v x i).core u).queue q = (d.core u).queue q ++ [w])

/-- The move words of scalars and descriptors (R119): SLD reads 4 bytes of the core's memory, SST takes the captured scalar as 4
bytes, DLD reads 16 bytes, where no word read is marked; when the word completes (R97), SLD's value stands in its scalar, SST's in
those four bytes of memory and at no other, DLD's in its descriptor. The model's choices in it: log 18. -/
def Obligations.LoadsAndStoresMoveTheirBytes : Prop :=
  ∀ (s : State) (u pc sa off : Nat),
    let a := (sa + off) % 2 ^ 21
    let rd (n : Nat) : State := s.onDev fun d => d.countCe u (s.marked u 1 [(a, n)])
    (∀ sr, lsErr a 4 = none → s.marked u 2 [(a, 4)] = [] →
      s.sldStart u sr sa off = .ok ((rd 4).onDev fun d => d.ownReadEnd u [(a, 4)])
        (WordRes.ofScal sr (leNat ((rd 4).rdRuns u 0 0 [(a, 4)])) 0)) ∧
    (∀ v, lsErr a 4 = none → s.sstStart v sa off = .ok s (WordRes.ofMem [(0, a, leBytes 4 v)])) ∧
    (∀ dd, lsErr a 16 = none → s.marked u 2 [(a, 16)] = [] →
      s.dldStart u sa dd off = .ok ((rd 16).onDev fun d => d.ownReadEnd u [(a, 16)])
        { WordRes.none with desc := [(dd, leAt ((rd 16).rdRuns u 0 0 [(a, 16)]) 0 8, leAt ((rd 16).rdRuns u 0 0 [(a, 16)]) 8 8)] }) ∧
    (∀ n, a + n ≤ 0x150000 → (rd n).rdRuns u 0 0 [(a, n)] = s.get (coreBase (u / 256) (u % 256) + a) n) ∧
    (∀ v, a + 4 ≤ 0x150000 →
      let t := s.applyRes u pc (WordRes.ofMem [(0, a, leBytes 4 v)])
      t.abuf = s.abuf ∧ t.flash = s.flash ∧ (∀ (r : Reg) (w i : Nat), t.dev.getR r w i = s.dev.getR r w i) ∧
      (∀ k, k < 4 → peek t.mem (coreBase (u / 256) (u % 256) + a + k) = BitVec.ofNat 8 (v / 256 ^ k)) ∧
      (∀ x, (∀ k, k < 4 → x ≠ coreBase (u / 256) (u % 256) + a + k) → peek t.mem x = peek s.mem x)) ∧
    (∀ sr v, sr < 16 →
      let t := s.applyRes u pc (WordRes.ofScal sr v 0)
      t.mem = s.mem ∧ t.abuf = s.abuf ∧ t.dev.sreg u sr = v % 2 ^ 32 ∧
      (∀ (r : Reg) (w i : Nat), r.key w i ≠ R.COR_SCALAR.key u sr → t.dev.getR r w i = s.dev.getR r w i)) ∧
    (∀ dd lo hi, dd < 32 →
      let t := s.applyRes u pc { WordRes.none with desc := [(dd, lo, hi)] }
      t.mem = s.mem ∧ t.abuf = s.abuf ∧ t.dev.getR R.COR_DESC0 u dd = BitVec.ofNat 64 lo ∧
      t.dev.getR R.COR_DESC1 u dd = BitVec.ofNat 64 hi ∧
      (∀ (r : Reg) (w i : Nat), r.key w i ≠ R.COR_DESC0.key u dd → r.key w i ≠ R.COR_DESC1.key u dd →
        t.dev.getR r w i = s.dev.getR r w i))

/-- The core commands of a core site in service (R139 to R141, R58, R79): RUN of a HALTED core sets the PC to ENTRY, STATE RUNNING
and opens every queue; HALT of a running core drops the words that have not started and ends issue; CUBE_RETIRED changes while
HALTED and else sets WR_REJ; STEP of a HALTED core issues the word at its PC; every other state refuses RUN. -/
def Obligations.CoreControlCommands : Prop :=
  ∀ (s : State) (c : Core),
    let u := coreU c
    let d := s.dev
    d.coreReach u = true → (d.lcoreOf u).isSome = true →
    (d.coreState u = 0 → exec (.run c) s = .next (s.onDev fun _ =>
      (((d.setF F.COR_STATUS_PC u (d.fld F.COR_CTRL_ENTRY u)).setF F.COR_STATUS_STATE u 1).setF F.COR_QCTRL_OPEN u 0xFF).modCore u
        fun x => { x with cd := [], v := [], m := [], held := none, halting := 0, sleepHint := 0 })) ∧
    (d.coreState u ≠ 0 → exec (.run c) s = .next (s.onDev fun _ => d.setF F.COR_STATUS_WR_REJ u 1)) ∧
    (1 ≤ d.coreState u → d.coreState u ≤ 3 → exec (.halt c) s = .next (s.onDev fun _ =>
      (d.modCore u fun x => { x with cd := x.cd.filter (fun w => w.started), v := x.v.filter (fun w => w.started),
                                     m := x.m.filter (fun w => w.started), held := none, halting := 2 }).settle u)) ∧
    (∀ v, d.flag F.COR_CTRL_CUBE_RETIRED u ≠ v → exec (.cubeRetired c v) s = .next (s.onDev fun _ =>
      if d.coreState u = 0 then d.setB F.COR_CTRL_CUBE_RETIRED u v else d.setF F.COR_STATUS_WR_REJ u 1)) ∧
    (∀ w : SWord, d.coreState u = 0 → d.awake u = true → s.marked u 2 [(0x140000 + 8 * d.pc u, 8)] = [] →
      decodeWord (s.fetchWord u) = some w →
      s.Gives (exec (.step c) s)
        ((s.onDev fun d => d.countCe u (s.marked u 1 [(0x140000 + 8 * d.pc u, 8)])).issueWord u w false true))

/-- The sequencer's own progress (R91, R96 to R98, R298): a held word issues again; the head of an engine queue starts, and
keeps its results; once started with nothing outstanding it completes: it leaves the queue, adds 1 to its POST semaphore and writes
its results; one whose POST would pass 0xFFFF writes none and is a descriptor error (R131, R138); a move to a global destination
sends its writes, and completes once they have entered the router port (R232); a wait timer that is set
raises WAIT_TMO, and with ACT stops the core. The model's choices in it: log 18, 20, 47. -/
def Obligations.EngineProgressCommands : Prop :=
  ∀ (s : State) (c : Core),
    let u := coreU c
    let d := s.dev
    (∀ w st, d.awake u = true → (d.core u).held = some (w, st) →
      s.Gives (exec (.issueResume c) s) (s.issueWord u w true st)) ∧
    (∀ q w rest t r, d.awake u = true → (d.core u).queue q = w :: rest → w.started = false → (syncOf w.body).waitEn = false →
      let s1 := if isMac w.body then s.onDev fun d => d.rampAsk (u / 256) else s
      (isMac w.body = true → s1.dev.rampHeld (u / 256) = false) → s1.wordStart u w = .ok t r →
      s.Gives (exec (.engineWordStart c q) s) (t.onDev fun d => ((d.macTook u w.body).modWord u w.seq fun x =>
        { x with started := true, res := if r = WordRes.none then x.res else r }).settle u)) ∧
    (∀ q w rest, d.awake u = true → (d.core u).queue q = w :: rest → w.started = true → w.left = 0 → d.wordOut u w = false →
      w.res.out = none → (syncOf w.body).postEn = true →
      let sem := (syncOf w.body).postSem.toNat
      let out := s.onDev fun d => (d.macTook u w.body).modCore u fun x => x.setQueue q rest
      (d.fld F.COR_SEM_V u sem < 0xFFFF →
        s.Gives (exec (.engineWordComplete c q) s)
          (((out.onDev fun e => e.setF F.COR_SEM_V u (d.fld F.COR_SEM_V u sem + 1) sem).applyRes u w.pc
            { w.res with evs := w.res.evs ++ wordEvs w }).onDev fun e => e.settle u)) ∧
      (0xFFFF ≤ d.fld F.COR_SEM_V u sem →
        s.Gives (exec (.engineWordComplete c q) s)
          (out.onDev fun e => e.descErr u w.seq w.pc (opcOf w.body).toNat eSemRange))) ∧
    (∀ q w rest ep rs bs, d.awake u = true → (d.core u).queue q = w :: rest → w.started = true → w.left = 0 →
      d.wordOut u w = false → w.res.out = some (ep, rs, bs) →
      ((syncOf w.body).postEn = true → d.fld F.COR_SEM_V u (syncOf w.body).postSem.toNat < 0xFFFF) →
      let w' : QWord := { w with res := { w.res with out := none } }
      let t := s.onDev fun d => (d.issueWrites u ep w.seq w.pc rs bs).modWord u w.seq fun _ => w'
      s.Gives (exec (.engineWordComplete c q) s) (if t.dev.wordOut u w' then t else t.finishWord u q w' rest)) ∧
    (∀ wt seq pc opc, d.fld F.COR_WAIT_TMO_TMO_US u ≠ 0 → d.waiter u wt = some (seq, pc, opc) →
      exec (.waitTmo c wt) s = .next (s.onDev fun _ =>
        (if d.flag F.COR_WAIT_TMO_ACT u then d.stopAt u seq pc opc eWaitTmo else d).raise (evU bCOR u) 10 1 pc))

/-! Fields and Hallways. -/

/-- Hallways (R25 to R34, Tables 1-4 and 1-7): a fall of fabric power-good clamps the field's receivers and ends the tests
there; a rise of it shows OWN_PG and tells the neighbours; a CLAMPED Hallway with power-good on both sides starts its wire
test, and so does TEST of a QUIESCED one; a test that ends without a bundle out of spares leaves the Hallway QUIESCED, then
OPEN where nothing holds it, and one that needs more makes it FAILED, and one whose power-good has fallen releases nothing; a test
that TEST asked for covers failed wires and leaves STATE; QUIESCE takes an OPEN Hallway to QUIESCED, and HOLD is
stored. The model's choices in it: log 2, 91. -/
def Obligations.HallwayCommandsTakeEffect : Prop :=
  ∀ (s : State) (f : FieldN) (h : Fin 8),
    let d := s.dev
    let n := f.val
    let k := h.val
    (exec (.fabricPgFall f) s = .next (s.onDev fun d => (d.clampField n).setF F.FLD_RAIL_STATUS_FAB_PG n 0)) ∧
    ((d.clampField n).hw.testing = d.hw.testing.filter fun x => x.1 != n && hwFar x.1 x.2.1 != n) ∧
    (∀ g j, g < 16 → j < 8 → ownsHw g j = true → (g = n ∨ hwFar g j = n) → d.flag F.FLD_HW_STATUS_FAILED g j = false →
      (d.clampField n).hwState g j = 1) ∧
    (d.fieldLost n = false →
      ∃ t, exec (.fabricPgRise f) s = .next t ∧ t.MemKept s ∧ t.dev.flag F.FLD_PG_STATUS_OWN_PG n = true ∧
        t.dev.flag F.FLD_RAIL_STATUS_FAB_PG n = true ∧
        (4 ≤ n → bitOf (t.dev.fld F.FLD_PG_STATUS_NEIGH_PG (n - 4)) 2 = true) ∧
        (n % 4 < 3 → bitOf (t.dev.fld F.FLD_PG_STATUS_NEIGH_PG (n + 1)) 3 = true) ∧
        (n < 12 → bitOf (t.dev.fld F.FLD_PG_STATUS_NEIGH_PG (n + 4)) 0 = true) ∧
        (0 < n % 4 → bitOf (t.dev.fld F.FLD_PG_STATUS_NEIGH_PG (n - 1)) 1 = true) ∧
        (∀ (r : Reg) (v i : Nat), r.key v i ≠ R.FLD_RAIL_STATUS.key n 0 → (∀ m, m < 16 → r.key v i ≠ R.FLD_PG_STATUS.key m 0) →
          t.dev.getR r v i = d.getR r v i)) ∧
    (ownsHw n k = true → d.flag F.FLD_PG_STATUS_OWN_PG n = true → d.flag F.FLD_PG_STATUS_OWN_PG (hwFar n k) = true →
      d.hwState n k = 1 → d.flag F.FLD_HW_STATUS_FAILED n k = false → (d.hw.testing.any fun x => x.1 == n && x.2.1 == k) = false →
      exec (.hallwayWireTest f h) s = .next (s.onDev fun d =>
        { d with hw := { d.hw with testing := d.hw.testing ++ [(n, k, false)] } })) ∧
    (∀ found (asked : Bool), (d.hw.testing.find? fun x => x.1 == n && x.2.1 == k) = some (n, k, asked) →
      let e : Dev := { d with hw := { d.hw with testing := d.hw.testing.filter fun x => !(x.1 == n && x.2.1 == k) } }
      (d.hwPower n k = true → d.hwState n k = (if asked then 2 else 1) →
        exec (.wireTestEnd f h found) s = .next (s.onDev fun _ =>
          if (e.hwCover n k found).2 then ((e.hwCover n k found).1.showBad n k).hwFail n k
          else if asked then (e.hwCover n k found).1.showBad n k
          else (((e.hwCover n k found).1.showBad n k).setHw n k 2).hwOpen n k)) ∧
      (d.hwPower n k = false → exec (.wireTestEnd f h found) s = .next (s.onDev fun _ => e))) ∧
    (d.hwReach n k = true → d.hwState n k = 2 → (d.hw.testing.any fun x => x.1 == n && x.2.1 == k) = false →
      exec (.hwTest f h) s = .next (s.onDev fun d =>
        { d with hw := { d.hw with testing := d.hw.testing ++ [(n, k, true)] } })) ∧
    (d.hwReach n k = true → d.hwState n k = 0 →
      exec (.quiesce f h true) s = .next (s.onDev fun d => (d.setF F.FLD_HW_CTRL_QUIESCE n 1 k).setHw n k 2)) ∧
    (d.hwReach n k = true → exec (.quiesce f h false) s = .next (s.onDev fun d => (d.setF F.FLD_HW_CTRL_QUIESCE n 0 k).hwOpen n k)) ∧
    (d.hwReach n k = true → exec (.hold f h true) s = .next (s.onDev fun d => d.setF F.FLD_HW_CTRL_HOLD n 1 k)) ∧
    (d.hwReach n k = true → exec (.hold f h false) s = .next (s.onDev fun d => (d.setF F.FLD_HW_CTRL_HOLD n 0 k).hwOpen n k))

/-- APPLY (R32): while STATE is QUIESCED and no staged entry names one position twice, every entry of the Hallway's active tables
becomes the staged one; in any other case the request only sets APPLY_REJ. -/
def Obligations.ApplyMakesTheStagedTableActive : Prop :=
  ∀ (s : State) (f : FieldN) (h : Fin 8),
    let d := s.dev
    let n := f.val
    let k := h.val
    let twice := ∃ dr b, b < 34 ∧ bitOf (sget d.hw.staged 0 (hwKey n k dr b)) 5 = true ∧
      bitOf (sget d.hw.staged 0 (hwKey n k dr b)) 13 = true ∧
      bitsOf (sget d.hw.staged 0 (hwKey n k dr b)) 0 5 = bitsOf (sget d.hw.staged 0 (hwKey n k dr b)) 8 5
    d.hwReach n k = true →
    (d.hwState n k = 2 → ¬ twice →
      ∃ t, exec (.apply f h) s = .next t ∧ t.MemKept s ∧
        (∀ dr b, b < 34 → sget t.dev.hw.act 0 (hwKey n k dr b) = sget d.hw.staged 0 (hwKey n k dr b)) ∧
        (∀ x, (∀ dr b, b < 34 → x ≠ hwKey n k dr b) → sget t.dev.hw.act 0 x = sget d.hw.act 0 x) ∧
        t.dev.hw.staged = d.hw.staged ∧ t.dev.hwState n k = 2 ∧
        (∀ (r : Reg) (v i : Nat), r.key v i ≠ R.FLD_HW_STATUS.key n k → t.dev.getR r v i = d.getR r v i)) ∧
    (d.hwState n k ≠ 2 ∨ twice →
      exec (.apply f h) s = .next (s.onDev fun d => d.setF F.FLD_HW_STATUS_APPLY_REJ n 1 k))

/-! Events. -/

/-- Events (R555, R559 to R568): an occurrence of a class that its block type has is raised at its unit with the class's base level and
its detail, and no other is recorded; a core's memory error
and parity error also stop the core (R76, R77), and the word named stays uncorrectable; the oldest message of an instance becomes
a record and is DELIVERED; a retry counts, and the third gives the message up in UNDELIVERED; ACK and ALL clear the pending state
of a block that answers. The model's choices in it: log 84, 106. -/
def Obligations.EventCommandsTakeEffect : Prop :=
  ∀ (s : State) (unit : BitVec 24) (cls : Fin 32),
    let d := s.dev
    let eu := unit.toNat
    let u := eu % 65536
    (∀ (cause : Fin 6) detail skink abuf base, d.evUnitOk eu = true → baseLevel (eu / 65536) cls.val cause.val = some base →
      eu / 65536 ≠ 1 ∨ skink = true ∨ (cls.val ≠ 3 ∧ cls.val ≠ 4) →
      s.Gives (exec (.eventOccurrence unit cls cause detail ⟨skink, abuf⟩) s)
        (s.onDev fun d => d.raise eu cls.val base detail.toNat skink)) ∧
    (∀ (cause : Fin 6) detail by_, d.evUnitOk eu = false ∨ baseLevel (eu / 65536) cls.val cause.val = none →
      exec (.eventOccurrence unit cls cause detail by_) s = .next s) ∧
    (∀ base (detail : BitVec 32) abuf, cls.val = 3 → d.evUnitOk eu = true → eu / 65536 = 1 →
      s.Gives (exec (.eventOccurrence unit cls base detail ⟨false, abuf⟩) s)
        (((if detail.toNat < 0x150000 then s.mark (coreBase (u / 256) (u % 256) + detail.toNat) 1 2 else s).stopCore u none).onDev
          fun d => d.eccUe u detail.toNat false)) ∧
    (∀ base (detail : BitVec 32) abuf, cls.val = 4 → d.evUnitOk eu = true → eu / 65536 = 1 →
      s.Gives (exec (.eventOccurrence unit cls base detail ⟨false, abuf⟩) s)
        ((s.stopCore u (some detail.toNat)).onDev fun d => d.dpParity u detail.toNat abuf)) ∧
    (∀ pc, d.coreState u ≠ 4 → (s.stopCore u pc).dev.coreState u = 3 ∧
      (s.stopCore u pc).dev.fld F.COR_SEQ_ERR_CODE u = 11 ∧ (s.stopCore u pc).dev.flag F.COR_SEQ_ERR_VALID u = true) ∧
    (∀ (seq : BitVec 8) m, (d.evq.find? fun m => m.unit == eu) = some m → m.seq = seq.toNat →
      let e : Dev := ({ d with evq := d.evq.erase m } : Dev).evtRecord m
      [domHost, domUci].filter d.rests = [] →
      (∀ i, e.histIx eu seq.toNat = some i →
        exec (.eventMessage unit seq) s = .next (s.onDev fun _ => e.setF F.EVT_HIST1_DELIVERED eu 1 i)) ∧
      (e.histIx eu seq.toNat = none → exec (.eventMessage unit seq) s = .next (s.onDev fun _ => e))) ∧
    (∀ (seq : BitVec 8) m, (d.evq.find? fun m => m.unit == eu) = some m → m.seq ≠ seq.toNat →
      exec (.eventMessage unit seq) s = .next s) ∧
    (∀ (seq : BitVec 8) m, (d.evq.find? fun m => m.unit == eu && m.seq == seq.toNat) = some m → m.sends < 3 →
      exec (.eventRetry unit seq) s = .next (s.onDev fun d =>
        { d with evq := d.evq.map fun x => if x = m then { m with sends := m.sends + 1 } else x })) ∧
    (∀ (seq : BitVec 8) m, (d.evq.find? fun m => m.unit == eu && m.seq == seq.toNat) = some m → 3 ≤ m.sends →
      exec (.eventRetry unit seq) s = .next (s.onDev fun d =>
        ({ d with evq := d.evq.erase m } : Dev).addSat F.EVT_STATUS_UNDELIVERED eu 1)) ∧
    (d.evUnitOk eu = true → d.evReach eu = true → d.regWaits (eu / 65536) u = [] → cls.val ≠ 0 →
      ∃ t, exec (.evtAck unit cls) s = .next t ∧ t.MemKept s ∧ sget t.dev.evtPend 0 (eu * 32 + cls.val) = 0 ∧
        (∀ k, k ≠ eu * 32 + cls.val → sget t.dev.evtPend 0 k = sget d.evtPend 0 k) ∧
        (∀ (r : Reg) (v i : Nat), r.key v i ≠ R.EVT_STATUS.key eu 0 → t.dev.getR r v i = d.getR r v i)) ∧
    (d.evUnitOk eu = true → d.evReach eu = true → d.regWaits (eu / 65536) u = [] →
      ∃ t, exec (.ackAll unit) s = .next t ∧ t.MemKept s ∧
        (∀ c, 1 ≤ c → c < 32 → sget t.dev.evtPend 0 (eu * 32 + c) = 0) ∧
        (∀ (r : Reg) (v i : Nat), r.key v i ≠ R.EVT_STATUS.key eu 0 → t.dev.getR r v i = d.getR r v i)) ∧
    (d.evUnitOk eu = true → d.evReach eu = true → d.regWaits (eu / 65536) u ≠ [] →
      exec (.ackAll unit) s = .next (s.onDev fun d => d.demands (d.regWaits (eu / 65536) u)))

/-! Flash, security and Newt's registers. -/

/-- The boot and security domain. Flash operations (R550, R551): READ, PROGRAM and ERASE that may run start the operation and
set BUSY, one that may not only sets ERR; a PROGRAM that ends has written the 4 KiB of the buffer and no other byte, a READ has
filled the buffer, an ERASE leaves every byte outside its sector; BUSY clears; a timeout ends the operation with ERR.
Anti-rollback and attestation (R533, R549): COMMIT starts with the image's SVN and sets BUSY; at its end each bank has what it took of
the thermometer code, and no other bit; the fused count never falls, a bank that took all of the code raises it to the SVN, at most 64,
and COMMIT_ERR is set where a bank did not; ATT_GO with a proper DEST starts a report, else sets ERR; the report
stands in host window memory at DEST and at no other byte, and DONE is set. The model's choices in it: log 3, 12, 39, 62. -/
def Obligations.BootDomainCommandsTakeEffect : Prop :=
  (∀ (s : State) (dev : Bool) (addr : BitVec 32) (op : Nat),
    let e := ((s.dev.setF F.BSQ_NVM_CTRL_ADDR 0 addr.toNat).setB F.BSQ_NVM_CTRL_DEV 0 dev).setF F.BSQ_NVM_CTRL_OP 0 op
    let t := s.onDev fun _ => if e.nvmOk op (b2n dev) addr.toNat then
        (({ e with boot := { e.boot with nvm := some (op, b2n dev, addr.toNat) } } : Dev).setF F.BSQ_NVM_CTRL_BUSY 0 1).bootDom
      else e.setF F.BSQ_NVM_CTRL_ERR 0 1
    (op = 0 → exec (.nvmRead dev addr) s = .next t) ∧ (op = 1 → exec (.nvmProgram dev addr) s = .next t) ∧
    (op = 2 → exec (.nvmErase dev addr) s = .next t)) ∧
  (∀ (s : State) (dev addr : Nat), s.dev.boot.nvm = some (1, dev, addr) →
    ∃ t, exec .nvmOpDone s = .next t ∧ t.dev = s.dev.nvmEnd false ∧
      (∀ x, peek t.flash x = if dev * 0x8000000 + addr ≤ x ∧ x < dev * 0x8000000 + addr + 4096 then
        s.dev.nvmBuf.getD (x - (dev * 0x8000000 + addr)) 0 else peek s.flash x) ∧
      (∀ x, peek t.mem x = peek s.mem x)) ∧
  (∀ (s : State) (dev addr : Nat), s.dev.boot.nvm = some (0, dev, addr) →
    ∃ t, exec .nvmOpDone s = .next t ∧ t.SameMem s ∧
      (∀ i, i < 512 → (t.dev.getR R.BSQ_FLASH_BUF 0 i) =
        BitVec.ofNat 64 (leNat (peekN s.flash (dev * 0x8000000 + addr + 8 * i) 8)))) ∧
  (∀ (s : State) (dev addr : Nat), s.dev.boot.nvm = some (2, dev, addr) → Memory.wf s.flash = true →
    ∃ t, exec .nvmOpDone s = .next t ∧
      (∀ x, x < dev * 0x8000000 + addr ∨ dev * 0x8000000 + addr + 4096 ≤ x → peek t.flash x = peek s.flash x)) ∧
  (∀ s : State, s.dev.boot.nvm.isSome = true → exec .nvmTimeout s = .next (s.onDev fun d => d.nvmEnd true)) ∧
  (∀ s : State,
      let d := s.dev
      (d.boot.commit = none → exec .commit s = .next (s.onDev fun d =>
        (({ d with boot := { d.boot with commit := some (d.fld F.SEC_SVN_IMAGE 0) } } : Dev).setF F.SEC_SVN_BUSY 0 1).bootDom)) ∧
      (∀ v took, d.boot.commit = some v →
        let f := d.boot.fuse
        ∃ t, exec (.svnCommitDone took) s = .next t ∧ t.MemKept s ∧ t.dev.boot.commit = none ∧ t.dev.flag F.SEC_SVN_BUSY 0 = false ∧
          t.dev.boot.fuse = { f with svnA := f.svnA ||| (thermo v &&& took.1), svnB := f.svnB ||| (thermo v &&& took.2) } ∧
          f.count ≤ t.dev.boot.fuse.count ∧
          (f.svnA ||| f.svnB = thermo f.count → t.dev.boot.fuse.count ≤ max f.count (min 64 v) ∧
            (took.1 = BitVec.allOnes 64 → t.dev.boot.fuse.count = max f.count (min 64 v))) ∧
          ((f.svnA ||| took.1) &&& thermo v ≠ thermo v ∨ (f.svnB ||| took.2) &&& thermo v ≠ thermo v →
            t.dev.flag F.SEC_SVN_COMMIT_ERR 0 = true)) ∧
      (d.boot.report = none →
        let dest := d.fld F.SEC_ATT_CTRL_DEST 0
        exec .attGo s = .next (s.onDev fun d =>
          if 0x100000 ≤ dest && dest + 2596 ≤ 0x800000 && dest % 64 = 0 then
            (({ d with boot := { d.boot with
                report := some (d.ntAt bSEC 0, (List.range 4).map (fun i => (d.getR R.SEC_ATT_NONCE 0 i).toNat), dest) } } : Dev).setF
              F.SEC_ATT_CTRL_BUSY 0 1).bootDom
          else d.setF F.SEC_ATT_CTRL_ERR 0 1)) ∧
      (∀ nt nonce dest sig, d.boot.report = some (nt, nonce, dest) →
        ∃ t, exec (.attReportDone sig) s = .next t ∧ t.MemKept s ∧
          (∀ x, x < dest ∨ dest + 2596 ≤ x → peek t.dev.jmem x = peek d.jmem x) ∧
          (t.dev.getJ dest 176 = takeZ 176 (d.attBody nonce)) ∧
          t.dev.boot.report = none ∧ t.dev.flag F.SEC_ATT_CTRL_DONE 0 = true ∧ t.dev.flag F.SEC_ATT_CTRL_BUSY 0 = false))

/-! Messages, queues, rings, Cisterns and channels. -/

/-- Queues, rings and channels by their registers (R268, R279, R281, R288): RESET of a queue empties it and raises its
generation; CLOSE empties it and clears OPEN; RESET of a ring clears its offsets, raises its generation and opens it; CLOSE
clears OPEN; a write of word 1 of a channel entry restarts its credit where GEN or CRED_MAX
changes. -/
def Obligations.QueueRingAndChannelCommands : Prop :=
  (∀ (s : State) (c : Core) (q : Fin 8), s.dev.coreReach (coreU c) = true →
    (∃ t, exec (.queueReset c q) s = .next t ∧ t.MemKept s ∧ t.dev.qHead (coreU c) q.val = none ∧
      (∀ p, p ≠ q.val → t.dev.qHead (coreU c) p = s.dev.qHead (coreU c) p) ∧
      t.dev.qGen (coreU c) q.val = (s.dev.qGen (coreU c) q.val + 1) % 256 ∧
      bitOf (t.dev.fld F.COR_QCTRL_OPEN (coreU c)) q.val = true) ∧
    exec (.queueClose c q) s = .next (s.onDev fun d => d.closeQ (coreU c) q.val)) ∧
  (∀ (s : State) (site : Site) (r : Fin 32), s.dev.siteOut site.val = false →
    exec (.clusterRingReset site r) s = .next (s.onDev fun d =>
      ((((d.setR R.CLU_RING_HEAD site.val 0 r.val).setR R.CLU_RING_TAIL site.val 0 r.val).setF F.CLU_RING_STATUS_MSGS site.val 0
        r.val).addWrap F.CLU_RING_CFG_GEN site.val 1 r.val).setF F.CLU_RING_CFG_OPEN site.val 1 r.val) ∧
    exec (.clusterRingClose site r) s = .next (s.onDev fun d => d.setF F.CLU_RING_CFG_OPEN site.val 0 r.val)) ∧
  (∀ (s : State) (c : Core) (chan : BitVec 8) (v : Word), s.dev.coreReach (coreU c) = true →
    let old := (s.dev.getR R.COR_CHAN1 (coreU c) chan.toNat).toNat
    let keep := bitsOf v.toNat 56 8 = bitsOf old 56 8 ∧ bitsOf v.toNat 38 5 = bitsOf old 38 5
    ∃ t, exec (.channelEntryWrite false c chan v) s = .next t ∧ t.MemKept s ∧
      t.dev.fld F.COR_CHAN1_GEN (coreU c) chan.toNat = bitsOf v.toNat 56 8 ∧
      t.dev.fld F.COR_CHAN1_CRED_MAX (coreU c) chan.toNat = bitsOf v.toNat 38 5 ∧
      (keep → t.dev.fld F.COR_CHAN1_CRED (coreU c) chan.toNat = bitsOf old 28 5 ∧
        t.dev.fld F.COR_CHAN1_SENT (coreU c) chan.toNat = bitsOf old 0 16) ∧
      (¬ keep → t.dev.fld F.COR_CHAN1_CRED (coreU c) chan.toNat = bitsOf v.toNat 38 5 ∧
        t.dev.fld F.COR_CHAN1_SENT (coreU c) chan.toNat = 0) ∧
      (∀ (r : Reg) (w i : Nat), r.key w i ≠ R.COR_CHAN1.key (coreU c) chan.toNat → t.dev.getR r w i = s.dev.getR r w i)) ∧
  (∀ (s : State) (c : Core) (chan : BitVec 8) (v : Word), s.dev.siteOut c.site.val = false →
    exec (.channelEntryWrite true c chan v) s =
      .next (s.onDev fun d => d.wrChan1 R.CLU_CHAN1 c.site.val chan.toNat v.toNat))

/-- POP (R286): it advances HEAD past the record at HEAD, to offset 0 with WRAP toggled where the record ends the ring, and one
message less stands in the ring; for a pad it advances HEAD to offset 0 and toggles WRAP; on an empty ring it is ignored. -/
def Obligations.PopAdvancesTheHead : Prop :=
  ∀ (s : State) (site : Site) (r : Fin 32),
    let d := s.dev
    let i := site.val
    let h := d.fld F.CLU_RING_HEAD_OFFSET i r.val
    let empty := h = d.fld F.CLU_RING_TAIL_OFFSET i r.val ∧
      d.fld F.CLU_RING_HEAD_WRAP i r.val = d.fld F.CLU_RING_TAIL_WRAP i r.val
    let w := leNat (s.get (d.ringBase i r.val + h) 8)
    let n := (8 + w % 8192 + 63) / 64 * 64
    let flip := (d.setF F.CLU_RING_HEAD_OFFSET i 0 r.val).setF F.CLU_RING_HEAD_WRAP i (1 - d.fld F.CLU_RING_HEAD_WRAP i r.val) r.val
    let past := if h + n < d.ringSize i r.val then d.setF F.CLU_RING_HEAD_OFFSET i (h + n) r.val else flip
    d.siteOut i = false →
    (empty → s.Gives (exec (.pop site r) s) s) ∧
    (¬ empty → w / 2 ^ 56 = 0x7F → s.Gives (exec (.pop site r) s) (s.onDev fun _ => flip)) ∧
    (¬ empty → w / 2 ^ 56 ≠ 0x7F → s.Gives (exec (.pop site r) s) (s.onDev fun _ =>
      past.setF F.CLU_RING_STATUS_MSGS i (d.fld F.CLU_RING_STATUS_MSGS i r.val - 1) r.val))

/-- The waits of messages (R273, R284, R287, R292): the first message that waits for a ring with room is placed; one that waits
too long is dropped and answered TIMEOUT; a slot that has been read out re-arms and takes the contributions that waited; a SEND
that waited for credit asks for it; a credit message and a credit request reach the channel and the queue they name. The
model's choices in it: log 47. -/
def Obligations.MessageWaitsEnd : Prop :=
  (∀ (s : State) (site : Site) (r : Fin 32) (w : Nat × WaitMsg) (t : State),
    ((s.dev.clu site.val).ringWait.find? fun w => w.1 == r.val) = some w →
    (s.onDev fun d => d.modClu site.val fun x => { x with ringWait := x.ringWait.erase w }).ringTry w.2.pkt w.2.circ w.2.body =
      some t → s.Gives (exec (.ringWaitEnd site r) s) t) ∧
  (∀ (s : State) (site : Site) (r : Fin 32) (w : Nat × WaitMsg),
    ((s.dev.clu site.val).ringWait.find? fun w => w.1 == r.val) = some w →
    exec (.ringWaitTimeout site r) s = .next (s.onDev fun d =>
      ((((d.modClu site.val fun x => { x with ringWait := x.ringWait.erase w }).addSat F.CLU_RING_STATUS_DROPPED site.val 1
        r.val).raise (evU bCLU site.val) 8 1 r.val).ackMsg w.2.pkt w.2.circ 3))) ∧
  (∀ (s : State) (site : Site) (k : BitVec 8), (s.dev.clu site.val).cstRead.contains k.toNat = true →
    ((s.dev.clu site.val).cstWait.filter fun w => w.1 == k.toNat) = [] →
    s.Gives (exec (.cisternRearm site k) s) (s.onDev fun d =>
      (d.setF F.CLU_CST1_RECEIVED site.val 0 k.toNat).modClu site.val fun x =>
        { x with cstRead := x.cstRead.erase k.toNat, cstWait := x.cstWait.filter fun w => w.1 != k.toNat })) ∧
  (∀ (s : State) (c : Core) (x : QWord) (rest : List QWord) (y : Sync) (ds : BitVec 5) (chan : BitVec 8) (sig : Bool)
      (sign : BitVec 4) (sten : Bool) (sreg : BitVec 4),
    (s.dev.core (coreU c)).m = x :: rest → x.body = .send y ds chan sig sign sten sreg → x.started = false →
    s.dev.fld F.COR_CHAN0_LAND (coreU c) chan.toNat = 0 → s.dev.flag F.COR_CHAN0_VALID (coreU c) chan.toNat = true →
    s.dev.fld F.COR_CHAN1_CRED (coreU c) chan.toNat < entriesOf (opBytes (x.ds.headD 0)) →
    exec (.creditWaitTimer c) s = .next (s.onDev fun d =>
      d.creditReq (coreU c) (if x.mode = 0 then d.injEpoch (coreU c / 256) else x.mode - 1) chan.toNat)) ∧
  (∀ (s : State) (p : Packet), s.Serves p →
    s.Gives (exec (.creditMessage p) s) ((s.takenIn p).onDev fun d => d.creditIn p) ∧
    s.Gives (exec (.creditRequest p) s) ((s.takenIn p).onDev fun d => d.creditAsk p)) ∧
  (∀ w1 gen freed v : Nat, newCred w1 gen freed = some v →
    gen = bitsOf w1 56 8 ∧ bitsOf w1 28 5 < v ∧ v + (bitsOf w1 0 16 + 65536 - freed) % 65536 = bitsOf w1 38 5)

/-! The fabric. -/

/-- A routed packet at the head of an input (R234, R235, R244, R245): one without an error counts none; for another site it leaves
its input buffer, where the next buffer has room and it is its turn, and arrives in the buffer at the far end of the port that the
route entry names; for this site's cores it arrives at its sink. A packet that is not the head stays (R247). In a fabric domain that
rests, or before one, it only wakes the domain (R482). A packet with a bad
data CRC is ejected and counted, a corrected sideband error is counted and the packet goes on, one that loses a flit to an
uncorrectable one is gone (R237, R260). The model's choices in it: log 90, 104. -/
def Obligations.RoutersForwardPackets : Prop :=
  ∀ (s : State) (site : Site) (port : Fin 7) (p : Packet),
    let d := s.dev
    let r := site.val
    let i := port.val
    (∀ o t, (d.rtr r).deadPorts = [] → p.ty.toNat < 8 → dstResv p.dstCore.toNat = false → d.copyValid r p.epoch = true →
      p.dstSite.toNat ≠ r → d.routePort r i p = some o → d.hopShut r o = false → neighbour r o = some t →
      (d.rtr r).paused.contains o = false →
      let q : Packet := { p with vc := p.vc && d.flag F.FAB_CTRL_VC1_EN t }
      d.takes t (backPort o) q = true → d.fate r i p = .hop o t (backPort o) q) ∧
    ((d.rtr r).deadPorts = [] → p.ty.toNat < 8 → p.ty.toNat ≠ 6 → p.dstCore.toNat < 36 ∨ p.dstCore.toNat = 60 → d.copyValid r p.epoch = true → p.dstSite.toNat = r →
      (d.rtr r).paused.contains 4 = false → d.asleep r = false → d.fate r i p = .sink 4) ∧
    (hasPort r i = true → d.isHead r i p = true → d.hopWaits r i p ≠ [] →
      ∀ m, exec (.packetForward site port p m) s = .next (s.onDev fun d => d.demands (d.hopWaits r i p))) ∧
    (hasPort r i = true → d.isHead r i p = true → d.hopWaits r i p = [] →
      let e := d.countFinds r i (judgePkt p [])
      let out := e.depart r i p
      (∀ (g : Reg) (v j : Nat), e.getR g v j = d.getR g v j) ∧
      (∀ o t b q, e.fate r i p = .hop o t b q → e.myTurn r i p.vc o = true →
        exec (.packetForward site port p ⟨[], false⟩) s = .next (s.onDev fun _ => (out.served r i p o).arrive t b q)) ∧
      (e.fate r i p = .sink 4 → e.myTurn r i p.vc 4 = true → d.redirects p = false → e.siteOut r = false →
        exec (.packetForward site port p ⟨[], false⟩) s = .next (s.onDev fun _ => (out.served r i p 4).arrive r 15 p)) ∧
      (∀ flips cut,
        let fs := judgePkt p flips
        let e := d.countFinds r i fs
        ((fs.any fun x => x.ue) = true →
          exec (.packetForward site port p ⟨flips, cut⟩) s = .next (s.onDev fun _ => e.depart r i p)) ∧
        ((fs.any fun x => x.ue) = false → (fs.any fun x => x.crc) = true → cut = false →
          exec (.packetForward site port p ⟨flips, cut⟩) s = .next (s.onDev fun _ => (e.depart r i p).ejected r p)) ∧
        ((fs.any fun x => x.ue) = false → (fs.any fun x => x.crc) = false →
          exec (.packetForward site port p ⟨flips, cut⟩) s = .next (s.onDev fun _ => e.routeHead r i p)))) ∧
    (d.isHead r i p = false → ∀ flips cut, exec (.packetForward site port p ⟨flips, cut⟩) s = .next s) ∧
    (exec (.linkPauseEnd site port) s = .next (s.onDev fun d =>
      let e := d.pauseLink r i false
      (e.unstage r i true e.stage.length).unstage r i false e.stage.length) ∧
      ((d.pauseLink r i false).rtr r).paused.contains i = false) ∧
    (d.fld F.FAB_CTRL_STALL_LIMIT r ≠ 0 → exec (.vcStall site port) s = .next (s.onDev fun d => d.raise (evU bFAB r) 6 1 i)) ∧
    ((d.freeTag r i).isSome = true → exec (.tagFree site port) s = .next (s.onDev fun d => d.release r i d.injw.length))

/-- What a receiver finds in a flit (R236, R237, R260): of a flit as it was sent, nothing; where one data bit is inverted, that the
CRC fails and no sideband error; where one of the sixteen protected sideband bits is, an error that it corrects; where two of them
are, one that it cannot. The model's choices in it: log 102. -/
def Obligations.ReceiversFindFlitErrors : Prop :=
  (∀ (data : Nat) (circ vc ep kill : Bool) (ft crd0 crd1 cseq : Nat), data < 2 ^ 1024 → ft < 4 →
    let x := mkFlit data circ ft vc ep kill crd0 crd1 cseq
    bitsOf x 0 1024 = data ∧ crc32 (natBits x 1024 ++ natBits (bitsOf x 1024 16) 16) = bitsOf x 1056 32) ∧
  (∀ x : Nat, crc32 (natBits x 1024 ++ natBits (bitsOf x 1024 16) 16) = bitsOf x 1056 32 →
    judgeFlit x [] = FlitFind.good ∧
    (∀ k, k < 1024 → judgeFlit x [k] = ⟨false, false, true⟩) ∧
    (∀ k, k < 16 → judgeFlit x [1040 + k] = ⟨true, false, false⟩) ∧
    (∀ j k, j < k → k < 16 → judgeFlit x [1040 + j, 1040 + k] = ⟨false, true, false⟩))

/-- Router configuration (R250, R253, R256, R257): FAB_CTRL takes VALID_A, VALID_B, INJ_EPOCH and the limits, and a copy that
becomes valid starts its epoch's counts at 0; FAB_TBL_DATA stores an entry of a table whose copy is not valid, and no entry of a
circuit that conflicts; a torn-down entry that has been idle for 16 units clears; ORDER changes while the cluster's cores are
halted. -/
def Obligations.RouterConfigurationCommands : Prop :=
  ∀ (s : State) (site : Site),
    let d := s.dev
    let r := site.val
    (∀ v : Word, d.fieldLost (fieldOf r) = false →
      let new := bitsOf v.toNat 16 16 * 65536 + bitsOf v.toNat 7 1 * 128 + bitsOf v.toNat 0 3
      let old := (d.getR R.FAB_CTRL r).toNat
      let named := if bitOf new 0 then bitOf new 2 else bitOf new 1
      let a := bitOf new 1 && !bitOf old 1
      let b := bitOf new 2 && !bitOf old 2
      (named = false → exec (.fabCtrl site v) s = .next (s.onDev fun d => d.setF F.FAB_STATUS_WR_REJ r 1)) ∧
      (named = true → exec (.fabCtrl site v) s = .next (s.onDev fun d =>
        let d := d.setR R.FAB_CTRL r (BitVec.ofNat 64 new)
        let d := if a then d.setR R.FAB_ECNT r 0 0 else d
        let d := if b then d.setR R.FAB_ECNT r 0 1 else d
        if a || b then d.setR R.FAB_UNATTR r 0 else d))) ∧
    (∀ v : BitVec 32, d.fieldLost (fieldOf r) = false →
      let t := d.fld F.FAB_TBL_SEL_TABLE r
      let ix := d.fld F.FAB_TBL_SEL_INDEX r
      (t = 0 ∨ t = 1 ∨ t = 3 ∨ t = 4 → d.copyValid r (t = 1 || t = 4) = false →
        exec (.fabTblData site v) s = .next (s.onDev fun d => d.putTbl r t ix v.toNat)) ∧
      (t = 0 ∨ t = 1 ∨ t = 3 ∨ t = 4 → d.copyValid r (t = 1 || t = 4) = true →
        exec (.fabTblData site v) s = .next (s.onDev fun d => d.setF F.FAB_STATUS_WR_REJ r 1)) ∧
      (t = 2 → ix < 56 → exec (.fabTblData site v) s = .next (s.onDev fun d =>
        if d.circConflict r ix v.toNat then d.setF F.FAB_STATUS_CONFLICT r 1 else d.putTbl r 2 ix v.toNat))) ∧
    (∀ i : Fin 56, bitOf (sget (d.rtr r).circ 0 i.val) 31 = true → bitOf (sget (d.rtr r).circ 0 i.val) 30 = true →
      16 ≤ d.circIdle r i.val →
      exec (.teardownDone site i) s = .next (s.onDev fun d => d.modRtr r fun x => { x with circ := sset x.circ 0 i.val 0 })) ∧
    (∀ o, d.siteOut r = false → (∀ c, c < 36 → d.coreAbsent (cu r c) = true ∨ d.coreState (cu r c) = 0) →
      exec (.cluMeshCtrl site o) s = .next (s.onDev fun d => d.setB F.CLU_MESH_CTRL_ORDER r o)) ∧
    (∀ o c, d.siteOut r = false → c < 36 → d.coreAbsent (cu r c) = false → d.coreState (cu r c) ≠ 0 →
      exec (.cluMeshCtrl site o) s = .next s)

/-- Drains (R258, R259): START sends the DRAIN packet of wave 1 on its way; at a site of the mask the packet takes up the site's
counts and goes on to the next one, in serpentine order, and at last back to the root; there the first wave is followed by a gap
and the second; with AUTO_RETIRE 0 a later wave whose sums equal those of the wave before and whose difference is 0 ends CLEAN; a
retire wave clears the VALID bit of the epoch in every masked router that it visits, and its return ends the drain; a lost wave ends
FAIL_LOST. The model's choices in it: log 103. -/
def Obligations.DrainsRunInWaves : Prop :=
  ∀ (s : State) (root : Site),
    let d := s.dev
    let r := root.val
    let x := (d.rtr r).drain
    (d.fieldLost (fieldOf r) = false → x.phase = 0 →
      exec (.drainStart root) s = .next (s.onDev fun d =>
        (((d.modRtr r fun x => { x with drain := ⟨1, 0, 0, 0, 1, []⟩ }).setF F.FAB_DRAIN_STATUS_STATUS r 1).setF
          F.FAB_DRAIN_STATUS_WAVES r 0).drainSend r false)) ∧
    (∀ retire, ((d.drainSend r retire).rtr r).drain.todo = d.drainSites r ∧
      ((d.drainSend r retire).rtr r).drain.phase = if retire then 3 else 1) ∧
    ((d.drainSites r).Nodup ∧ ∀ t, t ∈ d.drainSites r → t < 256 ∧ bitOf (d.getR R.FAB_DRAIN_MASK r (t / 64)).toNat (t % 64) = true) ∧
    (∀ (p : Packet) t rest, p.srcSite.toNat = r → t < 256 → x.todo = t :: rest → t ≠ r ∨ rest ≠ [] →
      let ep := leAt p.payload 13 1 % 2
      let e := d.modRtr r fun y => { y with drain := { y.drain with todo := rest } }
      let on (b : List Byte) : Packet :=
        { p with payload := b, dstSite := BitVec.ofNat 8 (rest.headD r), vc := d.flag F.FAB_CTRL_VC1_EN t }
      (leAt p.payload 13 1 < 2 → d.drainVisit t p = e.send1 t 4 (on (drainBody (leAt p.payload 0 4 + d.fld F.FAB_ECNT_INJ t ep)
        (leAt p.payload 4 4 + d.fld F.FAB_ECNT_EJ t ep) (leAt p.payload 8 4 + d.fld F.FAB_UNATTR_UNATTR t)
        (leAt p.payload 12 1) ep false))) ∧
      (2 ≤ leAt p.payload 13 1 → leAt p.payload 13 1 < 4 →
        (d.drainVisit t p).flag (if ep = 1 then F.FAB_CTRL_VALID_B else F.FAB_CTRL_VALID_A) t = false)) ∧
    (∀ p, d.drainBack r = some p → x.phase = 1 → leAt p.payload 13 1 < 2 →
      exec (.drainWaveReturn root) s = .next (s.onDev fun d =>
        (d.depart r 15 p).drainJudge r (leAt p.payload 0 4) (leAt p.payload 4 4) (leAt p.payload 8 4))) ∧
    (∀ inj ej ua,
      let e := ((d.setF F.FAB_DRAIN_SUM_INJ r inj).setF F.FAB_DRAIN_SUM_EJ r ej).setF F.FAB_DRAIN_STATUS_WAVES r x.wave
      (2 ≤ x.wave → x.inj = inj → x.ej = ej → inj = ej → d.flag F.FAB_DRAIN_CTRL_AUTO_RETIRE r = false →
        d.drainJudge r inj ej ua = (e.modRtr r fun y => { y with drain := ⟨x.wave, inj, ej, ua, 0, []⟩ }).drainEnd r 2) ∧
      (x.wave = 1 → d.drainJudge r inj ej ua = e.modRtr r fun y => { y with drain := ⟨2, inj, ej, ua, 2, []⟩ })) ∧
    (x.phase = 2 → exec (.drainGapExpiry root) s = .next (s.onDev fun d => d.drainSend r false)) ∧
    (∀ p, d.drainBack r = some p → x.phase = 3 → 2 ≤ leAt p.payload 13 1 →
      exec (.retireWaveReturn root) s = .next (s.onDev fun d =>
        let e := d.depart r 15 p
        e.drainEnd r (e.fld F.FAB_DRAIN_STATUS_STATUS r))) ∧
    (x.phase = 1 ∨ x.phase = 3 → exec (.drainWaveTimeout root) s = .next (s.onDev fun d => d.drainEnd r 5))

/-- A packet at its sink, in its turn, is ejected there and served (R239, R240, R257, R261, R269): the write of WRITE and
WRITE_ACK, the latter answered with an ACK that carries its status; the read of READ_REQ, answered with a READ_RESP; a MSG that
lands; a READ_RESP or an ACK that ends its request, or counts as late; a TEST returned to its source. One with KILL or whose CRC
fails is discarded. A request without response within FAB_TMO times out. The model's choices in it: log 68. -/
def Obligations.PacketsAreServedAtTheirSink : Prop :=
  ∀ (s : State) (p : Packet),
    let site := p.dstSite.toNat
    let s1 := s.takenIn p
    (s.Serves p → s.dev.placeSleeps (s.dev.sinkPlace p (sinkAddr p)) = none →
      (∀ t st, s1.packetWrite p = some (t, st) →
        s.Gives (exec (.write p) s) (t.onDev fun d => if st = 4 then d.addSat F.FAB_STATUS_NOROUTE site 1 else d) ∧
        s.Gives (exec (.writeAck p) s) (t.onDev fun d => d.respond p 5 (ackAux st) [])) ∧
      (let x := s1.rangeRead (s1.dev.sinkPlace p) (sinkAddr p) (auxWords p * 8)
       s.Gives (exec (.readReq p) s) (x.1.onDev fun d => d.respond p 3 (respAux (auxWords p) x.2.2) x.2.1))) ∧
    (s.Serves p →
      (∀ t, s1.msgIn p = some t → s.Gives (exec (.msg p) s) t) ∧
      (∀ r, s1.dev.reqOf site (portOfCore p.dstCore.toNat) p.tag.toNat = some r →
        s.Gives (exec (.ack p) s) (s1.onDev fun d => (d.reqStatus r.kind (respStatus p)).endReq r)) ∧
      (∀ r u seq off len, s1.dev.reqOf site (portOfCore p.dstCore.toNat) p.tag.toNat = some r → r.kind = .read u seq off len →
        respStatus p = 0 → s.Gives (exec (.readResp p) s) ((s1.readBack u seq off len p.payload).onDev fun d => d.endReq r)) ∧
      (s1.dev.reqOf site (portOfCore p.dstCore.toNat) p.tag.toNat = none →
        s.Gives (exec (.ack p) s) (s1.onDev fun d => d.addSat F.FAB_STATUS_LATE site 1)) ∧
      (p.srcSite ≠ p.dstSite → s.Gives (exec (.testPacket p) s) (s1.onDev fun d =>
        d.reply site (portOfCore p.dstCore.toNat)
          { p with dstSite := p.srcSite, dstCore := p.srcCore, epoch := d.injEpoch site = 1, vc := false })) ∧
      (p.srcSite = p.dstSite → s.Gives (exec (.testPacket p) s) s1)) ∧
    (s.dev.isNext { p with crcBad := false } = true → p.kill = true ∨ p.crcBad = true →
      s.Gives (exec (.msg p) s) (s.onDev fun d =>
        (d.depart site 15 { p with crcBad := false }).ejected site { p with crcBad := false })) ∧
    (s.dev.isNext { p with crcBad := false } = false → s.Gives (exec (.msg p) s) s) ∧
    (∀ (st : Site) (port : Fin 7) (tag : BitVec 8) r, s.dev.reqOf st.val port.val tag.toNat = some r →
      let out := s.onDev fun d =>
        (({ d with reqs := d.reqs.erase r, deadTags := d.deadTags ++ [r] } : Dev).addSat F.FAB_STATUS_TIMEOUTS st.val 1).raise
          (evU bFAB st.val) 5 1 port.val
      ((∀ u seq off len, r.kind ≠ .read u seq off len) →
        s.Gives (exec (.fabTimeout st port tag) s) (out.onDev fun d => d.reqStatus r.kind 3)) ∧
      (∀ u seq off len, r.kind = .read u seq off len →
        s.Gives (exec (.fabTimeout st port tag) s) (out.readBack u seq off len [])))

/-- A circuit flit without an error leaves on every output that the entry of its input and slot names, in port order, and the
entry's idle time restarts (R248); it enters the next router two cycles later, four over a Hallway (R249). Without a valid entry
it is unclaimed at an input that is no gateway (R252), and waits at a gateway. The model's choices in it: log 69. -/
def Obligations.CircuitFlitsFollowTheirEntry : Prop :=
  ∀ (s : State) (site : Site) (port : Fin 7) (slot : Fin 8) (f : CircFlit),
    let i := site.val
    let ix := 8 * port.val + slot.val
    let e := sget (s.dev.rtr i).circ 0 ix
    (∀ x, s.dev.circTake i port.val slot.val f = some x → hasPort i port.val = true → s.dev.hopClamped i port.val = false →
      (∀ t, t ∈ i :: ((List.range 4).filter fun o => bitOf e (23 + o)).filterMap (neighbour i) →
        s.dev.rests (domFab (fieldOf t)) = false) →
      let out := s.onDev fun d =>
        let d := Dev.countFinds { d with circNet := d.circNet.erase x } i port.val [FlitFind.good]
        match x.kind with
        | some k => d.reqStatus k 0
        | none => d
      (bitOf e 31 = true → (s.dev.rtr i).deadPorts.contains port.val = false →
        s.Gives (exec (.circuitFlit site port slot ⟨f, []⟩) s)
          (((List.range 7).filter fun o => bitOf e (23 + o)).foldl (fun s o => s.circOut i slot.val x o)
            (out.onDev fun d => d.modRtr i fun r => { r with circ := sset r.circ 0 (circAt ix) d.now }))) ∧
      (bitOf e 31 = false → port.val ≠ 4 →
        s.Gives (exec (.circuitFlit site port slot ⟨f, []⟩) s) (out.onDev fun d => d.unclaimed i port.val)) ∧
      (bitOf e 31 = false → port.val = 4 → s.Gives (exec (.circuitFlit site port slot ⟨f, []⟩) s) s)) ∧
    (∀ (x : CircFlight) o t, o < 4 → neighbour i o = some t → (s.dev.rtr i).deadPorts.contains o = false →
      s.dev.hopShut i o = false →
      (s.circOut i slot.val x o).dev.circNet = s.dev.circNet ++
        [⟨t, backPort o, (slot.val + if (hallwayOf i o).isSome then 4 else 2) % 8, none, x.f, none⟩])

/-! The cluster units and Transom. -/

/-- The router unit and the key-value selector on the request that is next and that they accept (R173, R188 to R192, R203 to
R209): the message is taken and acknowledged; ROUTE sends its record on the unit's channel, PREDICT to Transom; UPDATE writes the
slot of its block and ROLLBACK the count and the mask alone; SELECT changes no byte and sends the chosen blocks. The model's
choices in it: log 7, 9, 16, 51. -/
def Obligations.UnitRequestsAreAnswered : Prop :=
  ∀ (s : State) (site : Site) (body : List Byte),
    let i := site.val
    let e0 := s.dev.takeUnit i 0 body
    let s1 := s.onDev fun d => d.takeUnit i 1 body
    let n := (byteAt body 2 + 1) * (byteAt body 3 / 8 % 8 + 1)
    let w := routeWork body
    let e1 := (e0.addSat F.CLU_UNIT_STATUS_RTU_OVERFLOW i w.2.1).addSat F.CLU_UNIT_STATUS_RTU_SHORT i w.2.2.1
    let e2 := if w.2.2.2 > 0 then (e1.addSat F.CLU_UNIT_STATUS_RTU_NAN i w.2.2.2).raise (evU bCLU i) 3 0 0 else e1
    let block := leAt body 16 2
    let tok := byteAt body 18
    let a := selSlot body block
    let dd := selD body
    s.dev.siteOut i = false →
    (s.dev.unitTurn i 0 body = true → e0.flag F.CLU_UNIT_CTRL_RTU_EN i = true → n ≤ 1020 → lenIs body (16 + 4 * n) = true → byteAt body 0 = 1 →
      exec (.routeRequest site body) s = .next (s.onDev fun _ =>
        let e := e2.cluSend i (e2.fld F.CLU_UNIT_CTRL_RTU_CHAN i) w.1
        if e.flag F.CLU_UNIT_CTRL_TRN_FWD i then e.toTrn i w.1 else e)) ∧
    (s.dev.unitTurn i 0 body = true → e0.flag F.CLU_UNIT_CTRL_RTU_EN i = true → n ≤ 1020 → lenIs body (16 + 4 * n) = true → byteAt body 0 = 2 →
      exec (.predictRequest site body) s = .next (s.onDev fun _ => e2.toTrn i w.1)) ∧
    (s.dev.unitTurn i 1 body = true → s1.dev.selOk i 0x11 body = true → block ≤ 4095 → tok ≤ 127 → lenIs body (32 + 2 * dd) = true →
      let r := s1.csmRead i a (32 + 2 * dd + 2 * (dd / 32))
      let keys := (List.range dd).map fun j => numOf .b16 (leAt body (32 + 2 * j) 2)
      (keys.any Num.isNan) = false →
      s.Gives (exec (.update site body) s)
        (r.1.putCsm i a (slotUpdate r.2.1 dd block tok (fun j => (Config.freeWord (r.1.dev.fresh + j)).toNat) keys))) ∧
    (s.dev.unitTurn i 1 body = true → s1.dev.selOk i 0x12 body = true → block ≤ 4095 → tok ≤ 127 → lenIs body 32 = true →
      let r := s1.csmRead i a 32
      let mask := leAt r.2.1 16 16 % 2 ^ tok
      s.Gives (exec (.rollback site body) s)
        ((r.1.putCsm i (a + 2) (leBytes 1 (popCount mask 128))).putCsm i (a + 16) (leBytes 16 mask))) ∧
    (s.dev.unitTurn i 1 body = true → s1.dev.selOk i 0x10 body = true → byteAt body 1 ≤ 7 → 1 ≤ leAt body 16 2 → leAt body 16 2 ≤ 4096 → 1 ≤ byteAt body 18 →
      byteAt body 18 ≤ 64 → byteAt body 19 % 16 ≤ 8 → b2n (bitOf (byteAt body 19) 7) + byteAt body 19 % 16 ≤ byteAt body 18 →
      lenIs body (32 + 2 * (byteAt body 1 + 1) * dd) = true →
      let g := byteAt body 1 + 1
      let qb := (List.range (g * dd)).map fun j => leAt body (32 + 2 * j) 2
      let qs := (List.range g).map fun h => ((qb.drop (h * dd)).take dd).map (numOf .b16)
      let r := s1.readSlots i dd (selSlot body) (leAt body 16 2)
      let scores := r.2.zipIdx.map fun x => blockScore x.2 dd x.1 qs qb
      let sel := selChoose (leAt body 16 2) (byteAt body 18) (byteAt body 19 % 16) (bitOf (byteAt body 19) 7)
        (fun b => byteAt (r.2.getD b []) 2 != 0) fun b => scores.getD b negInf
      s.Gives (exec (.select site body) s) (r.1.onDev fun d => d.cluSend i (byteAt body 3)
        ([0x13] ++ leBytes 2 sel.length ++ zeros 5 ++ takeZ 8 (body.drop 8) ++ sel.flatMap (leBytes 2))) ∧
      (∀ a, peek r.1.mem a = peek s.mem a))

/-- What a selection holds (R207): every chosen block exists and stands once, in rising order; the first block is chosen where
KEEP asks for it, and the most recent blocks are; no more blocks are chosen than the request allows; where it allows them all, every
block with a token is chosen. The model's choices in it:
log 9. -/
def Obligations.SelectionsHoldTheForcedBlocks : Prop :=
  ∀ (nblk nsel nrec : Nat) (keep : Bool) (full : Nat → Bool) (score : Nat → Int), b2n keep + nrec ≤ nsel → 0 < nblk →
    let xs := selChoose nblk nsel nrec keep full score
    (∀ b, b ∈ xs → b < nblk) ∧ xs.Pairwise (· < ·) ∧ xs.length ≤ nsel ∧
    (keep = true → 0 ∈ xs) ∧ (∀ b, b < nblk → nblk ≤ b + nrec → b ∈ xs) ∧
    (nblk ≤ nsel → ∀ b, b < nblk → full b = true → b ∈ xs)

/-- The choice of experts (R188, R189): at most k are chosen for a position, each of them exists, none is chosen twice, and none
has a NaN score or one of minus infinity. -/
def Obligations.RoutingChoosesDistinctExperts : Prop :=
  ∀ (k cap : Nat) (scores : List Nat) (cnt : SMap Nat) (ov : Nat),
    let r := routePick k cap scores ((routeCand scores).take (k + 8)) ([], cnt, ov)
    r.1.length ≤ k ∧ r.1.Nodup ∧ (∀ e, e ∈ r.1 → e < scores.length ∧ negInf < scoreKey (scores.getD e 0))

/-- The sampling unit on the record that is next (R173, R213 to R221): a DRAFT or NORM record of a new step starts it and is kept,
and the step goes on when all records are in; a MASS record is kept, and the last one picks a slice; the picked slice's TOKEN ends
the step with its STEP record; a timed-out step ends with status 1 and ASU_TIMEOUT; a write of 0 to the generator stores its reset
value (R218); a write of THR_MAX below T lowers T (R185); the deadline of a deferred fall applies it, and a setpoint that the frequency
no longer needs falls with it (R431), under a throttle at the lower of the two frequencies (R299, R443). The model's choices in it: log 8, 52. -/
def Obligations.SamplingAndThresholdCommands : Prop :=
  ∀ (s : State) (site : Site) (body : List Byte),
    let i := site.val
    let d := s.dev
    let e := d.takeUnit i 2 body
    let step := leAt body 4 4
    let x := (e.clu i).asu
    d.siteOut i = false →
    (∀ op, d.asuTurn i body = true → (d.clu i).asu.active = false → d.asuOk i op body = true → e.asuOk i op body = true → x.active = false →
      (e.clu i).asuLast ≤ step →
      let fresh : AsuStep := { AsuStep.init with active := true, step := step, token := leAt body 8 8, p := byteAt body 2 }
      (op = 0x20 → exec (.draft site body) s = .next (s.onDev fun _ =>
        ((e.modAsu i fun _ => fresh).modAsu i fun y =>
          if y.draft.isSome then y else { y with draft := some body }).asuTry i)) ∧
      (op = 0x21 → exec (.norm site body) s = .next (s.onDev fun _ =>
        ((e.modAsu i fun _ => fresh).modAsu i fun y =>
          if y.norms.any (fun r => r.1 == byteAt body 1) then y
          else { y with norms := y.norms ++ [(byteAt body 1, body)] }).asuTry i))) ∧
    (d.asuTurn i body = true → e.asuOk i 0x23 body = true → x.active = true → step = x.step → x.phase = 1 →
      (x.masses.any fun r => r.1 == byteAt body 1) = false →
      let n := e.fld F.CLU_ASU_CTRL_NSLICE i + 1
      let k := e.modAsu i fun y => { y with masses := y.masses ++ [(byteAt body 1, leAt body 16 4)] }
      exec (.mass site body) s = .next (s.onDev fun _ => if x.masses.length + 1 = n then k.asuMasses i n else k)) ∧
    (d.asuTurn i body = true → e.asuOk i 0x25 body = true → x.active = true → step = x.step → x.phase = 2 →
      (x.masses.all fun r => r.1 != byteAt body 1) = false →
      exec (.token site body) s = .next (s.onDev fun _ => e.asuEmit i (leAt body 16 4))) ∧
    ((d.clu i).asu.active = true → exec (.asuTimeout site) s = .next (s.onDev fun d =>
      ((d.asuEnd i 0xFF 1 []).addSat F.CLU_ASU_STATUS_TIMEOUTS i 1).raise (evU bCLU i) 4 1 2)) ∧
    (∀ v : Word, exec (.cluAsuState site v) s = .next (s.onDev fun d =>
      d.setR R.CLU_ASU_STATE i (if v = 0 then 0x9E3779B97F4A7C15 else v))) ∧
    (∀ v : BitVec 6, ∃ t, exec (.thrMax site v) s = .next t ∧ t.MemKept s ∧ t.dev.fld F.CLU_ZSK_CTRL_THR_MAX i = v.toNat ∧
      t.dev.fld F.CLU_ZSK_STATUS_THR_CUR i = min v.toNat (d.fld F.CLU_ZSK_STATUS_THR_CUR i) ∧
      (∀ (r : Reg) (w j : Nat), r.key w j ≠ R.CLU_ZSK_CTRL.key i 0 → r.key w j ≠ R.CLU_ZSK_STATUS.key i 0 →
        t.dev.getR r w j = d.getR r w j)) ∧
    (∀ f duty, (d.clu i).fallTo = some (f, duty) →
      (d.pwr.throttle = [] → exec (.freqFallDeadline site) s = .next (s.onDev fun d =>
        let g := ((d.setF F.CLU_PWR_FREQ i f).setF F.CLU_PWR_DUTY i duty).setF F.CLU_PWR_DEFERRED i 0
        let v := min 60 (vFor (g.slowest i) f)
        ((if v < g.fld F.CLU_PWR_VSET i then g.setVset i v else g).modClu i fun y =>
          { y with fallTo := none, steady := y.steady && duty == 8 }).showClk i)) ∧
      ((d.pwr.throttle.any fun t => t.2.any fun y => y.1 == i) = true →
        ∃ t, exec (.freqFallDeadline site) s = .next t ∧ t.MemKept s ∧ (t.dev.clu i).fallTo = none ∧
          t.dev.fld F.CLU_PWR_FREQ i = min f (d.fld F.CLU_PWR_FREQ i)))

/-- The threshold (R184 to R186): a tick moves T by one as the loop says, within its bounds, and the sums of the tick start again;
T never exceeds THR_MAX; a write of THR_MAX lowers a higher threshold to it with the write, and leaves every word of every core
and every memory as it is. A tick over the allocation that leaves T at THR_MAX counts in PINNED and lengthens the run of such
ticks, every other tick ends the run; after 50,000 of them in a row ZSK_PINNED is raised, and not before. -/
def Obligations.ThresholdStaysBelowItsMaximum : Prop :=
  (∀ (d : Dev) (site : Nat) (hot : Bool),
    let e := d.zskTick site hot
    let t := d.fld F.CLU_ZSK_STATUS_THR_CUR site
    let mx := d.fld F.CLU_ZSK_CTRL_THR_MAX site
    let x := d.clu site
    (d.flag F.CLU_ZSK_CTRL_MODE site = true → x.bcast ≠ 0 → e.fld F.CLU_ZSK_STATUS_THR_CUR site =
      min (max (if hot ∧ x.dropSum * 2 ^ d.fld F.CLU_ZSK_CTRL_DROP_TGT site ≤ x.allSum then t + 1 else t - 1)
        (d.fld F.CLU_ZSK_CTRL_THR_MIN site)) mx) ∧
    (d.flag F.CLU_ZSK_CTRL_MODE site = true → x.bcast = 0 → e.fld F.CLU_ZSK_STATUS_THR_CUR site = t) ∧
    (d.flag F.CLU_ZSK_CTRL_MODE site = false → e.fld F.CLU_ZSK_STATUS_THR_CUR site = mx) ∧
    ((e.clu site).bcast = 0 ∧ (e.clu site).dropSum = 0 ∧ (e.clu site).allSum = 0) ∧
    (t ≤ mx → e.fld F.CLU_ZSK_STATUS_THR_CUR site ≤ e.fld F.CLU_ZSK_CTRL_THR_MAX site) ∧
    (hot = true → e.fld F.CLU_ZSK_STATUS_THR_CUR site = e.fld F.CLU_ZSK_CTRL_THR_MAX site →
      (e.clu site).pinnedRun = (d.clu site).pinnedRun + 1 ∧
      e.fld F.CLU_ZSK_STATUS_PINNED site = min (d.fld F.CLU_ZSK_STATUS_PINNED site + 1) (2 ^ F.CLU_ZSK_STATUS_PINNED.width - 1)) ∧
    (hot = false ∨ e.fld F.CLU_ZSK_STATUS_THR_CUR site ≠ e.fld F.CLU_ZSK_CTRL_THR_MAX site →
      (e.clu site).pinnedRun = 0 ∧ e.fld F.CLU_ZSK_STATUS_PINNED site = d.fld F.CLU_ZSK_STATUS_PINNED site)) ∧
  (∀ (s : State) (site : Site) (v : BitVec 6), s.dev.siteOut site.val = false →
    ∃ t, exec (.thrMax site v) s = .next t ∧ t.MemKept s ∧ t.dev.cores = s.dev.cores ∧
      t.dev.fld F.CLU_ZSK_STATUS_THR_CUR site.val = min v.toNat (s.dev.fld F.CLU_ZSK_STATUS_THR_CUR site.val) ∧
      t.dev.fld F.CLU_ZSK_STATUS_THR_CUR site.val ≤ t.dev.fld F.CLU_ZSK_CTRL_THR_MAX site.val) ∧
  (∀ (s : State) (site : Site),
    (50000 ≤ (s.dev.clu site.val).pinnedRun → exec (.zskPinned site) s = .next (s.onDev fun d =>
      (d.modClu site.val fun y => { y with pinnedRun := 0 }).raise (evU bCLU site.val) 2 0 0)) ∧
    ((s.dev.clu site.val).pinnedRun < 50000 → exec (.zskPinned site) s = .next s))

/-- The generator of the sampling unit (R218): its next state by the three shifts of the manual, and never 0 from a state that is
not 0. -/
def Obligations.GeneratorStepsAsStated : Prop :=
  (∀ x : Word, xorshift x =
    (let a := x ^^^ (x <<< 13)
     let b := a ^^^ (a >>> 7)
     b ^^^ (b <<< 17))) ∧
  (∀ x : Word, xorshift x = 0 → x = 0)

/-- Transom on the record that is next (R173, R195 to R201, R211): a PREDICT record of a layer and token that is new counts its
experts, is kept, and acts on each expert; one that is late only counts LATE; a ROUTE record is remembered with its experts, and
counts those that its prediction met in HIT; a SKIP record drops the prediction of its layer and token; a hold that expires
unrouted counts UNUSED; a waiting stream starts in a free slot, and its wait counts from its start; a long wait raises
TRN_SLOT_WAIT; the tables take writes while EN is 0. The model's choices in it: log 22. -/
def Obligations.TransomCommandsTakeEffect : Prop :=
  ∀ (s : State) (body : List Byte),
    let d := s.dev
    let e := d.takeUnit 251 3 body
    let layer := byteAt body 1
    let token := leAt body 8 8
    let r := e.trnExperts body
    (d.unitTurn 251 3 body = true → e.flag F.TRN_CTRL_EN 0 = true →
      (e.trn.routes.contains (layer, token) = false → e.trnSeen layer token = none →
        let k := (r.1.addWrap F.TRN_COUNT0_PRED 0 r.2.length).modTrn fun t =>
          { t with preds := t.preds ++ [⟨layer, token, r.2, r.2, false, [], r.1.now⟩], seen := t.seen ++ [((layer, token), r.2)] }
        let g := r.2.foldl (fun d ix => d.trnAct true ix) k
        let woken := r.2.filter fun ix => expKind (g.trnExp ix) == 1 || expKind (g.trnExp ix) == 2
        exec (.predictRecord body) s = .next (s.onDev fun _ => (g.modTrn fun t =>
          { t with preds := t.preds.map fun p => if predIs layer token p then { p with woken := woken } else p }).trnShow)) ∧
      ((e.trn.routes.contains (layer, token) || (e.trnSeen layer token).isSome) = true →
        exec (.predictRecord body) s = .next (s.onDev fun _ => e.addSat F.TRN_COUNT1_LATE 0 1)) ∧
      (∃ t, exec (.routeRecord body) s = .next t ∧ t.MemKept s ∧ ((layer, token), r.2) ∈ t.dev.trn.live ∧
        (layer, token) ∈ t.dev.trn.routes ∧
        (∀ es, r.1.trnSeen layer token = some es →
          t.dev.fld F.TRN_COUNT0_HIT 0 = (r.1.fld F.TRN_COUNT0_HIT 0 +
            (r.2.filter fun ix => es.contains ix && expKind (r.1.trnExp ix) != 0).length) % 2 ^ F.TRN_COUNT0_HIT.width)) ∧
      (∀ p, bitsOf (sget e.trn.dir 0 layer) 0 9 ≠ 0 →
        (e.trn.preds.find? fun p => predIs layer token p && !p.routed) = some p →
        exec (.skipRecord body) s = .next (s.onDev fun _ =>
          let f := (e.addSat F.TRN_COUNT1_UNUSED 0 p.holds.length).modTrn fun t => { t with preds := t.preds.erase p }
          ((f.trnComplete layer token).trnTidy).trnDrain f.trn.waits.length))) ∧
    (∀ (l : BitVec 8) (tk : BitVec 64) (x : BitVec 8) p,
      let ix := (bitsOf (sget d.trn.dir 0 l.toNat) 16 14 + x.toNat) % 16384
      (d.trn.preds.find? fun p => predIs l.toNat tk.toNat p && p.holds.contains ix) = some p →
      (d.holdOver p ix = true → p.routed = false →
        exec (.trnHoldExpiry l tk x) s = .next (s.onDev fun d =>
          let f := (d.addSat F.TRN_COUNT1_UNUSED 0 1).modTrn fun t =>
            { t with preds := t.preds.map fun q => if q = p then { q with holds := q.holds.erase ix } else q }
          f.trnTidy.trnDrain f.trn.waits.length)) ∧
      (d.holdOver p ix = false → exec (.trnHoldExpiry l tk x) s = .next s)) ∧
    (∀ (ix : Fin 16384) t0 w k, d.trn.waits = (ix.val, t0) :: w → d.trnSlot = some k →
      exec (.slotWaitEnd ix) s = .next (s.onDev fun d =>
        let f := (d.modTrn fun t => { t with waits := w }).trnPlace false ix.val k
        (f.addSat F.TRN_STALL_SLOT_WAIT 0 (d.now - t0)).trnShow)) ∧
    (d.trn.waits ≠ [] → exec .trnSlotWait s = .next (s.onDev fun d => d.raise (evU bTRN 0) 2 0 0)) ∧
    (∀ v : BitVec 32, d.flag F.TRN_CTRL_EN 0 = false → exec (.trnTblData v) s = .next (s.onDev fun d =>
      d.putTrn (d.fld F.TRN_TBL_SEL_TABLE 0) (d.fld F.TRN_TBL_SEL_INDEX 0) v.toNat))

/-! Memory tiers. -/

/-- HBM streams (R318 to R323): with STRM_EN a request that Transom issued joins the queue; its start takes the lowest free buffer
of each face and empties the head, whatever other streams run, and one that cannot run completes FAILED; a face that is done gets
its arrival record, and its bytes stand in its CSM; the last face ends the stream; a stack that has failed and a face that is out
end it FAILED; a write of HBM_STG_FREE frees a reported buffer, and one that names another only counts; a long wait raises
HBM_STG_WAIT; a face whose cluster is out shows FACE_OUT. The model's choices in it: log 53. -/
def Obligations.StreamCommandsTakeEffect : Prop :=
  ∀ (s : State) (h : Fin 16) (face : Fin 2),
    let d := s.dev
    let i := h.val
    let f := face.val
    (∀ (desc : BitVec 14) (slot : BitVec 6),
      let r : StreamReq := ⟨desc.toNat, slot.toNat⟩
      let took (d : Dev) : Dev := d.modHbm i fun x => { x with asked := x.asked.erase r }
      (d.hbm i).asked.contains r = true → d.rests (domHbm i) = false →
      (d.flag F.HBM_CTRL_STRM_EN i = true → (d.hbm i).queue.length < 64 →
        exec (.streamRequest h desc slot) s = .next (s.onDev fun d =>
          ((took d).modHbm i fun x => { x with queue := x.queue ++ [r] }).hbmLook i)) ∧
      (d.flag F.HBM_CTRL_STRM_EN i = false →
        exec (.streamRequest h desc slot) s = .next (s.onDev fun d => (took d).streamFail i r ((took d).failFaces i)))) ∧
    (∀ desc slot, (d.hbm i).asked.contains ⟨desc.toNat, slot.toNat⟩ = false → exec (.streamRequest h desc slot) s = .next s) ∧
    (∀ r q b0 b1, (d.hbm i).queue = r :: q → d.streamBad i r = false → d.soleFace i = 2 →
      d.stgFree i 0 = some b0 → d.stgFree i 1 = some b1 → b0 < 16 → b1 < 16 →
      exec (.streamStart h) s = .next (s.onDev fun d =>
        ((d.modHbm i fun x => { x with queue := q, waited := false }).modHbm i fun x =>
          { x with runs := x.runs ++ [⟨r, descLen (sget (d.hbm i).descs 0 r.desc), b0, b1, 2, false, false⟩],
                   taken := x.taken ++ [(0, b0, false), (1, b1, false)] }).hbmLook i)) ∧
    (∀ r q, (d.hbm i).queue = r :: q → d.streamBad i r = true →
      exec (.streamStart h) s = .next (s.onDev fun d =>
        ((d.streamFail i r (d.failFaces i)).modHbm i fun x => { x with queue := q, waited := false }).hbmLook i)) ∧
    (∀ (buf : BitVec 4) r, ((d.hbm i).runs.find? fun r => r.buf f == buf.toNat && !r.done f) = some r →
      let b := buf.toNat
      let site := hbmFace i f
      let o := d.fld F.HBM_STG_CFG_BASE i f * 64 + b * d.stgBytes i f
      let a := 0x100000000000 + i * 0x1000000000 + bitsOf (sget (d.hbm i).descs 0 r.req.desc) 28 27 * 512
      let t := s.stagePieces (a + 256 * f) site o r.len
      let r' : StreamRun := { r with done0 := r.done0 || f == 0, done1 := r.done1 || f == 1 }
      let e := (t.dev.arrival i f r.req.desc r.req.slot b (r.len * 256) false false).modHbm i fun x =>
        { x with taken := x.taken.map fun t => if t.1 = f ∧ t.2.1 = b then (t.1, t.2.1, true) else t
                 runs := x.runs.map fun q => if q = r then r' else q }
      (d.hbmServes i = true → d.isOut i 0 = false → d.isOut i 1 = false → r.sole = 2 →
        (r.done (1 - f) = false → s.Gives (exec (.streamFaceDone h ⟨face, buf⟩) s) (t.onDev fun _ => e)) ∧
        (r.done (1 - f) = true → s.Gives (exec (.streamFaceDone h ⟨face, buf⟩) s) (t.onDev fun _ =>
          ((e.modHbm i fun x => { x with runs := x.runs.erase r' }).streamEnd i r.req.slot false).hbmLook i))) ∧
      (d.hbmServes i = false → s.Gives (exec (.streamFaceDone h ⟨face, buf⟩) s) (s.onDev fun d => d.streamsFail i)) ∧
      (d.hbmServes i = true → d.isOut i 0 = true → r.needs 0 = true →
        s.Gives (exec (.streamFaceDone h ⟨face, buf⟩) s) (s.onDev fun d => d.faceFails i 0))) ∧
    (∀ buf : BitVec 4, (d.hbm i).taken.contains (f, buf.toNat, true) = true →
      exec (.hbmStgFree h face buf) s = .next (s.onDev fun d => d.modHbm i fun x =>
        { x with taken := x.taken.erase (f, buf.toNat, true) })) ∧
    (∀ buf : BitVec 4, (d.hbm i).taken.contains (f, buf.toNat, true) = false →
      exec (.hbmStgFree h face buf) s = .next (s.onDev fun d => d.addSat F.HBM_STRM_STATUS_BAD_FREE i 1)) ∧
    ((d.hbm i).queue ≠ [] → d.stgReady i = false →
      exec (.hbmStgWait h) s = .next (s.onDev fun d => d.raise (evU bHBM i) 5 0 0)) ∧
    (d.siteOut (hbmFace i f) = true →
      exec (.hbmFaceOut h face) s = .next (s.onDev fun d => (d.faceOut i f).faceFails i f))

/-- HBM upkeep (R309 to R317): a refresh shows the temperature and, above 85 °C, the doubled rate, and changes no byte; a scrub
reads a sector, changes no byte, writes back one that is corrected and leaves one that is uncorrectable marked; a maintenance
step, STEP_GAP after the last, makes the channel's queued soft repairs; a spare start with a spare left begins the copy, and its
end maps the logical channel to the spare; OFFLINE takes READY to OFFLINE and fails the streams; a retrain runs while OFFLINE and
ends there. -/
def Obligations.HbmUpkeepCommandsTakeEffect : Prop :=
  ∀ (s : State) (h : Fin 16),
    let d := s.dev
    let i := h.val
    (∀ ch bank (temp : BitVec 8), exec (.hbmRefresh h ch bank temp) s = .next (s.onDev fun d =>
      (d.setF F.HBM_STATUS_TEMP i temp.toNat).setB F.HBM_STATUS_REFRESH_2X i (decide (temp.toNat > 85)))) ∧
    (∀ sector (bad : Fin 3) report, d.flag F.HBM_CTRL_SCRUB_EN i = true → d.hbmServes i = true → sector * 32 < 0xBA0000000 →
      let a := 0x100000000000 + i * 0x1000000000 + sector * 32
      let t := ((s.eccFind a bad.val report).hbmRead a 32).1.scrubBack a
      s.Gives (exec (.hbmScrub h ⟨sector, bad, report⟩) s) t ∧ t.mem = s.mem ∧
      (max (sget s.ecc 0 a) (if report then 2 else bad.val) = 1 → sget t.ecc 0 a = 0) ∧
      (max (sget s.ecc 0 a) (if report then 2 else bad.val) = 2 → sget t.ecc 0 a = 2)) ∧
    (∀ ch : Fin 32, d.flag F.HBM_CTRL_STEP_EN i = true →
      ((∀ t, (d.hbm i).lastStep = some t → t + d.stepGap i ≤ d.now) →
        exec (.maintenanceStep h ch) s = .next (s.onDev fun d => d.modHbm i fun x =>
          { x with repairs := x.repairs.filter fun r => r.1 != ch.val, lastStep := some d.now })) ∧
      (∀ t, (d.hbm i).lastStep = some t → d.now < t + d.stepGap i → exec (.maintenanceStep h ch) s = .next s)) ∧
    (∀ (lch : BitVec 5) (share : BitVec 3),
      let e := (d.setF F.HBM_SPARE_CTRL_LCH i lch.toNat).setF F.HBM_SPARE_CTRL_SHARE i share.toNat
      e.flag F.HBM_SPARE_CTRL_BUSY i = false → e.fld F.HBM_SPARE_CTRL_LCH i ≤ 30 →
      exec (.hbmSpareStart h lch share) s = .next (s.onDev fun _ =>
        if e.hbmSpare i then (e.setF F.HBM_SPARE_CTRL_BUSY i 1).modHbm i fun x =>
          { x with move := some (e.fld F.HBM_SPARE_CTRL_LCH i) }
        else e.setF F.HBM_SPARE_CTRL_RESULT i 2)) ∧
    (∀ l, (d.hbm i).move = some l → l ≤ 30 →
      ∃ t, exec (.spareCopyDone h) s = .next t ∧ t.MemKept s ∧ t.dev.hbmMap i l = d.hbmMap i 31 ∧ t.dev.hbmMap i 31 = 0 ∧
        (∀ m, m ≤ 30 → m ≠ l → t.dev.hbmMap i m = d.hbmMap i m) ∧ t.dev.flag F.HBM_STATUS_SPARE_USED i = true ∧
        t.dev.flag F.HBM_SPARE_CTRL_BUSY i = false ∧ (t.dev.hbm i).move = none) ∧
    (∀ v, v = true ∨ (d.hbm i).retraining = false → exec (.hbmOffline h v) s = .next (s.onDev fun d =>
      let e := d.setB F.HBM_CTRL_OFFLINE i v
      let st := e.fld F.HBM_STATUS_STATE i
      let g := if v && st = 2 then e.setF F.HBM_STATUS_STATE i 3 else if !v && st = 3 then e.setF F.HBM_STATUS_STATE i 2 else e
      if v then g.streamsFail i else g)) ∧
    ((d.hbm i).retraining = true → d.fld F.HBM_STATUS_STATE i = 1 →
      ∃ t, exec (.hbmOffline h false) s = .next t ∧ t.MemKept s ∧ (t.dev.hbm i).retraining = false ∧
        t.dev.fld F.HBM_STATUS_STATE i = 2 ∧ (t.dev.hbm i).repairs = (d.hbm i).repairs) ∧
    (d.flag F.HBM_CTRL_OFFLINE i = true → d.fld F.HBM_STATUS_STATE i ≠ 4 →
      exec (.hbmRetrain h) s = .next (s.onDev fun d => (d.setF F.HBM_STATUS_STATE i 1).modHbm i fun x => { x with retraining := true })) ∧
    ((d.hbm i).retraining = true → d.fld F.HBM_STATUS_STATE i ≠ 4 →
      exec (.hbmRetrainDone h) s = .next (s.onDev fun d =>
        (d.modHbm i fun x => { x with retraining := false, repairs := [] }).setF F.HBM_STATUS_STATE i
          (if (d.modHbm i fun x => { x with retraining := false, repairs := [] }).flag F.HBM_CTRL_OFFLINE i then 3 else 2)))

/-- The Cellar (R328 to R331): a scrub writes back a corrected burst of its own channel, and changes no byte; a soft repair takes
the first queued row, and counts where the device has room for it; a channel that fails is FAILED and raises CEL_CH_FAIL; HPPR
while OFFLINE clears the count; OFFLINE takes READY to OFFLINE and back, and ends a retrain when it is cleared (log 108); a retrain
runs while OFFLINE and ends there. The model's
choices in it: log 23. -/
def Obligations.CellarCommandsTakeEffect : Prop :=
  ∀ (s : State) (ch : Fin 12),
    let d := s.dev
    let c := ch.val
    (∀ burst (bad : Fin 3), d.flag F.CEL_CTRL_SCRUB_EN c = true → d.celServes c = true → 6 ≤ d.celN →
      burst * 64 < d.celN * d.celS → d.celChan (burst * 64) = c →
      let a := 0x200000000000 + burst * 64
      let t := ((s.eccFind a bad.val false).celRead a 64).1.scrubBack a
      s.Gives (exec (.celScrub ch ⟨burst, bad⟩) s) t ∧ t.mem = s.mem ∧
      (max (sget s.ecc 0 a) bad.val = 1 → sget t.ecc 0 a = 0) ∧ (max (sget s.ecc 0 a) bad.val = 2 → sget t.ecc 0 a = 2)) ∧
    (∀ row r, (d.cel c).repairs = row :: r →
      exec (.celSoftPpr ⟨ch, true⟩) s = .next (s.onDev fun d =>
        (d.modCel c fun x => { x with repairs := r, rowCe := x.rowCe.filter fun e => e.1 != row }).addSat F.CEL_STATUS_SPPR c 1) ∧
      exec (.celSoftPpr ⟨ch, false⟩) s = .next (s.onDev fun d => d.modCel c fun x => { x with repairs := r })) ∧
    (d.fld F.CEL_STATUS_STATE c ≠ 4 →
      exec (.celChFail ch) s = .next (s.onDev fun d => (d.setF F.CEL_STATUS_STATE c 4).raise (evU bCEL c) 3 2 0)) ∧
    (d.flag F.CEL_CTRL_OFFLINE c = true →
      exec (.hppr ch) s = .next (s.onDev fun d => d.setF F.CEL_STATUS_SPPR c 0)) ∧
    (exec (.celOffline ch true) s = .next (s.onDev fun d =>
      let e := d.setB F.CEL_CTRL_OFFLINE c true
      if e.fld F.CEL_STATUS_STATE c = 2 then e.setF F.CEL_STATUS_STATE c 3 else e)) ∧
    (∃ t, exec (.celOffline ch false) s = .next t ∧ t.MemKept s ∧ t.dev.flag F.CEL_CTRL_OFFLINE c = false ∧
      (t.dev.cel c).retraining = false ∧ (t.dev.cel c).repairs = (d.cel c).repairs ∧
      t.dev.fld F.CEL_STATUS_STATE c =
        (if d.fld F.CEL_STATUS_STATE c = 3 ∨ (d.fld F.CEL_STATUS_STATE c = 1 ∧ (d.cel c).retraining = true) then 2
          else d.fld F.CEL_STATUS_STATE c) ∧
      (∀ (r : Reg) (v i : Nat), r.key v i ≠ R.CEL_CTRL.key c 0 → r.key v i ≠ R.CEL_STATUS.key c 0 →
        t.dev.getR r v i = d.getR r v i)) ∧
    (d.flag F.CEL_CTRL_OFFLINE c = true → d.fld F.CEL_STATUS_STATE c = 3 →
      exec (.celRetrain ch) s = .next (s.onDev fun d => (d.setF F.CEL_STATUS_STATE c 1).modCel c fun x => { x with retraining := true })) ∧
    ((d.cel c).retraining = true → d.fld F.CEL_STATUS_STATE c = 1 →
      exec (.celRetrainDone ch) s = .next (s.onDev fun d =>
        (d.modCel c fun x => { x with retraining := false }).setF F.CEL_STATUS_STATE c
          (if (d.modCel c fun x => { x with retraining := false }).flag F.CEL_CTRL_OFFLINE c then 3 else 2)))

/-- An uncorrectable sector of HBM (R308, R310): a read that meets one carries zeros in every byte and reports it; a read that
meets none carries the bytes of memory. No read changes a byte or a mark. -/
def Obligations.HbmReadsCarryZerosOnErrors : Prop :=
  ∀ (s : State) (a n : Nat),
    let r := s.hbmRead a n
    let bad := (granules 32 a n).any fun g => sget s.ecc 0 g == 2
    r.1.MemKept s ∧ r.1.pending = s.pending ∧ r.2.2 = bad ∧ r.2.1 = (if bad then zeros n else s.get a n)

/-! Sill and the sideband. -/

/-- Requests and answers on Sill (R336 to R344): a flit on a module that does not carry Sill is ignored, one that finds the main
band of UCIe asleep only wakes it, one whose CRC fails is only counted; a good flit that comes next in FSEQ is taken with those that waited for it, one that comes ahead waits, one that came
before is dropped; a header slot gives back the request it was made from; a WR that has its turn and is well formed writes its bytes
where its address points; an RD is answered with the bytes or with the status; CPL puts the data of a read into its command; CPLE
and a timeout end the command; WAKE wakes where SB_EN allows; a sideband access reaches a register of UCI; a malformed request is
counted and has no other effect, but that an RD is answered with ADDRESS. UCIe modules (R336, Table 9-28): a module that fails
leaves Sill, UCI_MODULE_DOWN is raised, and UCI_LINK_DOWN when none is left; a retrained module that is not disabled carries Sill;
DISABLE 1 takes it out of Sill. The model's choices in it: log 38, 41, 49, 64, 70, 88. -/
def Obligations.SillCommandsTakeEffect : Prop :=
  ∀ (s : State),
    let d := s.dev
    (∀ f : SillFlit, d.flag F.UCI_STATUS_IN_SILL f.module.val = false → exec (.sillFlit f) s = .next s) ∧
    (∀ f : SillFlit, d.flag F.UCI_STATUS_IN_SILL f.module.val = true → 2 ≤ (d.dom domUci).level →
      exec (.sillFlit f) s = .next (s.onDev fun d => d.demand domUci true)) ∧
    (∀ f : SillFlit, d.flag F.UCI_STATUS_IN_SILL f.module.val = true → (d.dom domUci).level < 2 → f.crcOk = false →
      exec (.sillFlit f) s = .next (s.onDev fun d =>
        (d.addSat F.UCI_STATUS_CRC_ERR f.module.val 1).addSat F.UCI_STATUS_REPLAYS f.module.val 1)) ∧
    (∀ f : SillFlit, d.flag F.UCI_STATUS_IN_SILL f.module.val = true → (d.dom domUci).level = 0 → d.rests domUci = false →
      f.crcOk = true →
      let n := flitSeq (f.slots.headD 0)
      let ans (e : Dev) := exec (.sillFlit f) s = .next (s.onDev fun _ => e.sillPump.sillIdle)
      (n = d.sill.seq → ans ((d.flitTake f.slots).flitDrain d.sill.ahead.length)) ∧
      (∀ k, 0 < k → k < 32768 → n = (d.sill.seq + k) % 65536 → d.sill.seq < 65536 → (d.sill.ahead.any fun x => x.1 == n) = false →
        ans (d.modSill fun x => { x with ahead := x.ahead ++ [(n, f.slots)] })) ∧
      (∀ k, 32768 ≤ k → k < 65536 → n = (d.sill.seq + k) % 65536 → d.sill.seq < 65536 → ans d)) ∧
    (∀ r : SillReq, sillOfHead (sillHead r) = { r with data := [] }) ∧
    (∀ r : SillReq, r.ty = 1 → sillTurn r d.sill.inq = true → sillBad r = false → r.addr.toNat + sillLen r ≤ hostRo →
      d.pwr.lost.contains domHost = false → d.sillWaits r.addr.toNat = [] →
      ∃ t, exec (.wr r) s = .next t ∧ t.SameMem s ∧
        (∀ x, peek t.dev.jmem x = if r.addr.toNat ≤ x ∧ x < r.addr.toNat + sillLen r then r.data.getD (x - r.addr.toNat) 0
          else peek d.jmem x)) ∧
    (∀ r : SillReq, r.ty = 2 → sillTurn r d.sill.inq = true → sillBad r = false → d.sillWaits r.addr.toNat = [] →
      let out := s.onDev fun d => d.sillTake r
      let q := out.rangeRead s.dev.hostPlace r.addr.toNat (sillLen r)
      s.Gives (exec (.rd r) s) (q.1.onDev fun d =>
        ((if q.2.2 = 4 then d.sillAddrErr else d).sillAnswer r q.2.2 q.2.1).sillIdle)) ∧
    (∀ (r : SillReq) h, sillTurn r d.sill.inq = true → sillBad { r with ty := 3 } = false →
      (d.hostReads.find? fun h => h.tag == r.tag.toNat) = some h →
      exec (.cpl r r.data) s = .next (s.onDev fun d =>
        ({ d.sillTake r with hostReads := d.hostReads.erase h } : Dev).modCmd h.seq fun c =>
          { c with buf := c.buf.take h.off ++ takeZ h.len r.data ++ c.buf.drop (h.off + h.len), left := c.left - 1 })) ∧
    (∀ (r : SillReq) h, sillTurn r d.sill.inq = true → sillBad { r with ty := 4 } = false →
      (d.hostReads.find? fun h => h.tag == r.tag.toNat) = some h →
      exec (.cple r r.status) s = .next (s.onDev fun d =>
        let g : Dev := { d.sillTake r with hostReads := d.hostReads.erase h }
        g.cmdEnd h.seq (readFail r.status.toNat) (g.cmdMoved h.seq) 0)) ∧
    (∀ (tag : BitVec 10) h, (d.hostReads.find? fun h => h.tag == tag.toNat) = some h →
      exec (.hostReadTimeout tag) s = .next (s.onDev fun d => d.cmdEnd h.seq 8 (d.cmdMoved h.seq) 0)) ∧
    (d.flag F.PCH_WAKE_CTRL_SB_EN 0 = true → d.pstate ≠ 4 → s.Gives (exec .wake s) (s.onDev fun d => d.deviceWake 2)) ∧
    (∀ (a : BitVec 48) (v : Word) inst off, d.pstate ≠ 4 → d.hostPlace a.toNat = .reg bUCI inst off → off % 8 = 0 →
      s.Gives (exec (.sidebandRegisterAccess true a true v) s) (s.regWrite bUCI inst off 8 v.toNat) ∧
      s.Gives (exec (.sidebandRegisterAccess false a true v) s) (s.onDev fun d =>
        (d.regRead bUCI inst off 8).1.emit (.regRead a.toNat (BitVec.ofNat 64 (d.regRead bUCI inst off 8).2)))) ∧
    (∀ r : SillReq, sillTurn r d.sill.inq = true → sillBad { r with ty := 1 } = true →
      s.Gives (exec (.wr r) s) (s.onDev fun d => ((d.sillTake { r with ty := 1 }).malformed).sillIdle)) ∧
    (∀ r : SillReq, sillTurn r d.sill.inq = true → sillBad { r with ty := 2 } = true →
      s.Gives (exec (.rd r) s) (s.onDev fun d =>
        ((d.sillTake { r with ty := 2 }).malformed.sillAnswer { r with ty := 2 } 4 []).sillIdle)) ∧
    (∀ r : SillReq, sillTurn r d.sill.inq = true → sillBad { r with ty := 3 } = true →
      exec (.cpl r r.data) s = .next (s.onDev fun d => (d.sillTake r).malformed)) ∧
    (∀ m : Fin 4,
      (∀ lost, d.flag F.UCI_STATUS_IN_SILL m.val = false →
        exec (.uciModuleDown ⟨m, lost⟩) s = .next (s.onDev fun d => d.setF F.UCI_STATUS_STATE m.val 4)) ∧
      (∀ lost : List (BitVec 16), d.flag F.UCI_STATUS_IN_SILL m.val = true →
        let e := ((d.setF F.UCI_STATUS_STATE m.val 4).moduleOut m.val).raise (evU bUCI m.val) 1 1 0
        exec (.uciModuleDown ⟨m, lost⟩) s = .next (s.onDev fun _ =>
          (if e.fld F.UCI_STATUS_MODULES 0 = 0 then e.raise (evU bUCI 0) 2 5 0 else e).sillReplay m.val
            (lost.map (·.toNat)))) ∧
      (d.flag F.UCI_CTRL_DISABLE m.val = false →
        ∃ t, exec (.uciRetrain m) s = .next t ∧ t.MemKept s ∧ t.dev.fld F.UCI_STATUS_STATE m.val = 2 ∧
          t.dev.flag F.UCI_STATUS_IN_SILL m.val = true ∧
          (∀ (r : Reg) (v i : Nat), r.key v i ≠ R.UCI_STATUS.key m.val 0 → r.key v i ≠ R.UCI_STATUS.key 0 0 →
            t.dev.getR r v i = d.getR r v i)) ∧
      (d.flag F.UCI_STATUS_IN_SILL m.val = false →
        exec (.uciDisable m true) s = .next (s.onDev fun d =>
          (d.setF F.UCI_CTRL_DISABLE m.val 1).setF F.UCI_STATUS_STATE m.val 0)) ∧
      (d.flag F.UCI_CTRL_DISABLE m.val = true →
        ∃ t, exec (.uciDisable m false) s = .next t ∧ t.dev.flag F.UCI_CTRL_DISABLE m.val = false ∧
          t.dev.flag F.UCI_STATUS_IN_SILL m.val = true))

/-! Host commands. -/

/-- The command ring, the lanes and the host rings (R348 to R354, R361, R364, R378): a new entry that must wait counts once;
one that the conditions allow is accepted and HEAD moves on, where the host window rests only once it has woken; a command that may start starts, a session command of a SOLO or
LEAD device after the switch to its session, and one of a MIRROR ends with CANNOT_RUN; one past its deadline ends with
DEADLINE; NOP completes; RING_RESET clears HEAD and the PHASE bits, and its end lets the engine examine again; EN, 1 only in
READY, and PAUSE are stored; HEAD of a host ring moves only inside what the ring holds, and its reset needs EN 0; the first unlagged journal version
raises its lag event. The model's choices in it: log 19, 59. -/
def Obligations.CommandEngineTakesEffect : Prop :=
  ∀ (s : State) (seq : BitVec 64) (ring : Fin 3),
    let d := s.dev
    let n := seq.toNat
    let r := ring.val
    (d.rests domHost = false → d.flag F.CMD_STATUS_RESETTING 0 = false → d.headNew = true → d.canAccept = false →
      d.accWaited = false →
      exec .commandEntryExamine s = .next (s.onDev fun d =>
        ({ (d.addSat F.CMD_STATUS_ACC_WAITS 0 1) with accWaited := true } : Dev))) ∧
    (d.rests domHost = true → exec .commandAccept s = .next (s.onDev fun d => d.demand domHost true)) ∧
    (d.rests domHost = false → d.canAccept = true → d.headNew = true → d.flag F.CMD_STATUS_RESETTING 0 = false →
      let k := d.fld F.CMD_RING_HEAD_INDEX 0
      exec .commandAccept s = .next (s.onDev fun d =>
        ((if k + 1 < d.ringLen then d.setF F.CMD_RING_HEAD_INDEX 0 (k + 1)
          else (d.setF F.CMD_RING_HEAD_INDEX 0 0).setF F.CMD_RING_HEAD_PHASE 0 (1 - d.fld F.CMD_RING_HEAD_PHASE 0)).accept
          d.headEntry).examine)) ∧
    (∀ c, d.cmdOf n = some c → c.started = false → d.mayStart c = true → d.flag F.CMD_CTRL_EN 0 = true →
      (ceOp c.entry = 4 ∨ ceDl c.entry = false ∨ d.cmdNt ≤ ceDeadline c.entry) →
      (isSessOp (ceOp c.entry) = false → s.Gives (exec (.commandStart seq) s) (s.onDev fun d => d.startCmd n)) ∧
      (isSessOp (ceOp c.entry) = true → d.role = 3 →
        s.Gives (exec (.commandStart seq) s) (s.onDev fun d => d.complete n 9 0 0)) ∧
      (isSessOp (ceOp c.entry) = true → ceOp c.entry ≠ 1 → d.role = 1 ∨ d.role = 2 → (d.sess (ceSess c.entry)).state = 1 →
        d.nwt.window = false → d.saveSleeps (d.activeSess.toList ++ [ceSess c.entry]) = [] →
        s.Gives (exec (.commandStart seq) s) ((s.sessionSwitch (ceSess c.entry)).onDev fun d => d.startCmd n))) ∧
    (∀ c, d.cmdOf n = some c → c.started = false → ceOp c.entry ≠ 4 → ceDl c.entry = true → ceDeadline c.entry ≤ d.cmdNt →
      exec (.commandDeadline seq) s = .next (s.onDev fun d => d.complete n 5 0 0)) ∧
    (∀ c, d.running n 0 = some c → exec (.cmdNop seq) s = .next (s.onDev fun d => d.complete n 0 0 0)) ∧
    (exec .ringReset s = .next (s.onDev fun d =>
      let e := (d.setF F.CMD_RING_HEAD_INDEX 0 0).setF F.CMD_RING_HEAD_PHASE 0 1
      let g := e.each (List.range e.ringLen) fun x i =>
        let v := leAt (x.getJ (e.ringAt + 64 * i) 1) 0 1
        if v % 2 = 1 then x.putJ (e.ringAt + 64 * i) (leBytes 1 (v - 1)) else x
      ({ (g.setF F.CMD_STATUS_RESETTING 0 1) with accWaited := false } : Dev))) ∧
    (exec .ringResetDone s = .next (s.onDev fun d => (d.setF F.CMD_STATUS_RESETTING 0 0).examine)) ∧
    (d.fld F.BSQ_STATUS_STATE 0 ≠ 2 → exec (.en true) s = .next s) ∧
    (∀ v, v = false ∨ d.fld F.BSQ_STATUS_STATE 0 = 2 → d.flag F.CMD_CTRL_EN 0 ≠ v →
      exec (.en v) s = .next (s.onDev fun d => (d.setB F.CMD_CTRL_EN 0 v).examine)) ∧
    (∀ v, d.flag F.CMD_CTRL_PAUSE 0 ≠ v →
      exec (.pause v) s = .next (s.onDev fun d => (d.setB F.CMD_CTRL_PAUSE 0 v).examine)) ∧
    (∀ v : Word,
      let o := bitsOf v.toNat 0 22
      let e : Dev := { d with ntfOut := d.ntfOut.filter fun x => x != r }
      let new := (e.setF F.CMD_HRING_HEAD_OFFSET 0 o r).setF F.CMD_HRING_HEAD_WRAP 0 (bitsOf v.toNat 22 1) r
      let past := bitsOf v.toNat 22 1 = d.fld F.CMD_HRING_TAIL_WRAP 0 r ∧ d.fld F.CMD_HRING_TAIL_OFFSET 0 r < o
      (o % 64 = 0 → o < e.hrSize r → ¬ past → new.hrUsed r ≤ e.hrUsed r →
        exec (.cmdHringHead ring v) s = .next (s.onDev fun _ => new.examine)) ∧
      (o % 64 ≠ 0 ∨ e.hrSize r ≤ o ∨ past ∨ e.hrUsed r < new.hrUsed r →
        exec (.cmdHringHead ring v) s = .next (s.onDev fun _ => e.setF F.CMD_HRING_CFG_HEAD_REJ 0 1 r))) ∧
    (d.flag F.CMD_HRING_CFG_EN 0 r = false → exec (.hostRingReset ring) s = .next (s.onDev fun d =>
      (d.setR R.CMD_HRING_HEAD 0 0 r).setR R.CMD_HRING_TAIL 0 0 r)) ∧
    (∀ w, (d.jwait.find? fun w => !w.lagged) = some w → exec .jnlMirrorLag s = .next (s.onDev fun d =>
      ({ d with jwait := d.jwait.map fun x => if x = w then { x with lagged := true } else x } : Dev).record
        (evU bJNL 0) 1 1 0))

/-- Sessions and the commands that act on them (R355 to R363, R370, R371, R403 to R408): a SESSION_OPEN in range opens its
session with the capacity that its allocation leaves; SESSION_CLOSE frees it; a PREFILL advances the position by its count; a
DECODE starts; a permit takes the next step number; the tokens of the running step's record go on; a token record is written
once its fence is open; CANCEL ends a command that has not started; COPY moves its part; SNAPSHOT writes the header and the
state; RESTORE takes a snapshot whose digest holds, and one that cannot be written whole changes no session and no byte. The model's choices in it: log 25, 42, 43, 72. -/
def Obligations.SessionCommandsTakeEffect : Prop :=
  ∀ (s : State) (seq : BitVec 64) (c : CmdS),
    let d := s.dev
    let n := seq.toNat
    let e := c.entry
    let i := ceSess e
    let x := d.sess i
    (d.running n 1 = some c → d.openOk i e = true → d.inHbm (ceP e 0) (bitsOf (ceP e 1) 0 40) = true →
      d.cmdWaits (ceP e 0) = [] →
      let len := bitsOf (ceP e 1) 0 40
      let cap := (len - 0x400000) / d.img (fun m => m.kvBytes)
      let fence := bitsOf (ceP e 1) 48 4
      let rng := if ceP e 3 = 0 then 0x9E3779B97F4A7C15 else ceP e 3
      s.Gives (exec (.sessionOpen seq) s) ((s.put (ceP e 0) (d.openBytes rng)).onDev fun d =>
        ((d.modSess i fun _ =>
          { SessS.init with state := 1, base := ceP e 0, len := len, mode := bitsOf (ceP e 2) 0 2,
                            temp := bitsOf (ceP e 2) 32 32, cap := cap, params := [ceP e 0, ceP e 1, ceP e 2, ceP e 3],
                            fence := if fence ≠ 0 then fence else if d.img (fun m => b2n m.fenceStrict) = 1 then 1 else 2,
                            rng := rng }).showSess i).complete n 0 cap 0)) ∧
    (d.running n 1 = some c → d.openOk i e = false →
      exec (.sessionOpen seq) s = .next (s.onDev fun d => d.complete n 3 0 0)) ∧
    (d.running n 2 = some c → exec (.sessionClose seq) s = .next (s.onDev fun d =>
      (((d.modSess i fun y => { SessS.init with lastSeq := y.lastSeq }).showSess i).showActive).complete n 0 0 0)) ∧
    (d.running n 3 = some c →
      let k := bitsOf (ceP e 1) 0 32
      0 < k → k ≤ 1048576 → awBad (ceP e 0) = false → x.pos + k ≤ x.cap → awHost (ceP e 0) = true → c.left = 0 →
      4 * k ≤ c.buf.length → s.Gives (exec (.prefill seq) s) (s.onDev fun d =>
        ((d.modSess i fun y => { y with pos := x.pos + k }).showSess i).cmdEnd c.seq 0 (x.pos + k) 0)) ∧
    (d.running n 4 = some c → d.dec = none → bitsOf (ceP e 0) 0 32 ≠ 0 → bitsOf (ceP e 0) 32 3 = 0 →
      exec (.decode seq) s = .next (s.onDev fun d => d.decodeStart n e (bitsOf (ceP e 0) 0 32) 0)) ∧
    (∀ y, d.dec = some y → d.permitOk y = true → exec .stepPermit s = .next (s.onDev fun d =>
      let g : Dev := { d with pair := { d.pair with freeStep := false } }
      (g.modDec fun z => { z with permit := true, stepNo := y.stepNo + 1 }).permitMsg (y.stepNo + 1))) ∧
    (∀ body y,
      let g := d.takeUnit 245 4 body
      d.unitTurn 245 4 body = true → g.dec = some y → byteAt body 0 = 0x26 → y.permit = true → leAt body 4 4 = y.stepNo % 2 ^ 32 → byteAt body 18 = 0 →
      exec (.stepRecord body) s = .next (s.onDev fun _ => g.stepTokens y (stepToks body))) ∧
    (∀ y t ts, d.dec = some y → y.waiting = t :: ts → d.fenceOpen y t = true →
      exec .tokenRecord s = .next (s.onDev fun d => d.putToken y t)) ∧
    (∀ t, d.running n 5 = some c → d.cmdOf (ceP e 0) = some t → t.started = false →
      exec (.cancel seq) s = .next (s.onDev fun d =>
        (d.complete t.seq 1 0 (if ceOp t.entry = 4 then 2 else 0)).complete n 0 1 0)) ∧
    (d.running n 0x10 = some c →
      let len := bitsOf (ceP e 2) 0 40
      let dst := ceP e 1
      let k := min (len - c.moved) (4096 - (awAddr dst + c.moved) % 4096)
      let r := s.putAw dst c.moved (c.buf.take k)
      awBad (ceP e 0) = false → awBad dst = false → len % 8 = 0 → c.cancelled = false → 0 < k → awHost (ceP e 0) = true →
      c.left = 0 → k ≤ c.buf.length → d.awSleeps dst = [] →
      (awHost dst = true ∨ d.captureWaits (awAddr dst + c.moved) k = false) → r.2 = 0 →
      s.Gives (exec (.copy seq) s) (r.1.onDev fun d =>
        let g := d.modCmd c.seq fun y => { y with moved := c.moved + k, buf := [], left := 0 }
        if c.moved + k = len then g.cmdEnd c.seq 0 len 0 else g)) ∧
    (d.running n 6 = some c →
      let w := ceP e 0
      let k := d.snapLen x.pos
      let r := s.saveActive.devRead x.base (k - 64)
      let q := r.1.putAw w 0 (d.snapHdr x.pos r.2.1 ++ r.2.1)
      awBad w = false → k ≤ bitsOf (ceP e 1) 0 40 → d.saveSleeps [i] = [] → awHost w = true → r.2.2 = 0 →
      s.Gives (exec (.snapshot seq) s) (q.1.onDev fun d => d.cmdEnd c.seq 0 k 0)) ∧
    (d.running n 7 = some c →
      let room := bitsOf (ceP e 1) 0 40
      let len := leAt c.buf 8 8
      awBad (ceP e 0) = false → awHost (ceP e 0) = true → c.left = 0 → c.buf.length = len → 64 ≤ len → len ≤ room →
      let pos := leAt c.buf 24 8
      let body := c.buf.drop 64
      leAt (c.buf.take 64) 0 4 = 0x534E4150 → leAt (c.buf.take 64) 8 8 = len → leAt c.buf 0 4 = 0x534E4150 → leAt c.buf 4 2 = 1 →
      len = d.snapLen pos → leAt c.buf 16 8 = d.man.imageId → pos ≤ x.cap →
      (c.buf.take 64).drop 32 = sha3 body → d.captureWaits x.base len = false → d.saveSleeps [i] = [] →
      ((s.devWrite x.base body).2 = 0 →
        s.Gives (exec (.restore seq) s) (((s.devWrite x.base body).1.sessionLoad i).onDev fun g =>
          ((g.modSess i fun y => { y with pos := pos }).showSess i).cmdEnd c.seq 0 pos 0)) ∧
      ((s.devWrite x.base body).2 ≠ 0 →
        s.Gives (exec (.restore seq) s) (s.onDev fun g => (g.cmdAddrErr (s.devWrite x.base body).2).cmdEnd c.seq 6 0 0)))

/-- REGION_RELOAD, TEST and POWER_PREF (R466, R543, R544, R595): a reload whose conditions hold applies its kind, takes the new
manifest as the loaded one and completes with the sections that it loaded; one that does not completes with its status, raises
RELOAD_FAIL and leaves every target as it was; a TEST without HOLD on a target that exists visits a unit of it that may be tested, passes over every other unit, and
completes with the passes and the confirmed failures, one of no passes or of no such target completes with BAD_PARAM, and one with
HOLD asks for a window; a POWER_PREF in range stores its
entry and answers the old one and the cap. The model's choices in it: log 3, 32, 77. -/
def Obligations.DeviceCommandsComplete : Prop :=
  ∀ (s : State) (seq : BitVec 64) (c : CmdS),
    let d := s.dev
    let n := seq.toNat
    let e := c.entry
    (∀ img check st, d.running n 0x20 = some c → s.reloadBad e img check = none →
      let m := manifestOf s.flash (rrCopy e)
      s.Gives (exec (.regionReload seq img check st) s)
        ((s.reloadApply img (rrKind e) (rrRange e) (rrRoot e) st.toNat).onDev fun d =>
          ((d.adopt m (match d.boot.image with
              | some old => mergeImage old img (rrKind e) (rrRange e)
              | none => img) (rrCopy e) d.boot.n).complete n 0 (m.reloadCount (rrKind e) (rrRange e))
            (if rrKind e = 3 then st.toNat else 0)).bootDom)) ∧
    (∀ img check st v, d.running n 0x20 = some c → s.reloadBad e img check = some v →
      s.Gives (exec (.regionReload seq img check st) s)
        (s.onDev fun d => ((d.complete n v 0 0).raise (evU bBSQ 0) 6 1 0).bootDom)) ∧
    (∀ (v : UnitVisit) cores clusters ldos, cores ++ clusters ++ ldos = [v] → d.running n 0x21 = some c →
      bitsOf (ceP e 1) 0 16 ≠ 0 → d.testTarget (ceP e 0) = true →
      bitOf (ceP e 0) 33 = false → d.inTarget (ceP e 0) v.unit = true → d.visitOk v.unit = true → v.passes < 2 ^ 64 →
      s.Gives (exec (.test seq cores clusters ldos) s) ((s.visit v 4).onDev fun g =>
        g.vc1Done.complete n 0 v.passes (if d.confirms v then 1 else 0))) ∧
    (∀ (v : UnitVisit) cores clusters ldos, cores ++ clusters ++ ldos = [v] → d.running n 0x21 = some c →
      bitsOf (ceP e 1) 0 16 ≠ 0 → d.testTarget (ceP e 0) = true →
      bitOf (ceP e 0) 33 = false → d.inTarget (ceP e 0) v.unit = false ∨ d.visitOk v.unit = false →
      s.Gives (exec (.test seq cores clusters ldos) s) (s.onDev fun d => d.vc1Done.complete n 0 0 0)) ∧
    (∀ cores clusters ldos, d.running n 0x21 = some c → bitsOf (ceP e 1) 0 16 = 0 ∨ d.testTarget (ceP e 0) = false →
      exec (.test seq cores clusters ldos) s = .next (s.onDev fun d => d.complete n 3 0 0)) ∧
    (∀ cores clusters ldos, d.running n 0x21 = some c → bitsOf (ceP e 1) 0 16 ≠ 0 → d.testTarget (ceP e 0) = true →
      bitOf (ceP e 0) 33 = true → d.nwt.window = false → exec (.test seq cores clusters ldos) s = .next (s.onDev fun d =>
        (d.modNwt fun x => { x with test := some (ceP e 0) }).windowAsk)) ∧
    (d.running n 0x22 = some c → bitOf (ceP e 0) 32 = false → bitOf (ceP e 0) 6 = false → bitsOf (ceP e 0) 8 2 ≠ 3 →
      bitsOf (ceP e 0) 24 6 ≤ 36 → bitsOf (ceP e 1) 0 17 = 0 →
      exec (.powerPref seq) s = .next (s.onDev fun d =>
        let ph := bitsOf (ceP e 0) 0 6
        let g := d.modPwr fun p => { p with prefs := sset p.prefs 1 ph (prefNew (ceP e 0)) }
        g.complete n 0 (d.prefEntry ph)
          (g.effCap (g.pwr.pendSel.getD (g.fld F.PWR_CAP_SEL 0)) (g.pwr.pendSw.getD (g.fld F.PWR_CAP_SW_CAP 0)))))

/-! Links and the pair. -/

/-- Chip-to-chip links (R386 to R400): on a link that is UP a block with more than 15 wrong symbols sets NAK, one out of order
behind a NAK has no effect, the next in order is accepted with its packet, corrected symbols count on their lanes; an ACK item
frees the block that it covers and returns credit; the timers send NAK or ACK items; a fast retrain counts, and its good end goes
UP on the lanes found good; LANE items name the spare, set the send side's map and are kept for the receive side, and a lane that
retrains becomes the spare; a SPAN link forwards a message; SLEEP is sent; a wake pattern wakes its quad, is repeated while data
waits, and counts as spurious when no data follows. The model's choices in it: log 54, 56, 86. -/
def Obligations.LinkCommandsTakeEffect : Prop :=
  ∀ (s : State) (l : Fin 48) (quad : Fin 12),
    let d := s.dev
    let n := l.val
    let x := d.lnk n
    (∀ b : LinkBlk, d.linkIsUp n = true → 15 < b.errs.eraseDups.length → x.nakDue = false →
      s.Gives (exec (.linkBlock l b) s) (s.onDev fun d =>
        ((d.addSat F.LNK_ERR_UNCORR n 1).modLnk n fun x => { x with nakDue := true }).ackOut n true)) ∧
    (∀ b : LinkBlk, d.linkIsUp n = true → b.errs = [] → (blockCells b.msg).all quietCell = false →
      blockBsn b.msg ≠ x.expBsn ∨ (blockCells b.msg).contains .reserved = true → x.nakDue = true →
      s.Gives (exec (.linkBlock l b) s) s) ∧
    (∀ (b : LinkBlk) p, d.linkIsUp n = true → b.errs = [] → blockCells b.msg = [.data p, .idle, .idle, .idle, .idle] →
      blockBsn b.msg = x.expBsn →
      s.Gives (exec (.linkBlock l b) s) ((((s.onDev fun d => d.modLnk n fun x =>
        { x with expBsn := (x.expBsn + 1) % 1024, nakDue := false, accepted := x.accepted + 1 }).linkCell n (.data p)).onDev
          fun d => let g := d.grantDue n; if (g.lnk n).accepted ≥ 64 then g.ackOut n false else g))) ∧
    (∀ (b : LinkBlk) (e : Fin 544), d.linkIsUp n = true → b.errs = [e] →
      blockCells b.msg = [.idle, .idle, .idle, .idle, .idle] →
      s.Gives (exec (.linkBlock l b) s) (s.onDev fun d => (d.laneErrs n [e.val]).laneLook n)) ∧
    (∀ (bsn : BitVec 10) (cr : BitVec 16) a r, d.linkIsUp n = true → x.replay = a :: r → bsn.toNat = (a.1 + 1) % 1024 →
      a.1 < 1024 → x.sleepSent = false → x.resume = false →
      exec (.ackItem l false bsn cr) s = .next (s.onDev fun d =>
        ((d.modLnk n fun x => { x with replay := r, resume := false, sleepSent := false }).setF F.LNK_STATUS_CREDITS n
          (min 256 (d.fld F.LNK_STATUS_CREDITS n + cr.toNat))).linkGo n)) ∧
    (d.linkIsUp n = true → x.nakDue = true → exec (.nakResendTimer l) s = .next (s.onDev fun d => d.ackOut n true)) ∧
    (d.linkIsUp n = true → x.accepted ≠ 0 → exec (.ackSendTimer l) s = .next (s.onDev fun d => d.ackOut n false)) ∧
    (d.linkIsUp n = true →
      let g := ((d.setF F.LNK_STATUS_STATE n 1).addSat F.LNK_ERR_RETRAINS n 1).modLnk n fun x =>
        { x with retraining := true, nakRun := 0 }
      (x.replay ≠ [] → exec (.fastRetrain l) s = .next (s.onDev fun _ => g)) ∧ exec (.linkRetrain l) s = .next (s.onDev fun _ => g)) ∧
    (∀ lanes : BitVec 18, d.fld F.LNK_STATUS_STATE n = 1 → x.retraining = true →
      let good := d.goodRx n lanes.toNat
      let tx := goodTx lanes.toNat
      8 ≤ tx.length → 8 ≤ good.length → x.halfDue = false → exec (.fastRetrainEnd l true lanes) s = .next (s.onDev fun d =>
        ((((d.lanesSet n good).txSet n tx).setF F.LNK_STATUS_STATE n 2).modLnk n fun x =>
          { x with retraining := false, resume := true }).ackOut n false)) ∧
    (∀ good : List Nat, good.length ≤ 9 → (d.lanesSet n good).fld F.LNK_STATUS_GOOD_LANES n = good.length ∧
      (d.lanesSet n good).flag F.LNK_STATUS_HALF n = (x.halfDue || decide (good.length < 8)) ∧
      ((d.txSet n good).lnk n).txHalf = decide (good.length < 8)) ∧
    (∀ pos : Fin 8, d.linkIsUp n = true → d.flag F.LNK_STATUS_SPARE_OK n = true → x.asked = none →
      exec (.laneSwap l pos) s = .next (s.onDev fun d =>
        (d.modLnk n fun x => { x with asked := some pos.val }).linkItem n (.lane false (BitVec.ofNat 8 pos.val) (BitVec.ofNat 8 (d.fld F.LNK_LANE_SPARE n)) 0))) ∧
    (∀ (pos : Fin 8) (phys : Fin 9), d.linkIsUp n = true →
      let b := (x.nextBsn + 16) % 1024
      exec (.laneRequest l pos phys) s = .next (s.onDev fun d =>
        (d.modLnk n fun x => { x with txGrant := some (pos.val, phys.val, b) }).linkItem n
          (.lane true (BitVec.ofNat 8 pos.val) (BitVec.ofNat 8 phys.val) (BitVec.ofNat 16 b)))) ∧
    (∀ (pos : Fin 8) (phys : Fin 9) (b : BitVec 10), d.linkIsUp n = true → x.expBsn ≠ b.toNat →
      exec (.laneGrant l pos phys b) s = .next (s.onDev fun d =>
        d.modLnk n fun x => { x with grant := some (pos.val, phys.val, b.toNat) })) ∧
    (∀ lane : Fin 9, x.laneTrain = some lane.val → exec (.laneRetrainDone l lane true) s = .next (s.onDev fun d =>
      ((d.modLnk n fun x => { x with laneTrain := none }).setF F.LNK_LANE_SPARE n lane.val).setF F.LNK_STATUS_SPARE_OK n 1)) ∧
    (∀ lane : BitVec 4, d.linkIsUp n = true → d.flag F.LNK_STATUS_SPARE_OK n = true → x.asked = none → lane.toNat = d.fld F.LNK_LANE_SPARE n →
      exec (.retrainLane l lane) s = .next (s.onDev fun d =>
        ((d.setF F.LNK_LANE_SPARE n 15).setF F.LNK_STATUS_SPARE_OK n 0).modLnk n fun x =>
          { x with laneTrain := some lane.toNat })) ∧
    (∀ p : Packet,
      let e := (d.depart (lnkFace n) 15 p).ejected (lnkFace n) p
      p.ty.toNat = 4 → e.fld F.LNK_CTRL_ROLE n = 2 → e.flag F.LNK_CTRL_FWD_EN n = true → e.spanOpen n = true →
      exec (.spanForward l p) s = .next (s.onDev fun _ => e.fwdSend n p)) ∧
    (d.linkIsUp n = true → x.sleepSent = false → d.quadHeld (n / 4) = false →
      exec (.linkSleep l) s = .next (s.onDev fun d => (d.linkItem n .sleep).modLnk n fun x => { x with sleepSent := true })) ∧
    ((∃ k, k ∈ quadLinks quad.val ∧ d.fld F.LNK_STATUS_STATE k = 3) ∨ (d.dom (domQuad (4 * quad.val))).level ≠ 0 → (d.lnk (4 * quad.val)).ignoreUntil ≤ d.now →
      exec (.wakePattern quad) s = .next (s.onDev fun d =>
        ((d.modLnk (4 * quad.val) fun x => { x with wakeAt := some d.now, sawData := false }).demand
          (domQuad (4 * quad.val)) true).quadUp quad.val)) ∧
    (d.fld F.LNK_STATUS_STATE n = 3 → x.txq ≠ [] →
      exec (.wakePatternRepeat l) s = .next (s.onDev fun d => d.emit (.wakePattern n))) ∧
    (∀ t, (d.lnk (4 * quad.val)).wakeAt = some t → (d.lnk (4 * quad.val)).sawData = false →
      (d.lnk (4 * quad.val)).spurious < 7 → exec (.spuriousWake quad) s = .next (s.onDev fun d =>
        d.modLnk (4 * quad.val) fun x => { x with wakeAt := none, spurious := x.spurious + 1 }))

/-- What a link block carries comes out again (R382 to R385): its BSN, and its cells, idle, data, control or reserved. -/
def Obligations.LinkBlocksRoundTrip : Prop :=
  (∀ i : LinkItem, itemOf (itemBytes i) = i) ∧
  (∀ (bsn : Nat) (cells : List LinkCell), bsn < 1024 → cells.length = 5 →
    (∀ is, LinkCell.ctrl is ∈ cells → is.length = 4) →
    blockBsn (blockMsg bsn cells) = bsn ∧ blockCells (blockMsg bsn cells) = cells)

/-- The redundant pair (R376, R401 to R420): a first beat of a partner shows its role; a SOLO device sends beats and pulses; a
pulse of a failed partner makes a LEAD SOLO and a MIRROR STALE; the ages of a SOLO device that hears nothing stand at their
maximum; a WAITING device that JOIN_WAIT ends is SOLO by the image; a LEAD without links becomes SOLO; a MACK moves the
mirrored mark; a MIRROR sends MACK, applies the next record of each kind, goes STALE over a gap or an unanswered request, and
takes the start and the end of a resync, which a SOLO device serves; FENCE, JOIN and SOLO move the role. The model's choices in
it: log 26, 28, 29, 85. -/
def Obligations.PairCommandsTakeEffect : Prop :=
  ∀ (s : State) (l : Fin 48),
    let d := s.dev
    let n := l.val
    let at_ := (d.getR R.CMD_PAIR_MSEQ 0).toNat
    (∀ role echo sync term num ans power nt image, d.linkIsUp n = true → d.fld F.LNK_CTRL_ROLE n ≠ 1 →
      sget d.pair.lastBeat 0 n = 0 → d.term ≤ BitVec.toNat term →
      s.Gives (exec (.beat l (.beat role echo sync term num ans power nt image)) s) (s.onDev fun d =>
        (d.modPair fun p => { p with lastBeat := sset p.lastBeat 0 n (d.now + 1) }).setF F.LNK_STATUS_FAR_ROLE n role.toNat)) ∧
    (d.role = 1 → d.silent = false → exec .beatTimer s = .next (s.onDev fun d =>
      let g := d.modPair fun p => { p with beatNo := (p.beatNo + 1) % 2 ^ 32 }
      (g.each (g.mirrorLinks ++ g.spanLinks) fun e k => e.quietOut k (e.beatItem false 0)).emit (.pulse false))) ∧
    (∀ width, 300 ≤ width → width ≤ 600 → d.pair.wireAt = none →
      (d.role = 2 → exec (.hbtInPulse width) s = .next (s.onDev fun d =>
        (d.modPair fun p => { p with wireAt := some d.now }).leadSolo)) ∧
      (d.role = 3 → exec (.hbtInPulse width) s = .next (s.onDev fun d =>
        (d.modPair fun p => { p with wireAt := some d.now }).stale))) ∧
    (d.role = 1 → (∀ k, k < 48 → d.fld F.LNK_STATUS_FAR_ROLE k = 7) → d.pair.linkAt = none → d.pair.wireAt = none →
      s.Gives (exec .ageCheck s) (s.onDev fun d =>
        ((d.setF F.CMD_PAIR_AGE_LINK 0 0xFFFFFFFF).setF F.CMD_PAIR_AGE_WIRE 0 0xFFFFFFFF).setF F.CMD_PAIR_STATUS_FAR_ROLE 0 7)) ∧
    (d.role = 0 → d.failsafed = false → d.pair.waitDone = false → d.imageRole = 1 →
      exec .joinWaitExpiry s = .next (s.onDev fun d => d.setRole 1 0)) ∧
    (d.role = 2 → d.mirrorLinks = [] → exec .mlinkTmo s = .next (s.onDev fun d => d.leadSolo)) ∧
    (∀ m : BitVec 64, d.fld F.LNK_CTRL_ROLE n = 1 → d.role = 2 → at_ < min m.toNat d.lastMseq →
      exec (.mack l m) s = .next (s.onDev fun d => d.mackIn m.toNat)) ∧
    (d.role = 3 → d.pair.started = true → exec .mackInterval s = .next (s.onDev fun d => d.sendMack)) ∧
    (∀ m : BitVec 64, d.role = 3 → d.pair.started = true → m.toNat = at_ + 1 → d.pair.pending = [] →
      (∀ addr data, s.Gives (exec (.mirrorWrite m addr data) s)
        ((s.applyRec m.toNat 1 0 (leBytes 8 addr.toNat ++ data)).onDev fun d => d.modPair fun p => { p with gapAt := none })) ∧
      (∀ e, s.Gives (exec (.mirrorJournal m e) s)
        ((s.applyRec m.toNat 2 0 e).onDev fun d => d.modPair fun p => { p with gapAt := none })) ∧
      (∀ (i : Fin 16) body, s.Gives (exec (.mirrorStep m i body) s)
        ((s.applyRec m.toNat 3 i.val body).onDev fun d => d.modPair fun p => { p with gapAt := none })) ∧
      (∀ (i : Fin 16) body, s.Gives (exec (.mirrorSession m i body) s)
        ((s.applyRec m.toNat 4 i.val body).onDev fun d => d.modPair fun p => { p with gapAt := none })) ∧
      (∀ (i : Fin 16) body, s.Gives (exec (.mirrorCommand m i body) s)
        ((s.applyRec m.toNat 5 i.val body).onDev fun d => d.modPair fun p => { p with gapAt := none }))) ∧
    (∀ t, d.role = 3 → d.pair.gapAt = some t → exec .mseqGap s = .next (s.onDev fun d => d.stale)) ∧
    (∀ term, d.fld F.LNK_CTRL_ROLE n = 1 → d.role = 1 → d.imageRole ≠ 0 →
      s.Gives (exec (.resyncRequest l term) s) (s.resyncStart n)) ∧
    (∀ (term : BitVec 32) t, d.fld F.LNK_CTRL_ROLE n = 1 → d.role = 3 → d.pair.reqAt = some t →
      exec (.resyncStart l term) s = .next (s.onDev fun d =>
        (((d.setF F.CMD_PAIR_STATUS_TERM 0 term.toNat).setF F.CMD_PAIR_STATUS_SYNC 0 1).setR R.CMD_PAIR_MSEQ 0 0).modPair fun p =>
          { p with started := true, reqAt := none, pending := [], gapAt := none, mirCmd := none, mirStep := none })) ∧
    (∀ term, d.fld F.LNK_CTRL_ROLE n = 1 → d.role = 3 → d.pair.started = true →
      exec (.resyncDone l term) s = .next (s.onDev fun d =>
        (d.setF F.CMD_PAIR_STATUS_SYNC 0 2).holdIdle)) ∧
    (∀ t, d.role = 3 → d.pair.reqAt = some t →
      exec .resyncNoStart s = .next (s.onDev fun d => (d.modPair fun p => { p with reqAt := none }).stale)) ∧
    (d.role = 2 → exec .pairFence s = .next (s.onDev fun d => d.fence)) ∧
    (d.failsafed = false → d.fld F.BSQ_STATUS_STATE 0 ≠ 4 → d.pstate = 0 → d.role = 1 ∨ d.role = 4 ∨ d.role = 5 → exec .join s = .next (s.onDev fun d =>
      (d.setRole 0 0).modPair fun p => { p with waitDone := false, configRaised := false, reqAt := none, started := false })) ∧
    (d.failsafed = false → d.fld F.BSQ_STATUS_STATE 0 ≠ 4 → d.pstate = 0 → d.role = 0 ∨ d.role = 4 ∨ d.role = 5 → exec .solo s = .next (s.onDev fun d =>
      (d.setF F.CMD_PAIR_STATUS_TERM 0 (d.term + 1)).setRole 1 0))

/-! Power. -/

/-- Power delivery (R428 to R443): the status of a regulator is read at an alert, and four reads without an answer count and are
an event; fewer phases lower the limits of Table 11-6, and 17 or fewer lose the field; a sense frame that the controller takes as
valid ends HOLD and shows VMIN; a failed LDO takes its cluster out; a failed fabric LDO leaves the load to the other; a field loss
isolates the field; rail 17 or 18 puts the die in reset, and an HBM rail takes its stacks; a power-up that fits is admitted, one
that does not waits; a throttle ends with the clocks that it lowered. The model's choices in it: log 59. -/
def Obligations.PowerDeliveryCommandsTakeEffect : Prop :=
  ∀ (s : State) (field : FieldN) (site : Site),
    let d := s.dev
    let f := field.val
    let i := site.val
    let g := fieldOf i
    let k := localIx i
    (d.fieldLost f = false →
      exec (.avsStatusAlert field true) s = .next (s.onDev fun d =>
        (d.avs f 0 0xE false 0).modPwr fun p => { p with avsDead := p.avsDead.filter (· != f) }) ∧
      exec (.avsStatusAlert field false) s = .next (s.onDev fun d =>
        (((d.each (List.range 4) fun d _ => d.avs f 0 0xE false 0).addSat F.FLD_FSC_STATUS_AVS_FAIL f 1).record (evU bFLD f) 5 0
          detField).modPwr fun p => { p with avsDead := f :: p.avsDead.filter (· != f) })) ∧
    (∀ n : BitVec 5, d.fieldLost f = false → d.fld F.FLD_RAIL_STATUS_PHASES f ≤ n.toNat → 17 < n.toNat →
      s.Gives (exec (.phaseStatusRead field true n) s) (s.lostEnd
        ((((d.avsRead f 1 0 true).setF F.FLD_RAIL_STATUS_PHASES f n.toNat).setF F.FLD_RAIL_LIMIT_ILIM_CONT f
          ((if n.toNat = 19 then 209000 else if n.toNat = 18 then 198000 else 220000) / 2000)).setF
          F.FLD_RAIL_LIMIT_ILIM_PEAK f ((if n.toNat = 19 then 285000 else if n.toNat = 18 then 270000 else 300000) / 2000)))) ∧
    (∀ n : BitVec 5, d.fieldLost f = false → n.toNat ≤ 17 →
      s.Gives (exec (.phaseStatusRead field true n) s) (s.lostEnd
        ((((d.avsRead f 1 0 true).setF F.FLD_RAIL_STATUS_PHASES f n.toNat).shed f).fieldLoss f))) ∧
    (∀ (vmin : BitVec 10) (ifwd : BitVec 4), d.fieldLost f = false → d.pstate ≠ 3 →
      bitOf (d.fld F.PWR_RAIL_STATUS_FIELD_PG 0) f = true →
      exec (.fscFrame field vmin ifwd true true) s = .next (s.onDev fun d =>
        let e := (((d.modPwr fun p => { p with fscBad := sset p.fscBad 0 f 0 }).setB F.FLD_RAIL_STATUS_HOLD f false).steer f).setF
          F.FLD_RAIL_STATUS_VMIN f vmin.toNat
        let vt := e.fld F.FLD_RAIL_STATUS_VTGT f
        let w := (e.fld F.FLD_FSC_STATUS_LAST_WORD f / 2 ^ 28 + 1) % 16 * 2 ^ 28 + vmin.toNat * 2 ^ 18 + vt * 2 ^ 8 +
          ifwd.toNat * 16 + b2n (e.pwr.droop.contains f) * 8
        ((e.setF F.FLD_FSC_STATUS_LAST_WORD f w).modPwr fun p => { p with droop := p.droop.filter (· != f) }).emit
          (.fsc f (fscFrame w)))) ∧
    (d.fieldLost g = false → d.fld F.FLD_LDO_STATE g k = 2 →
      s.Gives (exec (.ldoFail site .low) s) (s.lostEnd
        ((((d.setF F.FLD_LDO_STATE g 4 k).setF F.FLD_LDO_UV g 1 k).loseCluster i).raise (evU bFLD g) 3 3 k))) ∧
    (d.fieldLost f = false → d.fld F.FLD_FABLDO_STATE0 f ≠ 3 → d.fld F.FLD_FABLDO_STATE1 f = 1 →
      s.Gives (exec (.fabldoFail field false) s) (s.lostEnd
        (((d.setF F.FLD_FABLDO_STATE0 f 3).setF F.FLD_FABLDO_STATE1 f 2).raise (evU bFLD f) 4 1 detField))) ∧
    (d.fld F.BSQ_STATUS_STATE 0 ≠ 0 → s.Gives (exec (.fieldLoss field) s) (s.lostEnd
      ((d.setFbit F.PWR_RAIL_STATUS_FIELD_PG 0 f false).fieldLoss f))) ∧
    (∀ rail : Fin 20, rail.val = 17 ∨ rail.val = 18 → s.Gives (exec (.railLoss rail) s) (s.dieReset false)) ∧
    (∀ rail : Fin 20, 8 ≤ rail.val → rail.val < 11 → d.starting = false → s.Gives (exec (.railLoss rail) s) (s.lostEnd
      (((({ d with pch := { d.pch with rails := false, down := rail.val :: d.pch.down } } : Dev).setFbit
        F.PWR_RAIL_STATUS_RAIL_PG 0 rail.val false).each
        ((edgeStacks (rail.val - 8)).map domHbm) fun d k => d.loseDom k).raise
        (evU bPWR 0) 2 5 rail.val))) ∧
    (∀ (q : FieldN) (row col : Fin 4), siteOf q.val (4 * row.val + col.val) = i → d.siteOut i = false → 3 ≤ (d.dom i).level →
      (d.dom i).exiting = false → (d.dom i).entering = none → d.pwr.upWait = [] → d.upHeld i = false →
      (d.inrushFits g 0 = true → exec (.powerUpRequest q row col) s = .next (s.onDev fun d =>
        ((d.modPwr fun p => { p with reserve := (p.reserve.filter fun x => decide (d.now < x.2 + 2000)) ++ [(g, d.now)],
                                     upWait := p.upWait.filter fun x => x.1 != i }).setF F.FLD_LDO_STATE g 1 k).setDom i
          fun x => { x with exiting := true, demand := false })) ∧
      (d.inrushFits g 0 = false → d.hasDeadline i = false → exec (.powerUpRequest q row col) s = .next (s.onDev fun d =>
        d.modPwr fun p => { p with upWait := [(i, false)] }))) ∧
    (∀ t, (d.pwr.throttle.find? fun x => x.1 == f) = some t → exec (.throttleEnd field) s = .next (s.onDev fun d =>
      let e := d.each t.2 fun e x => if e.siteOut x.1 then e else (e.setF F.CLU_PWR_FREQ x.1 x.2).showClk x.1
      e.modPwr fun p => { p with throttle := p.throttle.erase t, thrEnd := sset p.thrEnd 0 f (e.now + 1) }))

/-- Power control (R450 to R471): a tick that is due takes a waiting POLICY, counts, and keeps the sum of the clusters' and the edge
blocks' powers, and one that is not due does nothing; a ramp slot puts the
pending caps in force; SW_CAP and a stable selection wait for it; curtail counts its assertions, and chatter within 100 µs; a
release ends it; the events of R460, R465 and R468 come when their runs are full; a quiet cluster ramps, or waits for the
window, which a new window clears; the field gain moves by a quarter of the difference, inside its limits; 118 °C trips
THERMTRIP_N. The model's choices in it: log 11, 20. -/
def Obligations.PowerControlCommandsTakeEffect : Prop :=
  ∀ (s : State) (field : FieldN) (site : Site),
    let d := s.dev
    let f := field.val
    let i := site.val
    (∀ m : TickMeas, d.pstate ≠ 4 → d.tickDue = true →
      let g := s.policyIn
      let e := g.dev
      s.Gives (exec (.estimationTick m) s) (g.lostEnd (e.estTick m)) ∧ (e.estTick m).pwr.ticks = e.pwr.ticks + 1 ∧
      (e.estTick m).pwr.tickNt = e.ntAt bPWR 0 + 1 ∧
      (e.estTick m).pwr.hist = ((((e.tickClus m).map e.cluPower).sum + e.edgePower m) :: e.pwr.hist).take 16 ∧
      (d.boot.policy = none → g = s)) ∧
    (∀ m : TickMeas, d.pstate = 4 ∨ d.tickDue = false → exec (.estimationTick m) s = .next s) ∧
    (d.slotDue = false → exec .rampSlot s = .next s) ∧
    (d.slotDue = true → exec .rampSlot s = .next (s.onDev fun d =>
      let d := d.capsDue.modPwr fun p => { p with slotNt := d.ntAt bPWR 0 + 1 }
      let sel := d.pwr.pendSel.getD (d.fld F.PWR_CAP_SEL 0)
      let eff := d.effCap sel (d.pwr.pendSw.getD (d.fld F.PWR_CAP_SW_CAP 0))
      let e := ((d.setF F.PWR_CAP_SEL 0 sel).setF F.PWR_CAP_EFFECTIVE 0 eff).modPwr fun p =>
        { p with pendSel := none, pendSw := none, slot := true, slope := min p.slope (eff * 1000) }
      ((e.setF F.PWR_CAP_PENDING_VALID 0 0).setF F.PWR_CAP_PENDING_SEL 0 0).setF F.PWR_SLOT_NEXT 0 e.nextSlot)) ∧
    (∀ v : BitVec 16, exec (.swCap v) s = .next (s.onDev fun d =>
      let w := if v = 0 then 0 else if v.toNat < 600 then 600 else if v.toNat > 2400 then 2400 else v.toNat
      ((d.setF F.PWR_CAP_SW_CAP 0 w).modPwr fun p => { p with pendSw := some w }).showPendCap)) ∧
    (∀ v : Fin 8, d.pstate ≠ 4 → v.val ≠ d.fld F.PWR_CAP_SEL 0 → exec (.capSelStable v) s = .next (s.onDev fun d =>
      (d.modPwr fun p => { p with pendSel := some v.val }).showPendCap)) ∧
    (d.pstate ≠ 4 → d.flag F.PWR_CURTAIL_ACTIVE 0 = false → exec .curtailAssert s = .next (s.onDev fun d =>
      ((d.setF F.PWR_CURTAIL_ACTIVE 0 1).addSat F.PWR_CURTAIL_ASSERTS 0 1).modPwr fun p =>
        { p with curtFrom := d.pAvg, curtTicks := 0, curtAt := d.now })) ∧
    (d.pstate ≠ 4 → d.flag F.PWR_CURTAIL_ACTIVE 0 = true → d.now < d.pwr.curtAt + 100000 → exec .curtailAssert s = .next (s.onDev fun d =>
      (d.setF F.PWR_CURTAIL_CHATTER 0 1).modPwr fun p => { p with curtAt := d.now })) ∧
    (exec .curtailRelease s = .next (s.onDev fun d =>
      (d.setF F.PWR_CURTAIL_ACTIVE 0 0).setF F.PWR_CURTAIL_CHATTER 0 0)) ∧
    (d.flag F.PWR_CURTAIL_ACTIVE 0 = true →
      exec .curtailPersist s = .next (s.onDev fun d => d.raise (evU bPWR 0) 3 0 0)) ∧
    (500 ≤ d.pwr.shortRun → exec .floorShort s = .next (s.onDev fun d =>
      (d.modPwr fun p => { p with shortRun := 0 }).raise (evU bPWR 0) 5 0 0)) ∧
    (∀ rank : Fin 8, 50000 ≤ sget d.pwr.conflict 0 rank.val → exec (.pwrInfeasible rank) s = .next (s.onDev fun d =>
      (d.modPwr fun p => { p with conflict := sset p.conflict 0 rank.val 0 }).raise (evU bPWR 0) 6 0 rank.val)) ∧
    (∀ (q : FieldN) (k : Fin 16), siteOf q.val k.val = i → d.siteOut i = false → d.quiet i = true → d.pwr.rampWait = [] →
      sget d.pwr.rampIn 0 (fieldOf i) < 4 → exec (.activityRamp q k) s = .next (s.onDev fun d => ((d.modPwr fun p =>
        { p with rampWait := [], rampIn := sset p.rampIn 0 (fieldOf i) (sget p.rampIn 0 (fieldOf i) + 1) }).modClu i
          fun c => { c with macAt := some d.now }).setDom i fun y => { y with deadline := none })) ∧
    (∀ (q : FieldN) (k : Fin 16), siteOf q.val k.val = i → d.siteOut i = false → d.quiet i = true → d.pwr.rampWait = [] →
      4 ≤ sget d.pwr.rampIn 0 (fieldOf i) → exec (.activityRamp q k) s = .next (s.onDev fun d =>
        (d.addSat F.CLU_PWR_RAMP_WAITS i 1).modPwr fun p => { p with rampWait := [(i, d.hasDeadline i)] })) ∧
    (d.pwr.rampWait = [] → exec (.rampWindow field) s = .next (s.onDev fun d =>
      d.modPwr fun p => { p with rampIn := sset p.rampIn 0 f 0 })) ∧
    (∀ milliamps : BitVec 20,
      let h := sget d.pwr.fieldHist [] f
      let est := h.sum / max 1 h.length
      let meas := milliamps.toNat * (700 + 5 * d.fld F.FLD_RAIL_STATUS_VSET f) / 1000
      0 < est → d.fieldLost f = false →
      let a : Int := (sget d.pwr.gain 1000000 f : Nat)
      let b : Int := min 1250000 (max 750000 (a + a * ((meas : Int) - est) / (4 * (est : Int))))
      b ≠ 750000 → b ≠ 1250000 → exec (.fieldGainUpdate field milliamps true) s = .next (s.onDev fun d =>
        (d.avsRead f 0 2 true).modPwr fun p => { p with gain := sset p.gain 1000000 f b.toNat })) ∧
    (∀ milliamps, d.fieldLost f = false →
      exec (.fieldGainUpdate field milliamps false) s = .next (s.onDev fun d => d.avsRead f 0 2 false)) ∧
    (exec (.thermtrip field) s = .next (s.onDev fun d =>
      ((d.setF F.THM_STATUS_TRIP f 1).emit (.pin 0 false)).raise (evU bTHM f) 4 5 detField))

/-- Sleep and wake (R476 to R491): a domain that may enter a level starts to enter it, and its entry ends there; a domain that
leaves its level reaches D0; the first access demands its domain; TARGET starts a device state, refuses the reserved ones and
wakes for Run; WAKE_N and the alarm wake the device, and in Off WAKE_N raises the rail enable; the failures of a wake raise
their events. The model's choices in it: log 33, 34. -/
def Obligations.SleepCommandsTakeEffect : Prop :=
  ∀ (s : State) (dom : Fin 312),
    let d := s.dev
    let n := dom.val
    let x := d.dom n
    let at_ := d.fld F.PCH_WAKE_AT_NT 0
    (∀ lvl : Fin 4, d.mayEnter n lvl.val = true → d.domOut n = false → x.entering = none → x.exiting = false →
      x.level < lvl.val → d.canEnter n lvl.val = true →
      exec (.domainEntry dom lvl) s = .next (s.onDev fun d => d.setDom n fun y => { y with entering := some lvl.val, deadline := none })) ∧
    (∀ lvl, x.entering = some lvl → 272 ≤ n ∨ lvl ≤ 1 → x.demand = false → d.pch.waking = true →
      s.Gives (exec (.domainEntryComplete dom) s) (s.onDev fun d =>
        d.setDom n fun y => { y with level := lvl, entering := none })) ∧
    (x.exiting = true → d.pstate ≠ 4 → 256 ≤ n → n < 288 → 272 ≤ n ∨ x.level < 3 → d.pch.waking = false →
      s.Gives (exec (.domainExit dom) s) (s.onDev fun d =>
        let e := d.setDom n fun y => { DomS.init with deadline := y.deadline, upAt := d.now }
        if x.source then e else e.restOn n)) ∧
    (x.exiting = true → d.pstate ≠ 4 → n < 256 → d.pch.waking = false → s.Gives (exec (.domainExit dom) s)
      (((s.onDev fun d => d.setDom n fun y => { DomS.init with deadline := y.deadline, upAt := d.now }).cluUp n x.level
        x.source).onDev fun e => if x.source then e else e.restOn n)) ∧
    (d.pstate ≠ 4 → n < 308 → 256 ≤ n → d.domOut n = false → x.entering = none → x.level ≠ 0 →
      exec (.firstAccess dom) s = .next (s.onDev fun d =>
        d.setDom n fun y => { y with exiting := true, source := true, pre := false })) ∧
    (∀ v : BitVec 3, d.pch.waking = false → 5 ≤ v.toNat → s.Gives (exec (.target v) s) (s.onDev fun d =>
      (((d.setF F.PCH_PSTATE_CTRL_TARGET 0 v.toNat).setF F.PCH_PSTATE_STATUS_REJ 0 1).setF
        F.PCH_PSTATE_STATUS_REASON 0 3))) ∧
    (d.pch.waking = false → s.Gives (exec (.target 0) s) (s.onDev fun d =>
      (d.setF F.PCH_PSTATE_CTRL_TARGET 0 0).deviceWake 4)) ∧
    (d.pch.waking = false → d.pstate = 0 → d.flag F.PCH_PSTATE_STATUS_CHANGING 0 = false →
      d.fld F.CMD_STATUS_INFLIGHT 0 = 0 →
      s.Gives (exec (.target 1) s) (s.onDev fun d => (d.setF F.PCH_PSTATE_CTRL_TARGET 0 1).startState 1)) ∧
    (d.pstate ≠ 4 → d.flag F.PCH_WAKE_CTRL_PIN_EN 0 = true → exec .wakeN s = .next (s.onDev fun d =>
      (d.modPch fun p => { p with pinIgnored := false }).deviceWake 1)) ∧
    (d.pstate = 4 → exec .wakeN s = .next (s.onDev fun d =>
      (d.modPch fun p => { p with pinIgnored := false }).emit (.pin 1 true))) ∧
    (d.flag F.PCH_WAKE_CTRL_ALARM_EN 0 = true → at_ ≤ d.ntAt bPCH 0 → d.pch.alarmAt ≠ some at_ → d.pstate ≠ 4 →
      exec .wakeAlarm s = .next (s.onDev fun d => (d.modPch fun p => { p with alarmAt := some at_ }).deviceWake 3)) ∧
    (x.exiting = true → n < 256 → d.pch.waking = false → s.Gives (exec (.wakeFail dom) s) (s.onDev fun d =>
      (d.setDom n fun y => { y with exiting := false, demand := false }).raise (evU bCLU n) 10 2 0)) ∧
    (d.pch.waking = true → d.flag F.PWR_CURTAIL_ACTIVE 0 = false → exec .wakeSlow s = .next (s.onDev fun d => d.raise (evU bPCH 0) 2 0 0)) ∧
    (d.pch.pinIgnored = false → exec .wakePinStuck s = .next (s.onDev fun d =>
      (d.modPch fun p => { p with pinIgnored := true }).raise (evU bPCH 0) 3 0 0))

/-! Clocks and time, start, spares and the I3C port. -/

/-- Clocks and network time (R495 to R520): a spare PLL takes over from a failed one; the reference is lost and comes back; the
oscillator is trimmed while REFCLK is good; a beacon clears TB_LOST, which a field without beacons shows; a droop counts its
cycles and is told in the next sense word, and a failed Chameleon stops its core; a two-step Sync waits for its Follow_Up, and
either gives its sample, with the path term of the last Delay_Resp; a second Announce of one master selects it; Delay_Req is sent;
a message outside the subset is counted; losing the Syncs, or
the last source, of a locked clock enters HOLDOVER; a first edge is accepted, and one off its second ignored; a lost pulse
train ends PPS_VALID; PPS_OUT makes its edge; TIM_NT answers NT and latches its fraction. The model's choices in it: log 10, 35,
36, 37, 63. -/
def Obligations.TimeCommandsTakeEffect : Prop :=
  ∀ (s : State) (field : FieldN) (c : Core) (m : PtpMsg) (a : PtpAnnounce),
    let d := s.dev
    let f := field.val
    let u := coreU c
    (d.fieldLost f = false → d.fld F.FLD_CLK_PLL0 f = 2 → d.fld F.FLD_CLK_PLL1 f = 1 →
      s.Gives (exec (.pllFail field false) s) (s.lostEnd
        (((((d.setF F.FLD_CLK_PLL0 f 3).setF F.FLD_CLK_PLL1 f 2).setB F.FLD_CLK_ACTIVE f true).loseFrames f).raise (evU bFLD f) 7 1
          32))) ∧
    (d.flag F.TIM_STATUS_REF 0 = false → exec .refLoss s = .next (s.onDev fun d =>
      ((d.setF F.TIM_STATUS_REF 0 1).showRef 1).raise (evU bTIM 0) 1 1 0)) ∧
    (d.flag F.TIM_STATUS_REF 0 = true → exec .refclkRestore s = .next (s.onDev fun d =>
      (d.setF F.TIM_STATUS_REF 0 0).showRef 0)) ∧
    (d.flag F.TIM_STATUS_REF 0 = false → exec .oscTrim s = .next (s.onDev fun d =>
      d.modPch fun p => { p with trimAt := some d.now })) ∧
    (d.fieldLost f = false → ∃ t, exec .beacon s = .next t ∧ t.MemKept s ∧ t.dev.flag F.FLD_CLK_TB_LOST f = false ∧
      t.dev.tim.due = 0 ∧
      sget t.dev.tim.tb 0 f = sget d.tim.tb 0 f + d.tim.due - clampI 40000000000 (d.tbErr f + d.tim.due)) ∧
    (d.fieldLost f = false → d.flag F.FLD_CLK_TB_LOST f = false → exec (.tbLost field) s = .next (s.onDev fun d =>
      (d.setF F.FLD_CLK_TB_LOST f 1).raise (evU bFLD f) 9 0 detField)) ∧
    (∀ cycles, cycles ≠ 0 → d.siteOut c.site.val = false → d.coreAbsent u = false → exec (.droop c cycles) s = .next (s.onDev fun d =>
      (d.addSat F.COR_CLK_STRETCH u cycles).modPwr fun p =>
        { p with droop := fieldOf c.site.val :: p.droop.filter (· != fieldOf c.site.val) })) ∧
    (d.siteOut c.site.val = false → d.coreAbsent u = false → d.coreState u ≠ 4 → exec (.clkFail c) s = .next (s.onDev fun d =>
      ((((d.setF F.COR_CLK_FLL_LOCK u 0).coreOff u 3).modCore u fun x =>
        { x with cd := [], v := [], m := [], held := none, halting := 0 }).askCore u).raise
          (evU 1 u) 11 2 0)) ∧
    (d.ptpOn = true → m.supported = true → m.udp = d.flag F.TIM_CTRL_TRANSPORT 0 → m.domain.toNat = d.fld F.TIM_CTRL_DOMAIN 0 → d.fromMaster m.source = true →
      (-7 ≤ m.logInterval → m.logInterval ≤ 0 → m.twoStep = true →
        exec (.sync m) s = .next (s.onDev fun d => d.modTim fun t => { t with sync := some m })) ∧
      (∀ b, -7 ≤ m.logInterval → m.logInterval ≤ 0 → m.twoStep = false → d.timSt = 2 → d.tim.path2 = some b →
        exec (.sync m) s = .next (s.onDev fun d =>
          (d.modTim fun t => { t with sync := none, logSync := m.logInterval, syncAt := d.now }).ptpSample
            (d.rxStamp m.received - m.origin - m.correction) b m.logInterval)) ∧
      (∀ y, d.tim.sync = some y → y.source = m.source → y.seq = m.seq →
        exec (.followUp m) s = .next (s.onDev fun d =>
          d.paired (d.rxStamp y.received - m.origin - y.correction - m.correction) y.logInterval)) ∧
      (∀ t3, d.tim.reqT3 = some t3 → m.seq.toNat = d.tim.reqSeq → exec (.delayResp m) s = .next (s.onDev fun d =>
        d.modTim fun t => { t with reqT3 := none, path2 := some ((m.origin : Int) - t3 - m.correction) }))) ∧
    (d.ptpOn = true → a.supported = true → a.udp = d.flag F.TIM_CTRL_TRANSPORT 0 → a.domain.toNat = d.fld F.TIM_CTRL_DOMAIN 0 → d.tim.foreign = [(a, 1)] →
      d.tim.master = none → exec (.announce a) s = .next (s.onDev fun d =>
        ((d.modTim fun t => { t with foreign := [(a, 2)], master := some a, sync := none, reqT3 := none, path2 := none,
                                     delays := [], syncAt := d.now, annAt := d.now, annLog := a.logInterval }).setR
          R.TIM_MASTER 0 a.source).enterTim 1)) ∧
    (∀ t3 : Nat, d.ptpOn = true → d.tim.master ≠ none → exec (.delayReq t3) s = .next (s.onDev fun d =>
      let n := (d.tim.reqSeq + 1) % 65536
      (d.modTim fun t => { t with reqSeq := n, reqT3 := some (((t3 : Int) + s32 (d.fld F.TIM_ASYM_EGRESS 0)).toNat) }).emit
        (.delayReq n))) ∧
    (∀ m : PtpMsg, m.supported = false ∨ m.domain.toNat ≠ d.fld F.TIM_CTRL_DOMAIN 0 ∨ m.udp ≠ d.flag F.TIM_CTRL_TRANSPORT 0 →
      exec (.sync m) s = .next (s.onDev fun d => d.addSat F.TIM_STATUS_IGNORED 0 1)) ∧
    (∀ x, d.tim.master = some x → d.ptpOn = true → d.timSrc = 0 → d.timSt = 2 → d.flag F.TIM_STATUS_EVER_LOCKED 0 = true →
      d.tim.syncAt + 4 * logNs d.tim.logSync ≤ d.now → d.now < d.tim.annAt + d.annTmo * logNs d.tim.annLog →
      exec .sourceLoss s = .next (s.onDev fun d => d.holdover)) ∧
    (∀ x, d.tim.master = some x → d.ptpOn = true → d.timSrc = 0 → d.tim.foreign = [] → d.timSt = 2 →
      d.tim.annAt + d.annTmo * logNs d.tim.annLog ≤ d.now →
      d.flag F.TIM_STATUS_EVER_LOCKED 0 = true → exec .sourceLoss s = .next (s.onDev fun d =>
        ((d.modTim fun t => { t with master := none, sync := none, reqT3 := none, path2 := none, delays := [] }).setR
          R.TIM_MASTER 0 0).holdover)) ∧
    (∀ t, d.tim.ppsAt = some t → d.flag F.TIM_STATUS_PPS_VALID 0 = true → t + 1001000000 < d.now →
      exec .ppsInEdge s = .next (s.onDev fun d => d.addSat F.TIM_PPS_IN_IGN 0 1)) ∧
    (d.tim.ppsAt = none → d.flag F.TIM_STATUS_PPS_VALID 0 = false → exec .ppsInEdge s = .next (s.onDev fun d =>
      (d.addSat F.TIM_PPS_IN_ACC 0 1).modTim fun t => { t with ppsAt := some d.now, ppsRun := 1 })) ∧
    (d.ppsDrives = true → d.flag F.TIM_STATUS_PPS_VALID 0 = true → exec .ppsInvalid s = .next (s.onDev fun d =>
      (((d.setF F.TIM_STATUS_PPS_VALID 0 0).modTim fun t => { t with ppsAt := none, ppsRun := 0 }).raise
        (evU bTIM 0) 4 0 0).holdover)) ∧
    (d.fld F.TIM_CTRL_PPS_OUT_MODE 0 = 2 → d.tim.ppsOut = none → exec .ppsOut s = .next (s.onDev fun d =>
      (d.emit (.pps (min 500 (max 1 (d.fld F.TIM_PPS_WIDTH 0))))).modTim fun t => { t with ppsOut := some d.now })) ∧
    (exec .timNt s = .next (s.onDev fun d =>
      (d.setF F.TIM_NT_FRAC_FRAC 0 (d.tim.sub % 40000000000 * 65536 / 40000000000)).emit
        (.regRead 0x17000110 (BitVec.ofNat 64 d.nt))))

/-- The start paths (R425, R531, R532, R540 to R547, R616): a cold start runs its tests, and then goes out of service, to
FAILSAFE, fails its grade or loads the image, by what they found; a warm reset in Ready is the warm path; a WARM that was asked
for is one too; a field loss with AUTO_VARIANT restarts the surviving die; RESET_N holds the die in reset and its rise lets it
start; qualified rails end the power-on reset. The model's choices in it: log 40, 74, 76, 78. -/
def Obligations.StartCommandsTakeEffect : Prop :=
  ∀ (s : State) (img : Images) (t : StartTest),
    let d := s.dev
    (d.canStart = true →
      let g := (((((d.readFuses t).startTime.sampleCap t).darkFields t).powerFields t).vc1 true).fmaxStart t
      let x := g.chooseCopy s.flash img 0
      let e := (Dev.each (x.1.train (imgOf img (x.2.getD 0)) t) g.pch.down fun d r => d.railOut r).selfTest t
      s.Gives (exec (.coldStart img t) s)
        (if e.lostTooMuch then s.onDev fun _ => e.outOfService
        else match x.2 with
          | none => s.onDev fun _ => e.failsafe
          | some copy =>
            let n := (manifestOf s.flash copy).nReq - (if e.lostFields.isEmpty then 0 else 16)
            if e.countGood < n then s.onDev fun _ => e.gradeFail
            else (s.onDev fun _ => e).startOn (imgOf img copy) t copy n e.lostFields.head?)) ∧
    (d.pstate ≠ 4 → d.fld F.BSQ_STATUS_STATE 0 = 2 → d.boot.restart = none →
      s.Gives (exec (.warmReset img t) s) (s.warmRun img t)) ∧
    (d.boot.warmReq = true → d.fld F.BSQ_STATUS_STATE 0 = 2 → d.boot.restart = none →
      s.Gives (exec (.bsqWarm img t) s)
        ((s.onDev fun d => ({ d with boot := { d.boot with warmReq := false } } : Dev)).warmRun img t)) ∧
    (∀ f, d.boot.restart = some f → d.flag F.BSQ_CTRL_AUTO_VARIANT 0 = true → d.fld F.BSQ_STATUS_STATE 0 = 2 →
      s.Gives (exec (.fieldLossRestart img t) s) (s.restartRun img t f)) ∧
    (d.pstate ≠ 4 → s.Gives (exec (.resetN true) s) ((s.dieReset d.pch.rails).onDev fun d =>
      (d.modPch fun p => { p with resetLow := true }).setF F.BSQ_STATUS_STATE 0 0)) ∧
    (d.pstate ≠ 4 → d.pch.resetLow = true → d.pch.rails = true →
      s.Gives (exec (.resetN false) s) (s.onDev fun d =>
        (d.modPch fun p => { p with resetLow := false }).setF F.BSQ_STATUS_STATE 0 1)) ∧
    (d.pstate ≠ 4 → d.pch.resetLow = true → d.pch.rails = false →
      s.Gives (exec (.resetN false) s) (s.onDev fun d => d.modPch fun p => { p with resetLow := false })) ∧
    (d.pch.rails = false →
      let up := s.onDev fun d => d.modPch fun p => { p with rails := true, down := [], dark := [] }
      (d.fld F.BSQ_STATUS_STATE 0 ≠ 0 → d.pstate ≠ 4 → s.Gives (exec .railQualified s) up) ∧
      (d.fld F.BSQ_STATUS_STATE 0 = 0 ∨ d.pstate = 4 → d.pch.resetLow = false →
        s.Gives (exec .railQualified s) (up.dieReset true)))

/-- Newt and Skink (R572 to R594): a swap request of an idle Newt asks for a window; the host ends a redirect; a pre-copy
copies the cores, makes the inactive copies of the maps valid and asks for the window; a window that need not halt opens and
runs its work; the expiry of HALT_WAIT runs it too; update records go into the fuses; a visit counts its passes, and a
confirmed failure is one of its unit; a yield counts, and a missed cadence raises its event; an observed core leaves the list
after RELEASE passing visits. The model's choices in it: log 66, 71. -/
def Obligations.SpareCommandsTakeEffect : Prop :=
  ∀ (s : State) (c : Core) (site : Site),
    let d := s.dev
    let u := coreU c
    (∀ (lclu : BitVec 8) (lcore : BitVec 5) nofuse x, d.fld F.NWT_STATUS_STATE 0 = 0 → d.newtSite lclu.toNat = some x →
      d.nwt.reqs = [] → exec (.swapRequest false lclu lcore nofuse) s = .next (s.onDev fun d =>
        ({ d with nwt := { d.nwt with reqs := [⟨false, lclu.toNat, lcore.toNat, nofuse⟩] } } : Dev).setF
          F.NWT_STATUS_STATE 0 2)) ∧
    (d.fieldLost (fieldOf site.val) = false → exec (.cluRedirect site) s = .next (s.onDev fun d =>
      (d.setF F.CLU_REDIRECT_EN site.val 0).modNwt fun x => { x with old := x.old.filter fun e => e.2 != site.val + 1 })) ∧
    (∀ rw r new w old, d.nwt.pre = some (r, new, w) → d.newtSite r.lclu = some old → d.fld F.NWT_STATUS_STATE 0 = 1 →
      d.siteOut old = false → s.Gives (exec (.liveSwapPrecopy rw) s)
        ((s.each (d.corePairs old new) fun s p => s.copyMems p.1 p.2 false).onDev fun e =>
          (((e.powerSite new).prepare r.lclu (some new)).modNwt fun x =>
            { x with pre := some (r, new, rw), reqs := if x.reqs.contains r then x.reqs else x.reqs ++ [r] }).setF
              F.NWT_STATUS_STATE 0 2)) ∧
    (∀ ok, d.windowFree = true → d.needsPre = none → d.windowSites = [] → s.Gives (exec (.windowOpen ok) s)
      ((s.onDev fun d => ((d.modNwt fun x => { x with window := true, hold := [], openAt := d.now }).setF
        F.NWT_STATUS_STATE 0 3).vc1 true |>.bootWindow).windowRun ok)) ∧
    (∀ ok, d.nwt.haltAt = some ok → d.nwt.window = true → s.Gives (exec .haltWaitExpiry s) (s.windowRun ok)) ∧
    (∀ x, d.nwt.fusePend = [x] → d.boot.fuse.updA.length < 448 → d.fld F.NWT_STATUS_STATE 0 = 4 → d.nwt.reqs = [] →
      exec .fuseUpdate s = .next (s.onDev fun d =>
        (({ d with boot := { d.boot with fuse := d.boot.fuse.append x } } : Dev).modNwt fun y => { y with fusePend := [] }).setF
          F.NWT_STATUS_STATE 0 0)) ∧
    (∀ passes code, d.flag F.SKK_CTRL_EN 0 = true → d.visitOk (.cluster site) = true → d.flag F.SKK_CTRL_SCRUB_EN 0 = false →
      s.Gives (exec (.skinkVisit (.cluster site) .pass passes code []) s)
        (s.onDev fun d => (d.addWrap F.SKK_COUNT_PASSES 0 passes).vc1Done) ∧
      s.Gives (exec (.skinkVisit (.cluster site) (.confirmed false) passes code []) s)
        (s.onDev fun d => ((d.addWrap F.SKK_COUNT_PASSES 0 passes).testFail (.cluster site) false).vc1Done)) ∧
    (∀ ns, exec (.skinkYield ns false) s = .next (s.onDev fun d =>
      (d.addSat F.SKK_STATUS_YIELDS 0 1).setF F.SKK_STATUS_YIELD_MAX_NS 0
        (max (min 65535 ns) ((d.addSat F.SKK_STATUS_YIELDS 0 1).fld F.SKK_STATUS_YIELD_MAX_NS 0)))) ∧
    (d.flag F.SKK_CTRL_EN 0 = true → d.siteOut c.site.val = false → d.coreAbsent u = false → d.coreState u ≠ 4 →
      sget d.visited 0 u + 1000000000 * max 1 (d.fld F.SKK_CTRL_PERIOD 0) < d.now →
      exec (.cadenceMiss c) s = .next (s.onDev fun d => d.raise (evU bSKK 0) 5 0 0)) ∧
    (∀ passes o, d.flag F.SKK_CTRL_EN 0 = true → d.obs = [o] → o.site = u / 256 → o.core = u % 256 → d.visitOk (.core c) = true →
      d.fld F.SKK_CTRL_RELEASE 0 ≤ o.passes + 1 →
      s.Gives (exec (.observationVisit c .pass passes) s) ((s.testArea u).onDev fun d =>
        ((({ (d.addWrap F.SKK_COUNT_PASSES 0 passes) with obs := [] } : Dev).setF F.SKK_STATUS_OBS_N 0 0).raise
          (evU bSKK 0) 3 0 0).vc1Done))

/-- The I3C target (R617, R619, R620): it answers at its dynamic address alone; a private write of 8 B sets a read up, which is
BUSY before 50 µs and then answers the status and the registers' words; ENTDAA and SETDASA give the address, RSTDAA and a bus
held low take it away; ENEC and DISEC switch in-band interrupts; the characteristics are those of Table 20-5, and the maximum
lengths are those last set. The model's choices in it: log 45, 46, 79. -/
def Obligations.I3cCommandsTakeEffect : Prop :=
  ∀ (s : State) (a : BitVec 7) (v : BitVec 16),
    let d := s.dev
    (∀ data k, d.i3c.addr = some k → data.length = 8 → 8 ≤ d.i3c.mwl → leAt data 0 1 = 1 → leAt data 1 6 % 8 = 0 →
      leAt data 7 1 < 8 → exec (.i3cPrivateWrite data) s = .next (s.onDev fun d =>
        let n := leAt data 7 1 + 1
        d.modI3c fun x => { x with setup := some (d.i3cStatus (leAt data 1 6) n, leAt data 1 6, n, d.now + 50000) })) ∧
    (∀ st x n at_, d.i3c.setup = some (st, x, n, at_) → d.now < at_ →
      exec .i3cPrivateRead s = .next (s.onDev fun d => d.i3cSay [3])) ∧
    (∀ x n at_, d.i3c.setup = some (0, x, n, at_) → at_ ≤ d.now → exec .i3cPrivateRead s = .next (s.onDev fun d =>
      (d.i3cSay ((0 :: (List.range n).flatMap fun i => leBytes 8 (d.i3cWord (x + 8 * i))).take d.i3c.mrl)).modI3c fun y =>
        { y with setup := none })) ∧
    (exec .i3cSclTimeout s = .next (s.onDev fun d => d.modI3c fun _ => I3cS.init)) ∧
    (d.i3c.addr = none → d.pstate ≠ 4 → exec (.entdaa a) s = .next (s.onDev fun d =>
      (d.emit (.i3c (beBytes 6 i3cPid ++ [0x06, 0x00]))).modI3c fun x => { x with addr := some a.toNat })) ∧
    (d.i3c.addr = none → d.pstate ≠ 4 → exec (.setdasa 0x4C a) s = .next (s.onDev fun d =>
      d.modI3c fun x => { x with addr := some a.toNat })) ∧
    (exec .rstdaa s = .next (s.onDev fun d => d.modI3c fun x => { x with addr := none })) ∧
    (∀ e : BitVec 8, e.toNat % 2 = 1 →
      exec (.enec e) s = .next (s.onDev fun d => d.modI3c fun x => { x with ibi := true }) ∧
      exec (.disec e) s = .next (s.onDev fun d => d.modI3c fun x => { x with ibi := false })) ∧
    (∀ k, d.i3c.addr = some k →
      exec .getpid s = .next (s.onDev fun d => d.emit (.i3c (beBytes 6 i3cPid))) ∧
      exec .getbcr s = .next (s.onDev fun d => d.emit (.i3c [0x06])) ∧
      exec .getdcr s = .next (s.onDev fun d => d.emit (.i3c [0x00])) ∧
      exec .getstatus s = .next (s.onDev fun d => (d.emit (.i3c (leBytes 2 d.free.toNat))).took) ∧
      exec .getmrl s = .next (s.onDev fun d => d.emit (.i3c (beBytes 2 d.i3c.mrl ++ [1]))) ∧
      exec .getmwl s = .next (s.onDev fun d => d.emit (.i3c (beBytes 2 d.i3c.mwl)))) ∧
    (exec (.setmrl v) s = .next (s.onDev fun d => d.modI3c fun x => { x with mrl := v.toNat })) ∧
    (exec (.setmwl v) s = .next (s.onDev fun d => d.modI3c fun x => { x with mwl := v.toNat }))

/-! The whole block. -/

/-- After reset every register word of every unit reads the reset word of its layout, among them those that the manual's tables
state: EVT_ENABLE delivers every class, P0 of a core is 1, the checking thresholds, the generator of the sampling unit (R218),
the time-out of a router's tags, the drain mask, PHASE 1 of the command ring (R353), SEQ 1 of the journal, the slope rate, the
servo's gains and Skink's control; no session is open and every domain is as it starts. The model's choices in it: log 4, 14.
-/
def Obligations.ResetLeavesTheStatedValues : Prop :=
  let d := State.reset.dev
  (∀ (r : Reg) (u i : Nat), d.getR r u i = r.word) ∧
  (∀ u, d.getR R.EVT_ENABLE u = 0xFFFFFFFE) ∧ (∀ u, d.getR R.COR_PRED u = 1) ∧ (∀ u, d.getR R.COR_CHK_CTRL u = 0x200E2) ∧
  (∀ u, d.getR R.CLU_ASU_STATE u = 0x9E3779B97F4A7C15) ∧ (∀ u, d.getR R.FAB_TMO u = 100) ∧
  (∀ u i, d.getR R.FAB_DRAIN_MASK u i = 0xFFFFFFFFFFFFFFFF) ∧ d.getR R.CMD_RING_HEAD 0 = 0x4000 ∧
  d.getR R.JNL_NEXT_SEQ 0 = 1 ∧ d.getR R.PWR_SLOPE 0 = 50 ∧ d.getR R.TIM_SERVO 0 = 0x640401 ∧
  d.getR R.SKK_CTRL 0 = 0x3840A1003E8000F ∧ (∀ i, d.sess i = SessS.init) ∧ (∀ n, d.dom n = DomS.init)
end

