-- ==== Sys2Proof/Laws/Bits.lean ====
section
/-! SUPPORT. The laws of bit fields in numbers: what `bitsOf` and `bitOf` read after `putBits`. -/

namespace Sys2Proof.Machine

theorem putBits_split (x lo w v : Nat) :
    putBits x lo w v = (x / 2 ^ (lo + w) * 2 ^ w + v % 2 ^ w) * 2 ^ lo + x % 2 ^ lo := by
  unfold putBits
  rw [Nat.add_mul, Nat.mul_assoc, ← Nat.pow_add, Nat.add_comm w lo]

/-- The bits put in read back. -/
@[simp] theorem bitsOf_putBits_self (x lo w v : Nat) : bitsOf (putBits x lo w v) lo w = v % 2 ^ w := by
  have h0 : 0 < 2 ^ lo := Nat.two_pow_pos lo
  rw [putBits_split, bitsOf, Nat.mul_comm _ (2 ^ lo), Nat.mul_add_div h0, Nat.div_eq_of_lt (Nat.mod_lt _ h0),
    Nat.add_zero, Nat.add_comm, Nat.add_mul_mod_self_right, Nat.mod_mod]

/-- The bits below those put in stand. -/
theorem bitsOf_putBits_below {x lo w v lo' w' : Nat} (h : lo' + w' ≤ lo) : bitsOf (putBits x lo w v) lo' w' = bitsOf x lo' w' := by
  have e : ∀ y : Nat, bitsOf y lo' w' = y % 2 ^ lo / 2 ^ lo' % 2 ^ w' := by
    intro y
    obtain ⟨k, rfl⟩ := Nat.exists_eq_add_of_le h
    rw [bitsOf, Nat.pow_add, Nat.pow_add, Nat.mul_assoc, Nat.mod_mul_right_div_self, Nat.mod_mul_right_mod]
  rw [e, e x, putBits_split, Nat.add_comm, Nat.add_mul_mod_self_right, Nat.mod_mod]

/-- The bits above those put in stand. -/
theorem bitsOf_putBits_above {x lo w v lo' w' : Nat} (h : lo + w ≤ lo') : bitsOf (putBits x lo w v) lo' w' = bitsOf x lo' w' := by
  have hv : v % 2 ^ w * 2 ^ lo + x % 2 ^ lo < 2 ^ (lo + w) := by
    have h1 : v % 2 ^ w ≤ 2 ^ w - 1 := Nat.le_sub_one_of_lt (Nat.mod_lt _ (Nat.two_pow_pos w))
    have h2 : x % 2 ^ lo < 2 ^ lo := Nat.mod_lt _ (Nat.two_pow_pos lo)
    have h3 : v % 2 ^ w * 2 ^ lo ≤ (2 ^ w - 1) * 2 ^ lo := Nat.mul_le_mul_right _ h1
    have h4 : (2 ^ w - 1) * 2 ^ lo + 2 ^ lo = 2 ^ (lo + w) := by
      rw [← Nat.succ_mul, Nat.succ_eq_add_one, Nat.sub_add_cancel (Nat.two_pow_pos w), ← Nat.pow_add, Nat.add_comm]
    omega
  have hd : putBits x lo w v / 2 ^ (lo + w) = x / 2 ^ (lo + w) := by
    unfold putBits
    rw [Nat.add_assoc, Nat.mul_comm, Nat.mul_add_div (Nat.two_pow_pos _), Nat.div_eq_of_lt hv, Nat.add_zero]
  obtain ⟨k, rfl⟩ := Nat.exists_eq_add_of_le h
  rw [bitsOf, bitsOf, Nat.pow_add, ← Nat.div_div_eq_div_mul, hd, Nat.div_div_eq_div_mul]

/-- A field put into a word of 64 bits stays inside it. -/
theorem putBits_lt {x lo w v n : Nat} (h : lo + w ≤ n) (hx : x < 2 ^ n) : putBits x lo w v < 2 ^ n := by
  have h0 : bitsOf (putBits x lo w v) n 0 = 0 := by simp [bitsOf, Nat.mod_one]
  have h1 : putBits x lo w v / 2 ^ n = x / 2 ^ n := by
    have e1 : ∀ y : Nat, y < 2 ^ (n + y) := fun y =>
      Nat.lt_of_lt_of_le (Nat.lt_two_pow_self) (Nat.pow_le_pow_right (by omega) (by omega))
    have := bitsOf_putBits_above (x := x) (v := v) (w' := putBits x lo w v + x + n) h
    unfold bitsOf at this
    rwa [Nat.mod_eq_of_lt, Nat.mod_eq_of_lt] at this
    · exact Nat.lt_of_le_of_lt (Nat.div_le_self _ _) (Nat.lt_of_lt_of_le Nat.lt_two_pow_self
        (Nat.pow_le_pow_right (by omega) (by omega)))
    · exact Nat.lt_of_le_of_lt (Nat.div_le_self _ _) (Nat.lt_of_lt_of_le Nat.lt_two_pow_self
        (Nat.pow_le_pow_right (by omega) (by omega)))
  rw [Nat.div_eq_of_lt hx] at h1
  exact (Nat.div_eq_zero_iff.1 h1).resolve_left (Nat.two_pow_pos n).ne'

/-- A bit of a number by its place is the library's bit test. -/
theorem bitOf_eq_testBit (x i : Nat) : bitOf x i = x.testBit i := by
  simp [bitOf, Nat.testBit_eq_decide_div_mod_eq]; rfl

/-- The bits of a number after a field is put into it. -/
theorem testBit_putBits (x lo w v j : Nat) :
    (putBits x lo w v).testBit j = if lo ≤ j ∧ j < lo + w then v.testBit (j - lo) else x.testBit j := by
  have h : putBits x lo w v = 2 ^ lo * (2 ^ w * (x / 2 ^ (lo + w)) + v % 2 ^ w) + x % 2 ^ lo := by
    simp only [putBits, pow_add]; ring
  rw [h, Nat.testBit_two_pow_mul_add _ (Nat.mod_lt _ (by positivity))]
  split
  · rw [if_neg (by omega), Nat.testBit_mod_two_pow]; simp [*]
  · rw [Nat.testBit_two_pow_mul_add _ (Nat.mod_lt _ (by positivity))]
    split
    · rw [if_pos (by omega), Nat.testBit_mod_two_pow]; simp [*]
    · rw [if_neg (by omega), Nat.testBit_div_two_pow]; congr 1; omega

/-- A bit of a number after one bit is put into it. -/
theorem bitOf_putBit (x i j : Nat) (b : Bool) : bitOf (putBit x i b) j = if j = i then b else bitOf x j := by
  rw [bitOf_eq_testBit, bitOf_eq_testBit, putBit, testBit_putBits]
  by_cases h : j = i
  · subst h; cases b <;> simp
  · rw [if_neg (by omega), if_neg h]

/-- A bit of a field. -/
theorem bitOf_bitsOf (x lo w j : Nat) : bitOf (bitsOf x lo w) j = (decide (j < w) && bitOf x (lo + j)) := by
  simp [bitOf_eq_testBit, bitsOf, Nat.testBit_mod_two_pow, Nat.testBit_div_two_pow, Nat.add_comm]

end Sys2Proof.Machine
end

