-- ==== Sys2Proof/Laws/Flit.lean ====
section
/-! SUPPORT. What inverting signal positions does to a flit, and what a receiver finds then. -/

namespace Sys2Proof.Machine

/-- How many of the sixteen protected sideband bits differ between two flits. -/
theorem judgeFlit_ue (x : Flit) (k : Nat) (ps : List Nat) : (judgeFlit x (k :: ps)).ue =
    decide (2 ≤ ((List.range 16).filter fun i => bitOf x (1040 + i) != bitOf (flipAll x (k :: ps)) (1040 + i)).length) := rfl

/-- What a position reads after distinct positions were inverted. -/
theorem bitOf_flipAll (ps : List Nat) (x j : Nat) (h : ps.Nodup) : bitOf (flipAll x ps) j = (bitOf x j != ps.contains j) := by
  induction ps generalizing x with
  | nil => simp [flipAll]
  | cons k ps ih =>
    have h' := List.nodup_cons.1 h
    rw [show flipAll x (k :: ps) = flipAll (putBit x k (!bitOf x k)) ps from rfl, ih _ h'.2, bitOf_putBit]
    by_cases e : j = k
    · subst e; simp [h'.1]
    · simp [e]

/-- An error in the sideband counts by the number of protected bits that were inverted. -/
theorem judgeFlit_ue_flips (x : Flit) (k : Nat) (ps : List Nat) (h : (k :: ps).Nodup) : (judgeFlit x (k :: ps)).ue =
    decide (2 ≤ ((List.range 16).filter fun i => (k :: ps).contains (1040 + i)).length) := by
  rw [judgeFlit_ue]; simp only [bitOf_flipAll _ _ _ h]
  congr 4; funext i
  generalize bitOf x (1040 + i) = a
  cases a <;> cases List.contains (k :: ps) (1040 + i) <;> rfl

/-- What makes a flit's CRC fail. -/
theorem judgeFlit_crc (x : Flit) (k : Nat) (ps : List Nat) : (judgeFlit x (k :: ps)).crc =
    (crc32 (natBits (flipAll x (k :: ps)) 1024 ++ natBits (bitsOf (flipAll x (k :: ps)) 1024 16) 16) !=
      bitsOf (flipAll x (k :: ps)) 1056 32) := rfl

/-- A field that holds none of the inverted positions reads as it was sent. -/
theorem bitsOf_flipAll {ps : List Nat} {x lo w : Nat} (h : ps.Nodup) (out : ∀ k ∈ ps, k < lo ∨ lo + w ≤ k) :
    bitsOf (flipAll x ps) lo w = bitsOf x lo w := by
  refine Nat.eq_of_testBit_eq fun j => ?_
  rw [← bitOf_eq_testBit, ← bitOf_eq_testBit, bitOf_bitsOf, bitOf_bitsOf, bitOf_flipAll _ _ _ h]
  by_cases hj : j < w
  · have : ps.contains (lo + j) = false := by
      simp only [List.contains_eq_mem, decide_eq_false_iff_not]
      exact fun hk => by rcases out _ hk with h | h <;> omega
    rw [this]; cases bitOf x (lo + j) <;> simp
  · rw [decide_eq_false hj, Bool.false_and, Bool.false_and]

/-- A flit of which one bit of the CRC field is inverted fails its CRC where that field does not hold it. -/
theorem judgeFlit_crc_field (x : Flit) (k : Nat) (hk : 1056 ≤ k) : (judgeFlit x [k]).crc =
    (crc32 (natBits x 1024 ++ natBits (bitsOf x 1024 16) 16) != bitsOf (flipAll x [k]) 1056 32) := by
  have h : [k].Nodup := List.nodup_singleton k
  have e : natBits (flipAll x [k]) 1024 = natBits x 1024 := by
    unfold natBits
    refine List.map_congr_left fun i hi => ?_
    have hi := List.mem_range.1 hi
    have hc : [k].contains i = false := by
      rw [List.contains_eq_mem, decide_eq_false_iff_not, List.mem_singleton]; omega
    rw [bitOf_flipAll _ _ _ h, hc]; cases bitOf x i <;> rfl
  have f : bitsOf (flipAll x [k]) 1024 16 = bitsOf x 1024 16 :=
    bitsOf_flipAll h fun j hj => Or.inr (List.mem_singleton.1 hj ▸ by omega)
  rw [judgeFlit_crc, e, f]

/-- Of two flips in the CRC field at least one is found. -/
theorem judgeFlit_crc_one_of (x : Flit) : (judgeFlit x [1056]).crc = true ∨ (judgeFlit x [1057]).crc = true := by
  rw [judgeFlit_crc_field x 1056 (Nat.le_refl _), judgeFlit_crc_field x 1057 (Nat.le_succ _)]
  generalize crc32 (natBits x 1024 ++ natBits (bitsOf x 1024 16) 16) = c
  have r : ∀ k, bitOf (bitsOf (flipAll x [k]) 1056 32) 0 = (bitOf x 1056 != [k].contains 1056) := fun k => by
    rw [bitOf_bitsOf, bitOf_flipAll _ _ _ (List.nodup_singleton k)]; rfl
  by_cases hc : c = bitsOf (flipAll x [1056]) 1056 32
  · refine Or.inr (bne_iff_ne.2 fun h => ?_)
    have := congrArg (bitOf · 0) (hc.symm.trans h)
    rw [r, r] at this
    revert this; cases bitOf x 1056 <;> decide
  · exact Or.inl (bne_iff_ne.2 hc)

end Sys2Proof.Machine
end

