-- ==== Sys2Proof/Laws/Maps.lean ====
section
/-! SUPPORT. The laws of sparse maps and of memories: reading after writing, and the canonical form. They hold of every
list, canonical or not, where no premise says otherwise. -/

namespace Sys2Proof.Machine

theorem sget_dropWhile_lt {β : Type} (m : SMap β) (z : β) {k k' : Nat} (h : k < k') :
    sget (m.dropWhile (fun x => decide (x.1 ≤ k))) z k' = sget m z k' := by
  induction m with
  | nil => rfl
  | cons x r ih =>
    obtain ⟨a, v⟩ := x
    by_cases ha : a ≤ k
    · have h1 : ¬ a = k' := by omega
      have h2 : ¬ k' < a := by omega
      simp [List.dropWhile, ha, ih, sget, h1, h2]
    · simp [List.dropWhile, ha]

theorem sget_dropWhile_ge {β : Type} (m : SMap β) (z : β) {k k' : Nat} (h : k' ≤ k) :
    sget (m.dropWhile (fun x => decide (x.1 ≤ k))) z k' = z := by
  induction m with
  | nil => rfl
  | cons x r ih =>
    obtain ⟨a, v⟩ := x
    by_cases ha : a ≤ k
    · simp [List.dropWhile, ha, ih]
    · have h1 : ¬ a = k' := by omega
      have h2 : k' < a := by omega
      simp [List.dropWhile, ha, sget, h1, h2]

variable {β : Type} [DecidableEq β]

/-- Reading after a write: the value written at its key, what was read before at every other key. -/
theorem sget_sset (m : SMap β) (z v : β) (k k' : Nat) :
    sget (sset m z k v) z k' = if k' = k then v else sget m z k' := by
  induction m with
  | nil =>
    by_cases hv : v = z <;> by_cases hk : k' = k <;> simp [sset, sget, hv, hk]
    intro h; exact absurd h.symm hk
  | cons x r ih =>
    obtain ⟨a, w⟩ := x
    rcases Nat.lt_trichotomy k a with h | h | h
    · by_cases hv : v = z
      · by_cases hk : k' = k
        · have h1 : ¬ a = k' := by omega
          have h2 : k' < a := by omega
          simp [sset, h, hv, sget, hk, show ¬ a = k by omega]
        · simp [sset, h, hv, hk]
      · rcases Nat.lt_trichotomy k' k with h3 | h3 | h3
        · simp [sset, h, hv, sget, show ¬ k = k' by omega, h3, show ¬ k' = k by omega, show ¬ a = k' by omega,
            show k' < a by omega]
        · simp [sset, h, hv, sget, h3]
        · simp [sset, h, hv, sget, show ¬ k = k' by omega, show ¬ k' < k by omega, show ¬ k' = k by omega]
    · subst h
      by_cases hv : v = z
      · rcases Nat.lt_trichotomy k' k with h3 | h3 | h3
        · simp [sset, hv, show ¬ k' = k by omega, sget_dropWhile_ge r z (show k' ≤ k by omega), sget,
            show ¬ k = k' by omega, h3]
        · simp [sset, hv, h3, sget_dropWhile_ge r z (Nat.le_refl k)]
        · simp [sset, hv, show ¬ k' = k by omega, sget_dropWhile_lt r z h3, sget, show ¬ k = k' by omega,
            show ¬ k' < k by omega]
      · by_cases hk : k' = k
        · simp [sset, hv, sget, hk]
        · simp [sset, hv, sget, hk, show ¬ k = k' by omega]
    · have h1 : ¬ k < a := by omega
      have h2 : ¬ k = a := by omega
      rcases Nat.lt_trichotomy k' a with h3 | h3 | h3
      · simp [sset, h1, h2, sget, show ¬ a = k' by omega, h3, show ¬ k' = k by omega]
      · simp [sset, h1, h2, sget, h3, show ¬ a = k by omega]
      · simp [sset, h1, h2, sget, show ¬ a = k' by omega, show ¬ k' < a by omega, ih]

/-- Reading another key after a write, whatever default the reader takes. -/
theorem sget_sset_ne (m : SMap β) (z v : β) {k k' : Nat} (hk : k' ≠ k) (y : β) :
    sget (sset m z k v) y k' = sget m y k' := by
  induction m with
  | nil => by_cases hv : v = z <;> simp [sset, sget, hv, Ne.symm hk]
  | cons x r ih =>
    obtain ⟨a, w⟩ := x
    rcases Nat.lt_trichotomy k a with h | h | h
    · by_cases hv : v = z
      · simp [sset, h, hv]
      · rcases Nat.lt_or_gt_of_ne hk with h3 | h3
        · simp [sset, h, hv, sget, show ¬ k = k' by omega, h3, show ¬ a = k' by omega, show k' < a by omega]
        · simp [sset, h, hv, sget, show ¬ k = k' by omega, show ¬ k' < k by omega]
    · subst h
      by_cases hv : v = z
      · rcases Nat.lt_or_gt_of_ne hk with h3 | h3
        · simp [sset, hv, sget_dropWhile_ge r y (show k' ≤ k by omega), sget, show ¬ k = k' by omega, h3]
        · simp [sset, hv, sget_dropWhile_lt r y h3, sget, show ¬ k = k' by omega, show ¬ k' < k by omega]
      · simp [sset, hv, sget, show ¬ k = k' by omega]
    · have h1 : ¬ k < a := by omega
      have h2 : ¬ k = a := by omega
      rcases Nat.lt_trichotomy k' a with h3 | h3 | h3
      · simp [sset, h1, h2, sget, show ¬ a = k' by omega, h3]
      · simp [sset, h1, h2, sget, h3]
      · simp [sset, h1, h2, sget, show ¬ a = k' by omega, show ¬ k' < a by omega, ih]

theorem swfFrom_mono {z : β} {m : SMap β} {lo lo' : Nat} (h : swfFrom z lo m = true) (hl : lo' ≤ lo) :
    swfFrom z lo' m = true := by
  cases m with
  | nil => rfl
  | cons x r =>
    simp only [swfFrom, Bool.and_eq_true, decide_eq_true_eq] at h ⊢
    exact ⟨⟨by omega, h.1.2⟩, h.2⟩

theorem swfFrom_dropWhile {z : β} {m : SMap β} {lo : Nat} (k : Nat) (h : swfFrom z lo m = true) :
    swfFrom z (max lo (k + 1)) (m.dropWhile (fun x => decide (x.1 ≤ k))) = true := by
  induction m generalizing lo with
  | nil => rfl
  | cons x r ih =>
    obtain ⟨a, v⟩ := x
    simp only [swfFrom, Bool.and_eq_true, decide_eq_true_eq] at h
    by_cases ha : a ≤ k
    · have := ih h.2
      simp only [List.dropWhile, ha, decide_true]
      exact swfFrom_mono this (by omega)
    · simp only [List.dropWhile, ha, decide_false, swfFrom, Bool.and_eq_true, decide_eq_true_eq]
      exact ⟨⟨by omega, h.1.2⟩, h.2⟩

theorem swfFrom_sset {z v : β} {m : SMap β} {lo k : Nat} (h : swfFrom z lo m = true) (hk : lo ≤ k) :
    swfFrom z lo (sset m z k v) = true := by
  induction m generalizing lo with
  | nil => by_cases hv : v = z <;> simp [sset, hv, swfFrom, hk]
  | cons x r ih =>
    obtain ⟨a, w⟩ := x
    have h0 := h
    simp only [swfFrom, Bool.and_eq_true, decide_eq_true_eq] at h
    rcases Nat.lt_trichotomy k a with h1 | h1 | h1
    · by_cases hv : v = z
      · simpa [sset, h1, hv] using h0
      · have h2 : swfFrom z (a + 1) r = true := h.2
        simp [sset, h1, hv, swfFrom, hk, h.1.2, h2] <;> omega
    · subst h1
      by_cases hv : v = z
      · simpa [sset, hv] using swfFrom_mono (swfFrom_dropWhile k h.2) (by omega)
      · simp [sset, hv, swfFrom, hk, h.2]
    · have h3 : ¬ k < a := by omega
      have h4 : ¬ k = a := by omega
      simp [sset, h3, h4, swfFrom, h.1.1, h.1.2, ih h.2 (by omega)]

/-- A write keeps the canonical form. -/
theorem swf_sset {z v : β} {m : SMap β} {k : Nat} (h : swf z m = true) : swf z (sset m z k v) = true :=
  swfFrom_sset h (Nat.zero_le k)

/-- The result of canon is canonical. -/
theorem swf_canon (z : β) (m : SMap β) : swf z (canon z m) = true := by
  induction m with
  | nil => rfl
  | cons x r ih =>
    obtain ⟨a, v⟩ := x
    have h := swfFrom_dropWhile a ih
    by_cases hv : v = z
    · simpa [canon, hv, swf] using swfFrom_mono h (Nat.zero_le _)
    · have h2 : swfFrom z (a + 1) ((canon z r).dropWhile fun x => decide (x.1 ≤ a)) = true :=
        swfFrom_mono h (by omega)
      simp [canon, hv, swf, swfFrom, h2]

/-- canon changes no read. -/
theorem sget_canon (z : β) (m : SMap β) (k : Nat) : sget (canon z m) z k = sget m z k := by
  induction m with
  | nil => rfl
  | cons x r ih =>
    obtain ⟨a, v⟩ := x
    rcases Nat.lt_trichotomy k a with h | h | h
    · by_cases hv : v = z <;>
        simp [canon, hv, sget, sget_dropWhile_ge (canon z r) z (show k ≤ a by omega), show ¬ a = k by omega, h]
    · by_cases hv : v = z <;> simp [canon, hv, sget, h]
      rw [← h, sget_dropWhile_ge (canon z r) z (Nat.le_refl k)]
    · by_cases hv : v = z <;>
        simp [canon, hv, sget, sget_dropWhile_lt (canon z r) z h, ih, show ¬ a = k by omega, show ¬ k < a by omega]

theorem canon_eq_from (z : β) (m : SMap β) (lo : Nat) (h : swfFrom z lo m = true) : canon z m = m := by
  induction m generalizing lo with
  | nil => rfl
  | cons x r ih =>
    obtain ⟨a, v⟩ := x
    simp only [swfFrom, Bool.and_eq_true, decide_eq_true_eq] at h
    have h1 : r.dropWhile (fun x => decide (x.1 ≤ a)) = r := by
      cases r with
      | nil => rfl
      | cons y t =>
        have h2 := h.2
        simp only [swfFrom, Bool.and_eq_true, decide_eq_true_eq] at h2
        simp [List.dropWhile, show ¬ y.1 ≤ a by omega]
    simp [canon, ih _ h.2, h1, h.1.2]

/-- canon changes no canonical map. -/
theorem canon_eq {z : β} {m : SMap β} (h : swf z m = true) : canon z m = m := canon_eq_from z m 0 h

/-- Reading a byte after a write of one byte. -/
theorem peek_poke (m : List Host.Cell) (a a' : Nat) (b : Byte) :
    peek (poke m a b) a' = if a' = a then b else peek m a' := sget_sset m 0 b a a'

/-- A write of one byte keeps the canonical form. -/
theorem wf_poke {m : List Host.Cell} {a : Nat} {b : Byte} (h : Memory.wf m = true) : Memory.wf (poke m a b) = true :=
  swf_sset h

/-- Reading a byte after a write of bytes: the byte written inside them, what was read before outside. -/
theorem peek_pokeN (m : List Host.Cell) (a a' : Nat) (bs : List Byte) :
    peek (pokeN m a bs) a' = if h : a ≤ a' ∧ a' < a + bs.length then bs[a' - a]'(by omega) else peek m a' := by
  induction bs generalizing m a with
  | nil => simp [pokeN] <;> omega
  | cons b bs ih =>
    rw [pokeN, ih, peek_poke]
    by_cases h : a' = a
    · subst h; simp <;> (intro h; omega)
    · by_cases h2 : a + 1 ≤ a' ∧ a' < a + 1 + bs.length
      · have h3 : a ≤ a' ∧ a' < a + (b :: bs).length := by simp only [List.length_cons]; omega
        have h4 : a' - a = (a' - (a + 1)) + 1 := by omega
        simp only [h2, h3, and_self, dif_pos, h4, List.getElem_cons_succ]
      · have h3 : ¬ (a ≤ a' ∧ a' < a + (b :: bs).length) := by simp only [List.length_cons]; omega
        simp only [h2, h3, dif_neg, not_false_eq_true, h, if_false]

/-- A write of bytes keeps the canonical form. -/
theorem wf_pokeN {m : List Host.Cell} {a : Nat} {bs : List Byte} (h : Memory.wf m = true) :
    Memory.wf (pokeN m a bs) = true := by
  induction bs generalizing m a with
  | nil => exact h
  | cons b bs ih => exact ih (wf_poke h)

end Sys2Proof.Machine
end

