-- ==== Sys2Proof/Laws/Outcomes.lean ====
section
/-! SUPPORT. What the two ways of ending a command answer: `State.upd` changes the device alone, `State.done` gives a state
whose memories are canonical. -/

namespace Sys2Proof.Machine

theorem State.SameMem.refl (s : State) : s.SameMem s := ⟨fun _ => rfl, fun _ => rfl, fun _ => rfl, fun _ => rfl⟩

/-- The outcome of `done` is a next state that holds what was given to it. -/
theorem State.gives_done (s x : State) : s.Gives (s.done x) x :=
  ⟨_, rfl, rfl, rfl, fun _ => sget_canon 0 _ _, fun _ => sget_canon 0 _ _, fun _ => sget_canon 0 _ _,
    fun _ => sget_canon 0 _ _⟩

/-- A state that `done` answers is canonical, whatever was given to it. -/
theorem State.done_canonical {s x t : State} (h : s.done x = .next t) : t.Canonical := by
  cases h
  exact ⟨swf_canon 0 _, swf_canon 0 _, swf_canon 0 _, swf_canon 0 _⟩

/-- `done` answers a next state with the queue of its first argument. -/
theorem State.done_answers (s x : State) : ∃ t, s.done x = .next t ∧ t.pending = s.pending := ⟨_, rfl, rfl⟩

/-- `upd` answers a next state that differs in the device alone. -/
theorem State.upd_answers (s : State) (f : Dev → Dev) : ∃ t, s.upd f = .next t ∧ t.pending = s.pending ∧ t.MemKept s :=
  ⟨_, rfl, rfl, rfl, rfl, rfl, rfl⟩

@[simp] theorem State.upd_eq (s : State) (f : Dev → Dev) : s.upd f = .next (s.onDev f) := rfl
@[simp] theorem State.onDev_dev (s : State) (f : Dev → Dev) : (s.onDev f).dev = f s.dev := rfl
@[simp] theorem State.onDev_pending (s : State) (f : Dev → Dev) : (s.onDev f).pending = s.pending := rfl
@[simp] theorem State.onDev_mem (s : State) (f : Dev → Dev) : (s.onDev f).mem = s.mem := rfl
@[simp] theorem State.onDev_abuf (s : State) (f : Dev → Dev) : (s.onDev f).abuf = s.abuf := rfl
@[simp] theorem State.onDev_flash (s : State) (f : Dev → Dev) : (s.onDev f).flash = s.flash := rfl
@[simp] theorem State.onDev_ecc (s : State) (f : Dev → Dev) : (s.onDev f).ecc = s.ecc := rfl
@[simp] theorem State.onDev_onDev (s : State) (f g : Dev → Dev) : (s.onDev f).onDev g = s.onDev fun d => g (f d) := rfl

end Sys2Proof.Machine
end

