-- ==== Sys2Proof/Laws/Reads.lean ====
section
/-! SUPPORT. Device reads of HBM that meet no marked sector, and the reading of a run of bytes. -/

namespace Sys2Proof.Machine

/-- A read of HBM that meets no marked sector changes nothing and reports no error. -/
theorem State.hbmRead_unmarked {s : State} (h : s.ecc = []) (a n : Nat) :
    (s.hbmRead a n).1 = s ∧ (s.hbmRead a n).2.2 = false := by
  have e : ∀ k, sget s.ecc 0 k = 0 := fun k => by rw [h]; rfl
  simp [State.hbmRead, e, State.onDev, Dev.each]

/-- A read at an HBM address is the HBM block's. -/
theorem State.memRead_hbm {s : State} {a : Nat} (ha : ¬ a < 0x100000000000) (hb : a < 0x200000000000) (n : Nat) :
    s.memRead a n = ((s.hbmRead a n).1, (s.hbmRead a n).2.1, if (s.hbmRead a n).2.2 then 5 else 0) := by
  unfold State.memRead
  rw [if_neg ha, if_pos hb]

/-- The same of an access to a run of HBM. -/
theorem State.rangeRead_unmarked {s : State} {pl : Nat → Place} {a n : Nat} (h : s.ecc = []) (ha : 0x100000000000 ≤ a)
    (hb : a < 0x200000000000) (p : pl a = .mem a) (q : pl (a + n - 1) = .mem (a + n - 1)) :
    (s.rangeRead pl a n).1 = s ∧ (s.rangeRead pl a n).2.2 = 0 := by
  have e : s.rangeRead pl a n = s.memRead a n := by
    unfold State.rangeRead; rw [p, q]
  have r := State.hbmRead_unmarked h a n
  rw [e, State.memRead_hbm (Nat.not_lt.2 ha) hb, r.1, r.2]
  exact ⟨rfl, rfl⟩

/-- A device read of a run that lies in HBM and meets no marked sector reports no error. -/
theorem State.devRead_unmarked {s : State} {a n : Nat} (h : s.ecc = []) (ha : 0x100000000000 ≤ a) (hb : a + n ≤ 0x200000000000)
    (p : ∀ x, a ≤ x → x < a + n → s.dev.cmdPlace x = .mem x) : (s.devRead a n).2.2 = 0 := by
  have key : ∀ m a n bs, 0x100000000000 ≤ a → a + n ≤ 0x200000000000 →
      (∀ x, a ≤ x → x < a + n → s.dev.cmdPlace x = .mem x) →
      (((pages m a n).foldl (fun (x : State × List Byte × Nat) p =>
        let r := x.1.rangeRead x.1.dev.cmdPlace p.1 p.2
        (r.1, x.2.1 ++ r.2.1, if x.2.2 = 0 then r.2.2 else x.2.2)) (s, bs, 0)).2.2 = 0) := by
    intro m
    induction m with
    | zero => intros; rfl
    | succ m ih =>
      intro a n bs ha hb p
      rw [pages]
      by_cases h0 : n = 0
      · rw [if_pos h0]; rfl
      · rw [if_neg h0]
        have hk : 0 < min n (4096 - a % 4096) ∧ min n (4096 - a % 4096) ≤ n := by omega
        have r := State.rangeRead_unmarked (n := min n (4096 - a % 4096)) h ha (by omega) (p a (Nat.le_refl _) (by omega))
          (p _ (by omega) (by omega))
        simp only [List.foldl_cons, r.1, r.2, if_true]
        exact ih _ _ _ (by omega) (by omega) fun x hx hy => p x (by omega) (by omega)
  exact key _ _ _ _ ha hb p
/-- An address of an HBM stack that serves is memory (R10, R241). -/
theorem Dev.place_hbm {d : Dev} {f : Nat → Option Nat} {h o : Nat} (hh : h < 16) (ho : o < 0xBA0000000)
    (hs : d.hbmServes h = true) :
    d.place f (0x100000000000 + h * 0x1000000000 + o) = .mem (0x100000000000 + h * 0x1000000000 + o) := by
  have e : (0x100000000000 + h * 0x1000000000 + o - 0x100000000000) / 0x1000000000 = h := by omega
  have g : (0x100000000000 + h * 0x1000000000 + o) % 0x1000000000 = o := by omega
  have lo : 0x100000000000 ≤ 0x100000000000 + h * 0x1000000000 + o := by omega
  have hi : 0x100000000000 + h * 0x1000000000 + o < 0x110000000000 := by omega
  generalize 0x100000000000 + h * 0x1000000000 + o = a at *
  have h1 : ¬ a < 0x1000000 := by omega
  have h2 : ¬ a < 0x10000000 := by omega
  have h3 : ¬ a < 0x20000000 := by omega
  have h4 : ¬ a < 0x21000000 := by omega
  have h5 : ¬ (0x1000000000 ≤ a ∧ a < 0x1800000000) := by omega
  have h6 : ¬ (0x1800000000 ≤ a ∧ a < 0x1F80000000) := by omega
  unfold Dev.place
  rw [if_neg h1, if_neg h2, if_neg h3, if_neg h4]
  simp only [Bool.and_eq_true, decide_eq_true_eq]
  rw [if_neg h5, if_neg h6, if_pos ⟨lo, hi⟩, e, g, if_pos ⟨ho, hs⟩]

/-- A number inside the first of two runs of bytes. -/
theorem leAt_append {l r : List Byte} {a n : Nat} (h : a + n ≤ l.length) : leAt (l ++ r) a n = leAt l a n := by
  rw [leAt, leAt, List.drop_append_of_le_length (by omega), List.take_append_of_le_length (by simp; omega)]

/-- A digest is 32 bytes. -/
theorem sha3_length (m : List Byte) : (sha3 m).length = 32 := by
  simp only [sha3]
  rw [List.length_flatMap]
  rfl

end Sys2Proof.Machine
end

