-- ==== Sys2Proof/Laws/State.lean ====
section
/-! SUPPORT. What each update of the device leaves as it is, one lemma per field and update, and what it does to the part that it
updates: a later proof cites these and unfolds no record. -/

namespace Sys2Proof.Machine


/-! `Dev.setR`. -/

@[simp] theorem Dev.setR_jmem (d : Dev) (r : Reg) (u : Nat) (w : Word) (i : Nat) : (d.setR r u w i).jmem = d.jmem := rfl
@[simp] theorem Dev.setR_cores (d : Dev) (r : Reg) (u : Nat) (w : Word) (i : Nat) : (d.setR r u w i).cores = d.cores := rfl
@[simp] theorem Dev.setR_clus (d : Dev) (r : Reg) (u : Nat) (w : Word) (i : Nat) : (d.setR r u w i).clus = d.clus := rfl
@[simp] theorem Dev.setR_rtrs (d : Dev) (r : Reg) (u : Nat) (w : Word) (i : Nat) : (d.setR r u w i).rtrs = d.rtrs := rfl
@[simp] theorem Dev.setR_hbms (d : Dev) (r : Reg) (u : Nat) (w : Word) (i : Nat) : (d.setR r u w i).hbms = d.hbms := rfl
@[simp] theorem Dev.setR_cels (d : Dev) (r : Reg) (u : Nat) (w : Word) (i : Nat) : (d.setR r u w i).cels = d.cels := rfl
@[simp] theorem Dev.setR_lnks (d : Dev) (r : Reg) (u : Nat) (w : Word) (i : Nat) : (d.setR r u w i).lnks = d.lnks := rfl
@[simp] theorem Dev.setR_doms (d : Dev) (r : Reg) (u : Nat) (w : Word) (i : Nat) : (d.setR r u w i).doms = d.doms := rfl
@[simp] theorem Dev.setR_hw (d : Dev) (r : Reg) (u : Nat) (w : Word) (i : Nat) : (d.setR r u w i).hw = d.hw := rfl
@[simp] theorem Dev.setR_net (d : Dev) (r : Reg) (u : Nat) (w : Word) (i : Nat) : (d.setR r u w i).net = d.net := rfl
@[simp] theorem Dev.setR_stage (d : Dev) (r : Reg) (u : Nat) (w : Word) (i : Nat) : (d.setR r u w i).stage = d.stage := rfl
@[simp] theorem Dev.setR_circNet (d : Dev) (r : Reg) (u : Nat) (w : Word) (i : Nat) : (d.setR r u w i).circNet = d.circNet := rfl
@[simp] theorem Dev.setR_reqs (d : Dev) (r : Reg) (u : Nat) (w : Word) (i : Nat) : (d.setR r u w i).reqs = d.reqs := rfl
@[simp] theorem Dev.setR_injw (d : Dev) (r : Reg) (u : Nat) (w : Word) (i : Nat) : (d.setR r u w i).injw = d.injw := rfl
@[simp] theorem Dev.setR_deadTags (d : Dev) (r : Reg) (u : Nat) (w : Word) (i : Nat) : (d.setR r u w i).deadTags = d.deadTags := rfl
@[simp] theorem Dev.setR_asms (d : Dev) (r : Reg) (u : Nat) (w : Word) (i : Nat) : (d.setR r u w i).asms = d.asms := rfl
@[simp] theorem Dev.setR_circ (d : Dev) (r : Reg) (u : Nat) (w : Word) (i : Nat) : (d.setR r u w i).circ = d.circ := rfl
@[simp] theorem Dev.setR_evq (d : Dev) (r : Reg) (u : Nat) (w : Word) (i : Nat) : (d.setR r u w i).evq = d.evq := rfl
@[simp] theorem Dev.setR_out (d : Dev) (r : Reg) (u : Nat) (w : Word) (i : Nat) : (d.setR r u w i).out = d.out := rfl
@[simp] theorem Dev.setR_fresh (d : Dev) (r : Reg) (u : Nat) (w : Word) (i : Nat) : (d.setR r u w i).fresh = d.fresh := rfl
@[simp] theorem Dev.setR_cmds (d : Dev) (r : Reg) (u : Nat) (w : Word) (i : Nat) : (d.setR r u w i).cmds = d.cmds := rfl
@[simp] theorem Dev.setR_accWaited (d : Dev) (r : Reg) (u : Nat) (w : Word) (i : Nat) : (d.setR r u w i).accWaited = d.accWaited := rfl
@[simp] theorem Dev.setR_sessions (d : Dev) (r : Reg) (u : Nat) (w : Word) (i : Nat) : (d.setR r u w i).sessions = d.sessions := rfl
@[simp] theorem Dev.setR_dec (d : Dev) (r : Reg) (u : Nat) (w : Word) (i : Nat) : (d.setR r u w i).dec = d.dec := rfl
@[simp] theorem Dev.setR_hostReads (d : Dev) (r : Reg) (u : Nat) (w : Word) (i : Nat) : (d.setR r u w i).hostReads = d.hostReads := rfl
@[simp] theorem Dev.setR_jwait (d : Dev) (r : Reg) (u : Nat) (w : Word) (i : Nat) : (d.setR r u w i).jwait = d.jwait := rfl
@[simp] theorem Dev.setR_pair (d : Dev) (r : Reg) (u : Nat) (w : Word) (i : Nat) : (d.setR r u w i).pair = d.pair := rfl
@[simp] theorem Dev.setR_trn (d : Dev) (r : Reg) (u : Nat) (w : Word) (i : Nat) : (d.setR r u w i).trn = d.trn := rfl
@[simp] theorem Dev.setR_pch (d : Dev) (r : Reg) (u : Nat) (w : Word) (i : Nat) : (d.setR r u w i).pch = d.pch := rfl
@[simp] theorem Dev.setR_pwr (d : Dev) (r : Reg) (u : Nat) (w : Word) (i : Nat) : (d.setR r u w i).pwr = d.pwr := rfl
@[simp] theorem Dev.setR_tim (d : Dev) (r : Reg) (u : Nat) (w : Word) (i : Nat) : (d.setR r u w i).tim = d.tim := rfl
@[simp] theorem Dev.setR_boot (d : Dev) (r : Reg) (u : Nat) (w : Word) (i : Nat) : (d.setR r u w i).boot = d.boot := rfl
@[simp] theorem Dev.setR_nwt (d : Dev) (r : Reg) (u : Nat) (w : Word) (i : Nat) : (d.setR r u w i).nwt = d.nwt := rfl
@[simp] theorem Dev.setR_obs (d : Dev) (r : Reg) (u : Nat) (w : Word) (i : Nat) : (d.setR r u w i).obs = d.obs := rfl
@[simp] theorem Dev.setR_visited (d : Dev) (r : Reg) (u : Nat) (w : Word) (i : Nat) : (d.setR r u w i).visited = d.visited := rfl
@[simp] theorem Dev.setR_i3c (d : Dev) (r : Reg) (u : Nat) (w : Word) (i : Nat) : (d.setR r u w i).i3c = d.i3c := rfl
@[simp] theorem Dev.setR_sill (d : Dev) (r : Reg) (u : Nat) (w : Word) (i : Nat) : (d.setR r u w i).sill = d.sill := rfl
@[simp] theorem Dev.setR_hostDead (d : Dev) (r : Reg) (u : Nat) (w : Word) (i : Nat) : (d.setR r u w i).hostDead = d.hostDead := rfl
@[simp] theorem Dev.setR_ntfOut (d : Dev) (r : Reg) (u : Nat) (w : Word) (i : Nat) : (d.setR r u w i).ntfOut = d.ntfOut := rfl
@[simp] theorem Dev.setR_evtCount (d : Dev) (r : Reg) (u : Nat) (w : Word) (i : Nat) : (d.setR r u w i).evtCount = d.evtCount := rfl
@[simp] theorem Dev.setR_evtPend (d : Dev) (r : Reg) (u : Nat) (w : Word) (i : Nat) : (d.setR r u w i).evtPend = d.evtPend := rfl
@[simp] theorem Dev.setR_alertAt (d : Dev) (r : Reg) (u : Nat) (w : Word) (i : Nat) : (d.setR r u w i).alertAt = d.alertAt := rfl

/-! `Dev.setF`. -/

@[simp] theorem Dev.setF_jmem (d : Dev) (f : Fld) (u v i : Nat) : (d.setF f u v i).jmem = d.jmem := rfl
@[simp] theorem Dev.setF_cores (d : Dev) (f : Fld) (u v i : Nat) : (d.setF f u v i).cores = d.cores := rfl
@[simp] theorem Dev.setF_clus (d : Dev) (f : Fld) (u v i : Nat) : (d.setF f u v i).clus = d.clus := rfl
@[simp] theorem Dev.setF_rtrs (d : Dev) (f : Fld) (u v i : Nat) : (d.setF f u v i).rtrs = d.rtrs := rfl
@[simp] theorem Dev.setF_hbms (d : Dev) (f : Fld) (u v i : Nat) : (d.setF f u v i).hbms = d.hbms := rfl
@[simp] theorem Dev.setF_cels (d : Dev) (f : Fld) (u v i : Nat) : (d.setF f u v i).cels = d.cels := rfl
@[simp] theorem Dev.setF_lnks (d : Dev) (f : Fld) (u v i : Nat) : (d.setF f u v i).lnks = d.lnks := rfl
@[simp] theorem Dev.setF_doms (d : Dev) (f : Fld) (u v i : Nat) : (d.setF f u v i).doms = d.doms := rfl
@[simp] theorem Dev.setF_hw (d : Dev) (f : Fld) (u v i : Nat) : (d.setF f u v i).hw = d.hw := rfl
@[simp] theorem Dev.setF_net (d : Dev) (f : Fld) (u v i : Nat) : (d.setF f u v i).net = d.net := rfl
@[simp] theorem Dev.setF_stage (d : Dev) (f : Fld) (u v i : Nat) : (d.setF f u v i).stage = d.stage := rfl
@[simp] theorem Dev.setF_circNet (d : Dev) (f : Fld) (u v i : Nat) : (d.setF f u v i).circNet = d.circNet := rfl
@[simp] theorem Dev.setF_reqs (d : Dev) (f : Fld) (u v i : Nat) : (d.setF f u v i).reqs = d.reqs := rfl
@[simp] theorem Dev.setF_injw (d : Dev) (f : Fld) (u v i : Nat) : (d.setF f u v i).injw = d.injw := rfl
@[simp] theorem Dev.setF_deadTags (d : Dev) (f : Fld) (u v i : Nat) : (d.setF f u v i).deadTags = d.deadTags := rfl
@[simp] theorem Dev.setF_asms (d : Dev) (f : Fld) (u v i : Nat) : (d.setF f u v i).asms = d.asms := rfl
@[simp] theorem Dev.setF_circ (d : Dev) (f : Fld) (u v i : Nat) : (d.setF f u v i).circ = d.circ := rfl
@[simp] theorem Dev.setF_evq (d : Dev) (f : Fld) (u v i : Nat) : (d.setF f u v i).evq = d.evq := rfl
@[simp] theorem Dev.setF_out (d : Dev) (f : Fld) (u v i : Nat) : (d.setF f u v i).out = d.out := rfl
@[simp] theorem Dev.setF_fresh (d : Dev) (f : Fld) (u v i : Nat) : (d.setF f u v i).fresh = d.fresh := rfl
@[simp] theorem Dev.setF_cmds (d : Dev) (f : Fld) (u v i : Nat) : (d.setF f u v i).cmds = d.cmds := rfl
@[simp] theorem Dev.setF_accWaited (d : Dev) (f : Fld) (u v i : Nat) : (d.setF f u v i).accWaited = d.accWaited := rfl
@[simp] theorem Dev.setF_sessions (d : Dev) (f : Fld) (u v i : Nat) : (d.setF f u v i).sessions = d.sessions := rfl
@[simp] theorem Dev.setF_dec (d : Dev) (f : Fld) (u v i : Nat) : (d.setF f u v i).dec = d.dec := rfl
@[simp] theorem Dev.setF_hostReads (d : Dev) (f : Fld) (u v i : Nat) : (d.setF f u v i).hostReads = d.hostReads := rfl
@[simp] theorem Dev.setF_jwait (d : Dev) (f : Fld) (u v i : Nat) : (d.setF f u v i).jwait = d.jwait := rfl
@[simp] theorem Dev.setF_pair (d : Dev) (f : Fld) (u v i : Nat) : (d.setF f u v i).pair = d.pair := rfl
@[simp] theorem Dev.setF_trn (d : Dev) (f : Fld) (u v i : Nat) : (d.setF f u v i).trn = d.trn := rfl
@[simp] theorem Dev.setF_pch (d : Dev) (f : Fld) (u v i : Nat) : (d.setF f u v i).pch = d.pch := rfl
@[simp] theorem Dev.setF_pwr (d : Dev) (f : Fld) (u v i : Nat) : (d.setF f u v i).pwr = d.pwr := rfl
@[simp] theorem Dev.setF_tim (d : Dev) (f : Fld) (u v i : Nat) : (d.setF f u v i).tim = d.tim := rfl
@[simp] theorem Dev.setF_boot (d : Dev) (f : Fld) (u v i : Nat) : (d.setF f u v i).boot = d.boot := rfl
@[simp] theorem Dev.setF_nwt (d : Dev) (f : Fld) (u v i : Nat) : (d.setF f u v i).nwt = d.nwt := rfl
@[simp] theorem Dev.setF_obs (d : Dev) (f : Fld) (u v i : Nat) : (d.setF f u v i).obs = d.obs := rfl
@[simp] theorem Dev.setF_visited (d : Dev) (f : Fld) (u v i : Nat) : (d.setF f u v i).visited = d.visited := rfl
@[simp] theorem Dev.setF_i3c (d : Dev) (f : Fld) (u v i : Nat) : (d.setF f u v i).i3c = d.i3c := rfl
@[simp] theorem Dev.setF_sill (d : Dev) (f : Fld) (u v i : Nat) : (d.setF f u v i).sill = d.sill := rfl
@[simp] theorem Dev.setF_hostDead (d : Dev) (f : Fld) (u v i : Nat) : (d.setF f u v i).hostDead = d.hostDead := rfl
@[simp] theorem Dev.setF_ntfOut (d : Dev) (f : Fld) (u v i : Nat) : (d.setF f u v i).ntfOut = d.ntfOut := rfl
@[simp] theorem Dev.setF_evtCount (d : Dev) (f : Fld) (u v i : Nat) : (d.setF f u v i).evtCount = d.evtCount := rfl
@[simp] theorem Dev.setF_evtPend (d : Dev) (f : Fld) (u v i : Nat) : (d.setF f u v i).evtPend = d.evtPend := rfl
@[simp] theorem Dev.setF_alertAt (d : Dev) (f : Fld) (u v i : Nat) : (d.setF f u v i).alertAt = d.alertAt := rfl

/-! `Dev.emit`. -/

@[simp] theorem Dev.emit_regs (d : Dev) (o : Output) : (d.emit o).regs = d.regs := rfl
@[simp] theorem Dev.emit_jmem (d : Dev) (o : Output) : (d.emit o).jmem = d.jmem := rfl
@[simp] theorem Dev.emit_cores (d : Dev) (o : Output) : (d.emit o).cores = d.cores := rfl
@[simp] theorem Dev.emit_clus (d : Dev) (o : Output) : (d.emit o).clus = d.clus := rfl
@[simp] theorem Dev.emit_rtrs (d : Dev) (o : Output) : (d.emit o).rtrs = d.rtrs := rfl
@[simp] theorem Dev.emit_hbms (d : Dev) (o : Output) : (d.emit o).hbms = d.hbms := rfl
@[simp] theorem Dev.emit_cels (d : Dev) (o : Output) : (d.emit o).cels = d.cels := rfl
@[simp] theorem Dev.emit_lnks (d : Dev) (o : Output) : (d.emit o).lnks = d.lnks := rfl
@[simp] theorem Dev.emit_doms (d : Dev) (o : Output) : (d.emit o).doms = d.doms := rfl
@[simp] theorem Dev.emit_hw (d : Dev) (o : Output) : (d.emit o).hw = d.hw := rfl
@[simp] theorem Dev.emit_net (d : Dev) (o : Output) : (d.emit o).net = d.net := rfl
@[simp] theorem Dev.emit_stage (d : Dev) (o : Output) : (d.emit o).stage = d.stage := rfl
@[simp] theorem Dev.emit_circNet (d : Dev) (o : Output) : (d.emit o).circNet = d.circNet := rfl
@[simp] theorem Dev.emit_reqs (d : Dev) (o : Output) : (d.emit o).reqs = d.reqs := rfl
@[simp] theorem Dev.emit_injw (d : Dev) (o : Output) : (d.emit o).injw = d.injw := rfl
@[simp] theorem Dev.emit_deadTags (d : Dev) (o : Output) : (d.emit o).deadTags = d.deadTags := rfl
@[simp] theorem Dev.emit_asms (d : Dev) (o : Output) : (d.emit o).asms = d.asms := rfl
@[simp] theorem Dev.emit_circ (d : Dev) (o : Output) : (d.emit o).circ = d.circ := rfl
@[simp] theorem Dev.emit_evq (d : Dev) (o : Output) : (d.emit o).evq = d.evq := rfl
@[simp] theorem Dev.emit_fresh (d : Dev) (o : Output) : (d.emit o).fresh = d.fresh := rfl
@[simp] theorem Dev.emit_cmds (d : Dev) (o : Output) : (d.emit o).cmds = d.cmds := rfl
@[simp] theorem Dev.emit_accWaited (d : Dev) (o : Output) : (d.emit o).accWaited = d.accWaited := rfl
@[simp] theorem Dev.emit_sessions (d : Dev) (o : Output) : (d.emit o).sessions = d.sessions := rfl
@[simp] theorem Dev.emit_dec (d : Dev) (o : Output) : (d.emit o).dec = d.dec := rfl
@[simp] theorem Dev.emit_hostReads (d : Dev) (o : Output) : (d.emit o).hostReads = d.hostReads := rfl
@[simp] theorem Dev.emit_jwait (d : Dev) (o : Output) : (d.emit o).jwait = d.jwait := rfl
@[simp] theorem Dev.emit_pair (d : Dev) (o : Output) : (d.emit o).pair = d.pair := rfl
@[simp] theorem Dev.emit_trn (d : Dev) (o : Output) : (d.emit o).trn = d.trn := rfl
@[simp] theorem Dev.emit_pch (d : Dev) (o : Output) : (d.emit o).pch = d.pch := rfl
@[simp] theorem Dev.emit_pwr (d : Dev) (o : Output) : (d.emit o).pwr = d.pwr := rfl
@[simp] theorem Dev.emit_tim (d : Dev) (o : Output) : (d.emit o).tim = d.tim := rfl
@[simp] theorem Dev.emit_boot (d : Dev) (o : Output) : (d.emit o).boot = d.boot := rfl
@[simp] theorem Dev.emit_nwt (d : Dev) (o : Output) : (d.emit o).nwt = d.nwt := rfl
@[simp] theorem Dev.emit_obs (d : Dev) (o : Output) : (d.emit o).obs = d.obs := rfl
@[simp] theorem Dev.emit_visited (d : Dev) (o : Output) : (d.emit o).visited = d.visited := rfl
@[simp] theorem Dev.emit_i3c (d : Dev) (o : Output) : (d.emit o).i3c = d.i3c := rfl
@[simp] theorem Dev.emit_sill (d : Dev) (o : Output) : (d.emit o).sill = d.sill := rfl
@[simp] theorem Dev.emit_hostDead (d : Dev) (o : Output) : (d.emit o).hostDead = d.hostDead := rfl
@[simp] theorem Dev.emit_ntfOut (d : Dev) (o : Output) : (d.emit o).ntfOut = d.ntfOut := rfl
@[simp] theorem Dev.emit_evtCount (d : Dev) (o : Output) : (d.emit o).evtCount = d.evtCount := rfl
@[simp] theorem Dev.emit_evtPend (d : Dev) (o : Output) : (d.emit o).evtPend = d.evtPend := rfl
@[simp] theorem Dev.emit_alertAt (d : Dev) (o : Output) : (d.emit o).alertAt = d.alertAt := rfl

/-! `Dev.took`. -/

@[simp] theorem Dev.took_regs (d : Dev) : (d.took).regs = d.regs := rfl
@[simp] theorem Dev.took_jmem (d : Dev) : (d.took).jmem = d.jmem := rfl
@[simp] theorem Dev.took_cores (d : Dev) : (d.took).cores = d.cores := rfl
@[simp] theorem Dev.took_clus (d : Dev) : (d.took).clus = d.clus := rfl
@[simp] theorem Dev.took_rtrs (d : Dev) : (d.took).rtrs = d.rtrs := rfl
@[simp] theorem Dev.took_hbms (d : Dev) : (d.took).hbms = d.hbms := rfl
@[simp] theorem Dev.took_cels (d : Dev) : (d.took).cels = d.cels := rfl
@[simp] theorem Dev.took_lnks (d : Dev) : (d.took).lnks = d.lnks := rfl
@[simp] theorem Dev.took_doms (d : Dev) : (d.took).doms = d.doms := rfl
@[simp] theorem Dev.took_hw (d : Dev) : (d.took).hw = d.hw := rfl
@[simp] theorem Dev.took_net (d : Dev) : (d.took).net = d.net := rfl
@[simp] theorem Dev.took_stage (d : Dev) : (d.took).stage = d.stage := rfl
@[simp] theorem Dev.took_circNet (d : Dev) : (d.took).circNet = d.circNet := rfl
@[simp] theorem Dev.took_reqs (d : Dev) : (d.took).reqs = d.reqs := rfl
@[simp] theorem Dev.took_injw (d : Dev) : (d.took).injw = d.injw := rfl
@[simp] theorem Dev.took_deadTags (d : Dev) : (d.took).deadTags = d.deadTags := rfl
@[simp] theorem Dev.took_asms (d : Dev) : (d.took).asms = d.asms := rfl
@[simp] theorem Dev.took_circ (d : Dev) : (d.took).circ = d.circ := rfl
@[simp] theorem Dev.took_evq (d : Dev) : (d.took).evq = d.evq := rfl
@[simp] theorem Dev.took_out (d : Dev) : (d.took).out = d.out := rfl
@[simp] theorem Dev.took_cmds (d : Dev) : (d.took).cmds = d.cmds := rfl
@[simp] theorem Dev.took_accWaited (d : Dev) : (d.took).accWaited = d.accWaited := rfl
@[simp] theorem Dev.took_sessions (d : Dev) : (d.took).sessions = d.sessions := rfl
@[simp] theorem Dev.took_dec (d : Dev) : (d.took).dec = d.dec := rfl
@[simp] theorem Dev.took_hostReads (d : Dev) : (d.took).hostReads = d.hostReads := rfl
@[simp] theorem Dev.took_jwait (d : Dev) : (d.took).jwait = d.jwait := rfl
@[simp] theorem Dev.took_pair (d : Dev) : (d.took).pair = d.pair := rfl
@[simp] theorem Dev.took_trn (d : Dev) : (d.took).trn = d.trn := rfl
@[simp] theorem Dev.took_pch (d : Dev) : (d.took).pch = d.pch := rfl
@[simp] theorem Dev.took_pwr (d : Dev) : (d.took).pwr = d.pwr := rfl
@[simp] theorem Dev.took_tim (d : Dev) : (d.took).tim = d.tim := rfl
@[simp] theorem Dev.took_boot (d : Dev) : (d.took).boot = d.boot := rfl
@[simp] theorem Dev.took_nwt (d : Dev) : (d.took).nwt = d.nwt := rfl
@[simp] theorem Dev.took_obs (d : Dev) : (d.took).obs = d.obs := rfl
@[simp] theorem Dev.took_visited (d : Dev) : (d.took).visited = d.visited := rfl
@[simp] theorem Dev.took_i3c (d : Dev) : (d.took).i3c = d.i3c := rfl
@[simp] theorem Dev.took_sill (d : Dev) : (d.took).sill = d.sill := rfl
@[simp] theorem Dev.took_hostDead (d : Dev) : (d.took).hostDead = d.hostDead := rfl
@[simp] theorem Dev.took_ntfOut (d : Dev) : (d.took).ntfOut = d.ntfOut := rfl
@[simp] theorem Dev.took_evtCount (d : Dev) : (d.took).evtCount = d.evtCount := rfl
@[simp] theorem Dev.took_evtPend (d : Dev) : (d.took).evtPend = d.evtPend := rfl
@[simp] theorem Dev.took_alertAt (d : Dev) : (d.took).alertAt = d.alertAt := rfl

/-! `Dev.tick`. -/

@[simp] theorem Dev.tick_regs (d : Dev) : (d.tick).regs = d.regs := rfl
@[simp] theorem Dev.tick_jmem (d : Dev) : (d.tick).jmem = d.jmem := rfl
@[simp] theorem Dev.tick_cores (d : Dev) : (d.tick).cores = d.cores := rfl
@[simp] theorem Dev.tick_clus (d : Dev) : (d.tick).clus = d.clus := rfl
@[simp] theorem Dev.tick_rtrs (d : Dev) : (d.tick).rtrs = d.rtrs := rfl
@[simp] theorem Dev.tick_hbms (d : Dev) : (d.tick).hbms = d.hbms := rfl
@[simp] theorem Dev.tick_cels (d : Dev) : (d.tick).cels = d.cels := rfl
@[simp] theorem Dev.tick_lnks (d : Dev) : (d.tick).lnks = d.lnks := rfl
@[simp] theorem Dev.tick_doms (d : Dev) : (d.tick).doms = d.doms := rfl
@[simp] theorem Dev.tick_hw (d : Dev) : (d.tick).hw = d.hw := rfl
@[simp] theorem Dev.tick_net (d : Dev) : (d.tick).net = d.net := rfl
@[simp] theorem Dev.tick_stage (d : Dev) : (d.tick).stage = d.stage := rfl
@[simp] theorem Dev.tick_circNet (d : Dev) : (d.tick).circNet = d.circNet := rfl
@[simp] theorem Dev.tick_reqs (d : Dev) : (d.tick).reqs = d.reqs := rfl
@[simp] theorem Dev.tick_injw (d : Dev) : (d.tick).injw = d.injw := rfl
@[simp] theorem Dev.tick_deadTags (d : Dev) : (d.tick).deadTags = d.deadTags := rfl
@[simp] theorem Dev.tick_asms (d : Dev) : (d.tick).asms = d.asms := rfl
@[simp] theorem Dev.tick_circ (d : Dev) : (d.tick).circ = d.circ := rfl
@[simp] theorem Dev.tick_evq (d : Dev) : (d.tick).evq = d.evq := rfl
@[simp] theorem Dev.tick_out (d : Dev) : (d.tick).out = d.out := rfl
@[simp] theorem Dev.tick_fresh (d : Dev) : (d.tick).fresh = d.fresh := rfl
@[simp] theorem Dev.tick_cmds (d : Dev) : (d.tick).cmds = d.cmds := rfl
@[simp] theorem Dev.tick_accWaited (d : Dev) : (d.tick).accWaited = d.accWaited := rfl
@[simp] theorem Dev.tick_sessions (d : Dev) : (d.tick).sessions = d.sessions := rfl
@[simp] theorem Dev.tick_dec (d : Dev) : (d.tick).dec = d.dec := rfl
@[simp] theorem Dev.tick_hostReads (d : Dev) : (d.tick).hostReads = d.hostReads := rfl
@[simp] theorem Dev.tick_jwait (d : Dev) : (d.tick).jwait = d.jwait := rfl
@[simp] theorem Dev.tick_pair (d : Dev) : (d.tick).pair = d.pair := rfl
@[simp] theorem Dev.tick_trn (d : Dev) : (d.tick).trn = d.trn := rfl
@[simp] theorem Dev.tick_pch (d : Dev) : (d.tick).pch = d.pch := rfl
@[simp] theorem Dev.tick_pwr (d : Dev) : (d.tick).pwr = d.pwr := rfl
@[simp] theorem Dev.tick_boot (d : Dev) : (d.tick).boot = d.boot := rfl
@[simp] theorem Dev.tick_nwt (d : Dev) : (d.tick).nwt = d.nwt := rfl
@[simp] theorem Dev.tick_obs (d : Dev) : (d.tick).obs = d.obs := rfl
@[simp] theorem Dev.tick_visited (d : Dev) : (d.tick).visited = d.visited := rfl
@[simp] theorem Dev.tick_i3c (d : Dev) : (d.tick).i3c = d.i3c := rfl
@[simp] theorem Dev.tick_sill (d : Dev) : (d.tick).sill = d.sill := rfl
@[simp] theorem Dev.tick_hostDead (d : Dev) : (d.tick).hostDead = d.hostDead := rfl
@[simp] theorem Dev.tick_ntfOut (d : Dev) : (d.tick).ntfOut = d.ntfOut := rfl
@[simp] theorem Dev.tick_evtCount (d : Dev) : (d.tick).evtCount = d.evtCount := rfl
@[simp] theorem Dev.tick_evtPend (d : Dev) : (d.tick).evtPend = d.evtPend := rfl
@[simp] theorem Dev.tick_alertAt (d : Dev) : (d.tick).alertAt = d.alertAt := rfl

/-! `Dev.modCore`. -/

@[simp] theorem Dev.modCore_regs (d : Dev) (u : Nat) (f : CoreS → CoreS) : (d.modCore u f).regs = d.regs := rfl
@[simp] theorem Dev.modCore_jmem (d : Dev) (u : Nat) (f : CoreS → CoreS) : (d.modCore u f).jmem = d.jmem := rfl
@[simp] theorem Dev.modCore_clus (d : Dev) (u : Nat) (f : CoreS → CoreS) : (d.modCore u f).clus = d.clus := rfl
@[simp] theorem Dev.modCore_rtrs (d : Dev) (u : Nat) (f : CoreS → CoreS) : (d.modCore u f).rtrs = d.rtrs := rfl
@[simp] theorem Dev.modCore_hbms (d : Dev) (u : Nat) (f : CoreS → CoreS) : (d.modCore u f).hbms = d.hbms := rfl
@[simp] theorem Dev.modCore_cels (d : Dev) (u : Nat) (f : CoreS → CoreS) : (d.modCore u f).cels = d.cels := rfl
@[simp] theorem Dev.modCore_lnks (d : Dev) (u : Nat) (f : CoreS → CoreS) : (d.modCore u f).lnks = d.lnks := rfl
@[simp] theorem Dev.modCore_doms (d : Dev) (u : Nat) (f : CoreS → CoreS) : (d.modCore u f).doms = d.doms := rfl
@[simp] theorem Dev.modCore_hw (d : Dev) (u : Nat) (f : CoreS → CoreS) : (d.modCore u f).hw = d.hw := rfl
@[simp] theorem Dev.modCore_net (d : Dev) (u : Nat) (f : CoreS → CoreS) : (d.modCore u f).net = d.net := rfl
@[simp] theorem Dev.modCore_stage (d : Dev) (u : Nat) (f : CoreS → CoreS) : (d.modCore u f).stage = d.stage := rfl
@[simp] theorem Dev.modCore_circNet (d : Dev) (u : Nat) (f : CoreS → CoreS) : (d.modCore u f).circNet = d.circNet := rfl
@[simp] theorem Dev.modCore_reqs (d : Dev) (u : Nat) (f : CoreS → CoreS) : (d.modCore u f).reqs = d.reqs := rfl
@[simp] theorem Dev.modCore_injw (d : Dev) (u : Nat) (f : CoreS → CoreS) : (d.modCore u f).injw = d.injw := rfl
@[simp] theorem Dev.modCore_deadTags (d : Dev) (u : Nat) (f : CoreS → CoreS) : (d.modCore u f).deadTags = d.deadTags := rfl
@[simp] theorem Dev.modCore_asms (d : Dev) (u : Nat) (f : CoreS → CoreS) : (d.modCore u f).asms = d.asms := rfl
@[simp] theorem Dev.modCore_circ (d : Dev) (u : Nat) (f : CoreS → CoreS) : (d.modCore u f).circ = d.circ := rfl
@[simp] theorem Dev.modCore_evq (d : Dev) (u : Nat) (f : CoreS → CoreS) : (d.modCore u f).evq = d.evq := rfl
@[simp] theorem Dev.modCore_out (d : Dev) (u : Nat) (f : CoreS → CoreS) : (d.modCore u f).out = d.out := rfl
@[simp] theorem Dev.modCore_fresh (d : Dev) (u : Nat) (f : CoreS → CoreS) : (d.modCore u f).fresh = d.fresh := rfl
@[simp] theorem Dev.modCore_cmds (d : Dev) (u : Nat) (f : CoreS → CoreS) : (d.modCore u f).cmds = d.cmds := rfl
@[simp] theorem Dev.modCore_accWaited (d : Dev) (u : Nat) (f : CoreS → CoreS) : (d.modCore u f).accWaited = d.accWaited := rfl
@[simp] theorem Dev.modCore_sessions (d : Dev) (u : Nat) (f : CoreS → CoreS) : (d.modCore u f).sessions = d.sessions := rfl
@[simp] theorem Dev.modCore_dec (d : Dev) (u : Nat) (f : CoreS → CoreS) : (d.modCore u f).dec = d.dec := rfl
@[simp] theorem Dev.modCore_hostReads (d : Dev) (u : Nat) (f : CoreS → CoreS) : (d.modCore u f).hostReads = d.hostReads := rfl
@[simp] theorem Dev.modCore_jwait (d : Dev) (u : Nat) (f : CoreS → CoreS) : (d.modCore u f).jwait = d.jwait := rfl
@[simp] theorem Dev.modCore_pair (d : Dev) (u : Nat) (f : CoreS → CoreS) : (d.modCore u f).pair = d.pair := rfl
@[simp] theorem Dev.modCore_trn (d : Dev) (u : Nat) (f : CoreS → CoreS) : (d.modCore u f).trn = d.trn := rfl
@[simp] theorem Dev.modCore_pch (d : Dev) (u : Nat) (f : CoreS → CoreS) : (d.modCore u f).pch = d.pch := rfl
@[simp] theorem Dev.modCore_pwr (d : Dev) (u : Nat) (f : CoreS → CoreS) : (d.modCore u f).pwr = d.pwr := rfl
@[simp] theorem Dev.modCore_tim (d : Dev) (u : Nat) (f : CoreS → CoreS) : (d.modCore u f).tim = d.tim := rfl
@[simp] theorem Dev.modCore_boot (d : Dev) (u : Nat) (f : CoreS → CoreS) : (d.modCore u f).boot = d.boot := rfl
@[simp] theorem Dev.modCore_nwt (d : Dev) (u : Nat) (f : CoreS → CoreS) : (d.modCore u f).nwt = d.nwt := rfl
@[simp] theorem Dev.modCore_obs (d : Dev) (u : Nat) (f : CoreS → CoreS) : (d.modCore u f).obs = d.obs := rfl
@[simp] theorem Dev.modCore_visited (d : Dev) (u : Nat) (f : CoreS → CoreS) : (d.modCore u f).visited = d.visited := rfl
@[simp] theorem Dev.modCore_i3c (d : Dev) (u : Nat) (f : CoreS → CoreS) : (d.modCore u f).i3c = d.i3c := rfl
@[simp] theorem Dev.modCore_sill (d : Dev) (u : Nat) (f : CoreS → CoreS) : (d.modCore u f).sill = d.sill := rfl
@[simp] theorem Dev.modCore_hostDead (d : Dev) (u : Nat) (f : CoreS → CoreS) : (d.modCore u f).hostDead = d.hostDead := rfl
@[simp] theorem Dev.modCore_ntfOut (d : Dev) (u : Nat) (f : CoreS → CoreS) : (d.modCore u f).ntfOut = d.ntfOut := rfl
@[simp] theorem Dev.modCore_evtCount (d : Dev) (u : Nat) (f : CoreS → CoreS) : (d.modCore u f).evtCount = d.evtCount := rfl
@[simp] theorem Dev.modCore_evtPend (d : Dev) (u : Nat) (f : CoreS → CoreS) : (d.modCore u f).evtPend = d.evtPend := rfl
@[simp] theorem Dev.modCore_alertAt (d : Dev) (u : Nat) (f : CoreS → CoreS) : (d.modCore u f).alertAt = d.alertAt := rfl

/-! `Dev.modClu`. -/

@[simp] theorem Dev.modClu_regs (d : Dev) (u : Nat) (f : CluS → CluS) : (d.modClu u f).regs = d.regs := rfl
@[simp] theorem Dev.modClu_jmem (d : Dev) (u : Nat) (f : CluS → CluS) : (d.modClu u f).jmem = d.jmem := rfl
@[simp] theorem Dev.modClu_cores (d : Dev) (u : Nat) (f : CluS → CluS) : (d.modClu u f).cores = d.cores := rfl
@[simp] theorem Dev.modClu_rtrs (d : Dev) (u : Nat) (f : CluS → CluS) : (d.modClu u f).rtrs = d.rtrs := rfl
@[simp] theorem Dev.modClu_hbms (d : Dev) (u : Nat) (f : CluS → CluS) : (d.modClu u f).hbms = d.hbms := rfl
@[simp] theorem Dev.modClu_cels (d : Dev) (u : Nat) (f : CluS → CluS) : (d.modClu u f).cels = d.cels := rfl
@[simp] theorem Dev.modClu_lnks (d : Dev) (u : Nat) (f : CluS → CluS) : (d.modClu u f).lnks = d.lnks := rfl
@[simp] theorem Dev.modClu_doms (d : Dev) (u : Nat) (f : CluS → CluS) : (d.modClu u f).doms = d.doms := rfl
@[simp] theorem Dev.modClu_hw (d : Dev) (u : Nat) (f : CluS → CluS) : (d.modClu u f).hw = d.hw := rfl
@[simp] theorem Dev.modClu_net (d : Dev) (u : Nat) (f : CluS → CluS) : (d.modClu u f).net = d.net := rfl
@[simp] theorem Dev.modClu_stage (d : Dev) (u : Nat) (f : CluS → CluS) : (d.modClu u f).stage = d.stage := rfl
@[simp] theorem Dev.modClu_circNet (d : Dev) (u : Nat) (f : CluS → CluS) : (d.modClu u f).circNet = d.circNet := rfl
@[simp] theorem Dev.modClu_reqs (d : Dev) (u : Nat) (f : CluS → CluS) : (d.modClu u f).reqs = d.reqs := rfl
@[simp] theorem Dev.modClu_injw (d : Dev) (u : Nat) (f : CluS → CluS) : (d.modClu u f).injw = d.injw := rfl
@[simp] theorem Dev.modClu_deadTags (d : Dev) (u : Nat) (f : CluS → CluS) : (d.modClu u f).deadTags = d.deadTags := rfl
@[simp] theorem Dev.modClu_asms (d : Dev) (u : Nat) (f : CluS → CluS) : (d.modClu u f).asms = d.asms := rfl
@[simp] theorem Dev.modClu_circ (d : Dev) (u : Nat) (f : CluS → CluS) : (d.modClu u f).circ = d.circ := rfl
@[simp] theorem Dev.modClu_evq (d : Dev) (u : Nat) (f : CluS → CluS) : (d.modClu u f).evq = d.evq := rfl
@[simp] theorem Dev.modClu_out (d : Dev) (u : Nat) (f : CluS → CluS) : (d.modClu u f).out = d.out := rfl
@[simp] theorem Dev.modClu_fresh (d : Dev) (u : Nat) (f : CluS → CluS) : (d.modClu u f).fresh = d.fresh := rfl
@[simp] theorem Dev.modClu_cmds (d : Dev) (u : Nat) (f : CluS → CluS) : (d.modClu u f).cmds = d.cmds := rfl
@[simp] theorem Dev.modClu_accWaited (d : Dev) (u : Nat) (f : CluS → CluS) : (d.modClu u f).accWaited = d.accWaited := rfl
@[simp] theorem Dev.modClu_sessions (d : Dev) (u : Nat) (f : CluS → CluS) : (d.modClu u f).sessions = d.sessions := rfl
@[simp] theorem Dev.modClu_dec (d : Dev) (u : Nat) (f : CluS → CluS) : (d.modClu u f).dec = d.dec := rfl
@[simp] theorem Dev.modClu_hostReads (d : Dev) (u : Nat) (f : CluS → CluS) : (d.modClu u f).hostReads = d.hostReads := rfl
@[simp] theorem Dev.modClu_jwait (d : Dev) (u : Nat) (f : CluS → CluS) : (d.modClu u f).jwait = d.jwait := rfl
@[simp] theorem Dev.modClu_pair (d : Dev) (u : Nat) (f : CluS → CluS) : (d.modClu u f).pair = d.pair := rfl
@[simp] theorem Dev.modClu_trn (d : Dev) (u : Nat) (f : CluS → CluS) : (d.modClu u f).trn = d.trn := rfl
@[simp] theorem Dev.modClu_pch (d : Dev) (u : Nat) (f : CluS → CluS) : (d.modClu u f).pch = d.pch := rfl
@[simp] theorem Dev.modClu_pwr (d : Dev) (u : Nat) (f : CluS → CluS) : (d.modClu u f).pwr = d.pwr := rfl
@[simp] theorem Dev.modClu_tim (d : Dev) (u : Nat) (f : CluS → CluS) : (d.modClu u f).tim = d.tim := rfl
@[simp] theorem Dev.modClu_boot (d : Dev) (u : Nat) (f : CluS → CluS) : (d.modClu u f).boot = d.boot := rfl
@[simp] theorem Dev.modClu_nwt (d : Dev) (u : Nat) (f : CluS → CluS) : (d.modClu u f).nwt = d.nwt := rfl
@[simp] theorem Dev.modClu_obs (d : Dev) (u : Nat) (f : CluS → CluS) : (d.modClu u f).obs = d.obs := rfl
@[simp] theorem Dev.modClu_visited (d : Dev) (u : Nat) (f : CluS → CluS) : (d.modClu u f).visited = d.visited := rfl
@[simp] theorem Dev.modClu_i3c (d : Dev) (u : Nat) (f : CluS → CluS) : (d.modClu u f).i3c = d.i3c := rfl
@[simp] theorem Dev.modClu_sill (d : Dev) (u : Nat) (f : CluS → CluS) : (d.modClu u f).sill = d.sill := rfl
@[simp] theorem Dev.modClu_hostDead (d : Dev) (u : Nat) (f : CluS → CluS) : (d.modClu u f).hostDead = d.hostDead := rfl
@[simp] theorem Dev.modClu_ntfOut (d : Dev) (u : Nat) (f : CluS → CluS) : (d.modClu u f).ntfOut = d.ntfOut := rfl
@[simp] theorem Dev.modClu_evtCount (d : Dev) (u : Nat) (f : CluS → CluS) : (d.modClu u f).evtCount = d.evtCount := rfl
@[simp] theorem Dev.modClu_evtPend (d : Dev) (u : Nat) (f : CluS → CluS) : (d.modClu u f).evtPend = d.evtPend := rfl
@[simp] theorem Dev.modClu_alertAt (d : Dev) (u : Nat) (f : CluS → CluS) : (d.modClu u f).alertAt = d.alertAt := rfl

/-! `Dev.modRtr`. -/

@[simp] theorem Dev.modRtr_regs (d : Dev) (u : Nat) (f : RtrS → RtrS) : (d.modRtr u f).regs = d.regs := rfl
@[simp] theorem Dev.modRtr_jmem (d : Dev) (u : Nat) (f : RtrS → RtrS) : (d.modRtr u f).jmem = d.jmem := rfl
@[simp] theorem Dev.modRtr_cores (d : Dev) (u : Nat) (f : RtrS → RtrS) : (d.modRtr u f).cores = d.cores := rfl
@[simp] theorem Dev.modRtr_clus (d : Dev) (u : Nat) (f : RtrS → RtrS) : (d.modRtr u f).clus = d.clus := rfl
@[simp] theorem Dev.modRtr_hbms (d : Dev) (u : Nat) (f : RtrS → RtrS) : (d.modRtr u f).hbms = d.hbms := rfl
@[simp] theorem Dev.modRtr_cels (d : Dev) (u : Nat) (f : RtrS → RtrS) : (d.modRtr u f).cels = d.cels := rfl
@[simp] theorem Dev.modRtr_lnks (d : Dev) (u : Nat) (f : RtrS → RtrS) : (d.modRtr u f).lnks = d.lnks := rfl
@[simp] theorem Dev.modRtr_doms (d : Dev) (u : Nat) (f : RtrS → RtrS) : (d.modRtr u f).doms = d.doms := rfl
@[simp] theorem Dev.modRtr_hw (d : Dev) (u : Nat) (f : RtrS → RtrS) : (d.modRtr u f).hw = d.hw := rfl
@[simp] theorem Dev.modRtr_net (d : Dev) (u : Nat) (f : RtrS → RtrS) : (d.modRtr u f).net = d.net := rfl
@[simp] theorem Dev.modRtr_stage (d : Dev) (u : Nat) (f : RtrS → RtrS) : (d.modRtr u f).stage = d.stage := rfl
@[simp] theorem Dev.modRtr_circNet (d : Dev) (u : Nat) (f : RtrS → RtrS) : (d.modRtr u f).circNet = d.circNet := rfl
@[simp] theorem Dev.modRtr_reqs (d : Dev) (u : Nat) (f : RtrS → RtrS) : (d.modRtr u f).reqs = d.reqs := rfl
@[simp] theorem Dev.modRtr_injw (d : Dev) (u : Nat) (f : RtrS → RtrS) : (d.modRtr u f).injw = d.injw := rfl
@[simp] theorem Dev.modRtr_deadTags (d : Dev) (u : Nat) (f : RtrS → RtrS) : (d.modRtr u f).deadTags = d.deadTags := rfl
@[simp] theorem Dev.modRtr_asms (d : Dev) (u : Nat) (f : RtrS → RtrS) : (d.modRtr u f).asms = d.asms := rfl
@[simp] theorem Dev.modRtr_circ (d : Dev) (u : Nat) (f : RtrS → RtrS) : (d.modRtr u f).circ = d.circ := rfl
@[simp] theorem Dev.modRtr_evq (d : Dev) (u : Nat) (f : RtrS → RtrS) : (d.modRtr u f).evq = d.evq := rfl
@[simp] theorem Dev.modRtr_out (d : Dev) (u : Nat) (f : RtrS → RtrS) : (d.modRtr u f).out = d.out := rfl
@[simp] theorem Dev.modRtr_fresh (d : Dev) (u : Nat) (f : RtrS → RtrS) : (d.modRtr u f).fresh = d.fresh := rfl
@[simp] theorem Dev.modRtr_cmds (d : Dev) (u : Nat) (f : RtrS → RtrS) : (d.modRtr u f).cmds = d.cmds := rfl
@[simp] theorem Dev.modRtr_accWaited (d : Dev) (u : Nat) (f : RtrS → RtrS) : (d.modRtr u f).accWaited = d.accWaited := rfl
@[simp] theorem Dev.modRtr_sessions (d : Dev) (u : Nat) (f : RtrS → RtrS) : (d.modRtr u f).sessions = d.sessions := rfl
@[simp] theorem Dev.modRtr_dec (d : Dev) (u : Nat) (f : RtrS → RtrS) : (d.modRtr u f).dec = d.dec := rfl
@[simp] theorem Dev.modRtr_hostReads (d : Dev) (u : Nat) (f : RtrS → RtrS) : (d.modRtr u f).hostReads = d.hostReads := rfl
@[simp] theorem Dev.modRtr_jwait (d : Dev) (u : Nat) (f : RtrS → RtrS) : (d.modRtr u f).jwait = d.jwait := rfl
@[simp] theorem Dev.modRtr_pair (d : Dev) (u : Nat) (f : RtrS → RtrS) : (d.modRtr u f).pair = d.pair := rfl
@[simp] theorem Dev.modRtr_trn (d : Dev) (u : Nat) (f : RtrS → RtrS) : (d.modRtr u f).trn = d.trn := rfl
@[simp] theorem Dev.modRtr_pch (d : Dev) (u : Nat) (f : RtrS → RtrS) : (d.modRtr u f).pch = d.pch := rfl
@[simp] theorem Dev.modRtr_pwr (d : Dev) (u : Nat) (f : RtrS → RtrS) : (d.modRtr u f).pwr = d.pwr := rfl
@[simp] theorem Dev.modRtr_tim (d : Dev) (u : Nat) (f : RtrS → RtrS) : (d.modRtr u f).tim = d.tim := rfl
@[simp] theorem Dev.modRtr_boot (d : Dev) (u : Nat) (f : RtrS → RtrS) : (d.modRtr u f).boot = d.boot := rfl
@[simp] theorem Dev.modRtr_nwt (d : Dev) (u : Nat) (f : RtrS → RtrS) : (d.modRtr u f).nwt = d.nwt := rfl
@[simp] theorem Dev.modRtr_obs (d : Dev) (u : Nat) (f : RtrS → RtrS) : (d.modRtr u f).obs = d.obs := rfl
@[simp] theorem Dev.modRtr_visited (d : Dev) (u : Nat) (f : RtrS → RtrS) : (d.modRtr u f).visited = d.visited := rfl
@[simp] theorem Dev.modRtr_i3c (d : Dev) (u : Nat) (f : RtrS → RtrS) : (d.modRtr u f).i3c = d.i3c := rfl
@[simp] theorem Dev.modRtr_sill (d : Dev) (u : Nat) (f : RtrS → RtrS) : (d.modRtr u f).sill = d.sill := rfl
@[simp] theorem Dev.modRtr_hostDead (d : Dev) (u : Nat) (f : RtrS → RtrS) : (d.modRtr u f).hostDead = d.hostDead := rfl
@[simp] theorem Dev.modRtr_ntfOut (d : Dev) (u : Nat) (f : RtrS → RtrS) : (d.modRtr u f).ntfOut = d.ntfOut := rfl
@[simp] theorem Dev.modRtr_evtCount (d : Dev) (u : Nat) (f : RtrS → RtrS) : (d.modRtr u f).evtCount = d.evtCount := rfl
@[simp] theorem Dev.modRtr_evtPend (d : Dev) (u : Nat) (f : RtrS → RtrS) : (d.modRtr u f).evtPend = d.evtPend := rfl
@[simp] theorem Dev.modRtr_alertAt (d : Dev) (u : Nat) (f : RtrS → RtrS) : (d.modRtr u f).alertAt = d.alertAt := rfl

/-! `Dev.modHbm`. -/

@[simp] theorem Dev.modHbm_regs (d : Dev) (u : Nat) (f : HbmS → HbmS) : (d.modHbm u f).regs = d.regs := rfl
@[simp] theorem Dev.modHbm_jmem (d : Dev) (u : Nat) (f : HbmS → HbmS) : (d.modHbm u f).jmem = d.jmem := rfl
@[simp] theorem Dev.modHbm_cores (d : Dev) (u : Nat) (f : HbmS → HbmS) : (d.modHbm u f).cores = d.cores := rfl
@[simp] theorem Dev.modHbm_clus (d : Dev) (u : Nat) (f : HbmS → HbmS) : (d.modHbm u f).clus = d.clus := rfl
@[simp] theorem Dev.modHbm_rtrs (d : Dev) (u : Nat) (f : HbmS → HbmS) : (d.modHbm u f).rtrs = d.rtrs := rfl
@[simp] theorem Dev.modHbm_cels (d : Dev) (u : Nat) (f : HbmS → HbmS) : (d.modHbm u f).cels = d.cels := rfl
@[simp] theorem Dev.modHbm_lnks (d : Dev) (u : Nat) (f : HbmS → HbmS) : (d.modHbm u f).lnks = d.lnks := rfl
@[simp] theorem Dev.modHbm_doms (d : Dev) (u : Nat) (f : HbmS → HbmS) : (d.modHbm u f).doms = d.doms := rfl
@[simp] theorem Dev.modHbm_hw (d : Dev) (u : Nat) (f : HbmS → HbmS) : (d.modHbm u f).hw = d.hw := rfl
@[simp] theorem Dev.modHbm_net (d : Dev) (u : Nat) (f : HbmS → HbmS) : (d.modHbm u f).net = d.net := rfl
@[simp] theorem Dev.modHbm_stage (d : Dev) (u : Nat) (f : HbmS → HbmS) : (d.modHbm u f).stage = d.stage := rfl
@[simp] theorem Dev.modHbm_circNet (d : Dev) (u : Nat) (f : HbmS → HbmS) : (d.modHbm u f).circNet = d.circNet := rfl
@[simp] theorem Dev.modHbm_reqs (d : Dev) (u : Nat) (f : HbmS → HbmS) : (d.modHbm u f).reqs = d.reqs := rfl
@[simp] theorem Dev.modHbm_injw (d : Dev) (u : Nat) (f : HbmS → HbmS) : (d.modHbm u f).injw = d.injw := rfl
@[simp] theorem Dev.modHbm_deadTags (d : Dev) (u : Nat) (f : HbmS → HbmS) : (d.modHbm u f).deadTags = d.deadTags := rfl
@[simp] theorem Dev.modHbm_asms (d : Dev) (u : Nat) (f : HbmS → HbmS) : (d.modHbm u f).asms = d.asms := rfl
@[simp] theorem Dev.modHbm_circ (d : Dev) (u : Nat) (f : HbmS → HbmS) : (d.modHbm u f).circ = d.circ := rfl
@[simp] theorem Dev.modHbm_evq (d : Dev) (u : Nat) (f : HbmS → HbmS) : (d.modHbm u f).evq = d.evq := rfl
@[simp] theorem Dev.modHbm_out (d : Dev) (u : Nat) (f : HbmS → HbmS) : (d.modHbm u f).out = d.out := rfl
@[simp] theorem Dev.modHbm_fresh (d : Dev) (u : Nat) (f : HbmS → HbmS) : (d.modHbm u f).fresh = d.fresh := rfl
@[simp] theorem Dev.modHbm_cmds (d : Dev) (u : Nat) (f : HbmS → HbmS) : (d.modHbm u f).cmds = d.cmds := rfl
@[simp] theorem Dev.modHbm_accWaited (d : Dev) (u : Nat) (f : HbmS → HbmS) : (d.modHbm u f).accWaited = d.accWaited := rfl
@[simp] theorem Dev.modHbm_sessions (d : Dev) (u : Nat) (f : HbmS → HbmS) : (d.modHbm u f).sessions = d.sessions := rfl
@[simp] theorem Dev.modHbm_dec (d : Dev) (u : Nat) (f : HbmS → HbmS) : (d.modHbm u f).dec = d.dec := rfl
@[simp] theorem Dev.modHbm_hostReads (d : Dev) (u : Nat) (f : HbmS → HbmS) : (d.modHbm u f).hostReads = d.hostReads := rfl
@[simp] theorem Dev.modHbm_jwait (d : Dev) (u : Nat) (f : HbmS → HbmS) : (d.modHbm u f).jwait = d.jwait := rfl
@[simp] theorem Dev.modHbm_pair (d : Dev) (u : Nat) (f : HbmS → HbmS) : (d.modHbm u f).pair = d.pair := rfl
@[simp] theorem Dev.modHbm_trn (d : Dev) (u : Nat) (f : HbmS → HbmS) : (d.modHbm u f).trn = d.trn := rfl
@[simp] theorem Dev.modHbm_pch (d : Dev) (u : Nat) (f : HbmS → HbmS) : (d.modHbm u f).pch = d.pch := rfl
@[simp] theorem Dev.modHbm_pwr (d : Dev) (u : Nat) (f : HbmS → HbmS) : (d.modHbm u f).pwr = d.pwr := rfl
@[simp] theorem Dev.modHbm_tim (d : Dev) (u : Nat) (f : HbmS → HbmS) : (d.modHbm u f).tim = d.tim := rfl
@[simp] theorem Dev.modHbm_boot (d : Dev) (u : Nat) (f : HbmS → HbmS) : (d.modHbm u f).boot = d.boot := rfl
@[simp] theorem Dev.modHbm_nwt (d : Dev) (u : Nat) (f : HbmS → HbmS) : (d.modHbm u f).nwt = d.nwt := rfl
@[simp] theorem Dev.modHbm_obs (d : Dev) (u : Nat) (f : HbmS → HbmS) : (d.modHbm u f).obs = d.obs := rfl
@[simp] theorem Dev.modHbm_visited (d : Dev) (u : Nat) (f : HbmS → HbmS) : (d.modHbm u f).visited = d.visited := rfl
@[simp] theorem Dev.modHbm_i3c (d : Dev) (u : Nat) (f : HbmS → HbmS) : (d.modHbm u f).i3c = d.i3c := rfl
@[simp] theorem Dev.modHbm_sill (d : Dev) (u : Nat) (f : HbmS → HbmS) : (d.modHbm u f).sill = d.sill := rfl
@[simp] theorem Dev.modHbm_hostDead (d : Dev) (u : Nat) (f : HbmS → HbmS) : (d.modHbm u f).hostDead = d.hostDead := rfl
@[simp] theorem Dev.modHbm_ntfOut (d : Dev) (u : Nat) (f : HbmS → HbmS) : (d.modHbm u f).ntfOut = d.ntfOut := rfl
@[simp] theorem Dev.modHbm_evtCount (d : Dev) (u : Nat) (f : HbmS → HbmS) : (d.modHbm u f).evtCount = d.evtCount := rfl
@[simp] theorem Dev.modHbm_evtPend (d : Dev) (u : Nat) (f : HbmS → HbmS) : (d.modHbm u f).evtPend = d.evtPend := rfl
@[simp] theorem Dev.modHbm_alertAt (d : Dev) (u : Nat) (f : HbmS → HbmS) : (d.modHbm u f).alertAt = d.alertAt := rfl

/-! `Dev.modCel`. -/

@[simp] theorem Dev.modCel_regs (d : Dev) (u : Nat) (f : CelS → CelS) : (d.modCel u f).regs = d.regs := rfl
@[simp] theorem Dev.modCel_jmem (d : Dev) (u : Nat) (f : CelS → CelS) : (d.modCel u f).jmem = d.jmem := rfl
@[simp] theorem Dev.modCel_cores (d : Dev) (u : Nat) (f : CelS → CelS) : (d.modCel u f).cores = d.cores := rfl
@[simp] theorem Dev.modCel_clus (d : Dev) (u : Nat) (f : CelS → CelS) : (d.modCel u f).clus = d.clus := rfl
@[simp] theorem Dev.modCel_rtrs (d : Dev) (u : Nat) (f : CelS → CelS) : (d.modCel u f).rtrs = d.rtrs := rfl
@[simp] theorem Dev.modCel_hbms (d : Dev) (u : Nat) (f : CelS → CelS) : (d.modCel u f).hbms = d.hbms := rfl
@[simp] theorem Dev.modCel_lnks (d : Dev) (u : Nat) (f : CelS → CelS) : (d.modCel u f).lnks = d.lnks := rfl
@[simp] theorem Dev.modCel_doms (d : Dev) (u : Nat) (f : CelS → CelS) : (d.modCel u f).doms = d.doms := rfl
@[simp] theorem Dev.modCel_hw (d : Dev) (u : Nat) (f : CelS → CelS) : (d.modCel u f).hw = d.hw := rfl
@[simp] theorem Dev.modCel_net (d : Dev) (u : Nat) (f : CelS → CelS) : (d.modCel u f).net = d.net := rfl
@[simp] theorem Dev.modCel_stage (d : Dev) (u : Nat) (f : CelS → CelS) : (d.modCel u f).stage = d.stage := rfl
@[simp] theorem Dev.modCel_circNet (d : Dev) (u : Nat) (f : CelS → CelS) : (d.modCel u f).circNet = d.circNet := rfl
@[simp] theorem Dev.modCel_reqs (d : Dev) (u : Nat) (f : CelS → CelS) : (d.modCel u f).reqs = d.reqs := rfl
@[simp] theorem Dev.modCel_injw (d : Dev) (u : Nat) (f : CelS → CelS) : (d.modCel u f).injw = d.injw := rfl
@[simp] theorem Dev.modCel_deadTags (d : Dev) (u : Nat) (f : CelS → CelS) : (d.modCel u f).deadTags = d.deadTags := rfl
@[simp] theorem Dev.modCel_asms (d : Dev) (u : Nat) (f : CelS → CelS) : (d.modCel u f).asms = d.asms := rfl
@[simp] theorem Dev.modCel_circ (d : Dev) (u : Nat) (f : CelS → CelS) : (d.modCel u f).circ = d.circ := rfl
@[simp] theorem Dev.modCel_evq (d : Dev) (u : Nat) (f : CelS → CelS) : (d.modCel u f).evq = d.evq := rfl
@[simp] theorem Dev.modCel_out (d : Dev) (u : Nat) (f : CelS → CelS) : (d.modCel u f).out = d.out := rfl
@[simp] theorem Dev.modCel_fresh (d : Dev) (u : Nat) (f : CelS → CelS) : (d.modCel u f).fresh = d.fresh := rfl
@[simp] theorem Dev.modCel_cmds (d : Dev) (u : Nat) (f : CelS → CelS) : (d.modCel u f).cmds = d.cmds := rfl
@[simp] theorem Dev.modCel_accWaited (d : Dev) (u : Nat) (f : CelS → CelS) : (d.modCel u f).accWaited = d.accWaited := rfl
@[simp] theorem Dev.modCel_sessions (d : Dev) (u : Nat) (f : CelS → CelS) : (d.modCel u f).sessions = d.sessions := rfl
@[simp] theorem Dev.modCel_dec (d : Dev) (u : Nat) (f : CelS → CelS) : (d.modCel u f).dec = d.dec := rfl
@[simp] theorem Dev.modCel_hostReads (d : Dev) (u : Nat) (f : CelS → CelS) : (d.modCel u f).hostReads = d.hostReads := rfl
@[simp] theorem Dev.modCel_jwait (d : Dev) (u : Nat) (f : CelS → CelS) : (d.modCel u f).jwait = d.jwait := rfl
@[simp] theorem Dev.modCel_pair (d : Dev) (u : Nat) (f : CelS → CelS) : (d.modCel u f).pair = d.pair := rfl
@[simp] theorem Dev.modCel_trn (d : Dev) (u : Nat) (f : CelS → CelS) : (d.modCel u f).trn = d.trn := rfl
@[simp] theorem Dev.modCel_pch (d : Dev) (u : Nat) (f : CelS → CelS) : (d.modCel u f).pch = d.pch := rfl
@[simp] theorem Dev.modCel_pwr (d : Dev) (u : Nat) (f : CelS → CelS) : (d.modCel u f).pwr = d.pwr := rfl
@[simp] theorem Dev.modCel_tim (d : Dev) (u : Nat) (f : CelS → CelS) : (d.modCel u f).tim = d.tim := rfl
@[simp] theorem Dev.modCel_boot (d : Dev) (u : Nat) (f : CelS → CelS) : (d.modCel u f).boot = d.boot := rfl
@[simp] theorem Dev.modCel_nwt (d : Dev) (u : Nat) (f : CelS → CelS) : (d.modCel u f).nwt = d.nwt := rfl
@[simp] theorem Dev.modCel_obs (d : Dev) (u : Nat) (f : CelS → CelS) : (d.modCel u f).obs = d.obs := rfl
@[simp] theorem Dev.modCel_visited (d : Dev) (u : Nat) (f : CelS → CelS) : (d.modCel u f).visited = d.visited := rfl
@[simp] theorem Dev.modCel_i3c (d : Dev) (u : Nat) (f : CelS → CelS) : (d.modCel u f).i3c = d.i3c := rfl
@[simp] theorem Dev.modCel_sill (d : Dev) (u : Nat) (f : CelS → CelS) : (d.modCel u f).sill = d.sill := rfl
@[simp] theorem Dev.modCel_hostDead (d : Dev) (u : Nat) (f : CelS → CelS) : (d.modCel u f).hostDead = d.hostDead := rfl
@[simp] theorem Dev.modCel_ntfOut (d : Dev) (u : Nat) (f : CelS → CelS) : (d.modCel u f).ntfOut = d.ntfOut := rfl
@[simp] theorem Dev.modCel_evtCount (d : Dev) (u : Nat) (f : CelS → CelS) : (d.modCel u f).evtCount = d.evtCount := rfl
@[simp] theorem Dev.modCel_evtPend (d : Dev) (u : Nat) (f : CelS → CelS) : (d.modCel u f).evtPend = d.evtPend := rfl
@[simp] theorem Dev.modCel_alertAt (d : Dev) (u : Nat) (f : CelS → CelS) : (d.modCel u f).alertAt = d.alertAt := rfl

/-! `Dev.modLnk`. -/

@[simp] theorem Dev.modLnk_regs (d : Dev) (u : Nat) (f : LnkS → LnkS) : (d.modLnk u f).regs = d.regs := rfl
@[simp] theorem Dev.modLnk_jmem (d : Dev) (u : Nat) (f : LnkS → LnkS) : (d.modLnk u f).jmem = d.jmem := rfl
@[simp] theorem Dev.modLnk_cores (d : Dev) (u : Nat) (f : LnkS → LnkS) : (d.modLnk u f).cores = d.cores := rfl
@[simp] theorem Dev.modLnk_clus (d : Dev) (u : Nat) (f : LnkS → LnkS) : (d.modLnk u f).clus = d.clus := rfl
@[simp] theorem Dev.modLnk_rtrs (d : Dev) (u : Nat) (f : LnkS → LnkS) : (d.modLnk u f).rtrs = d.rtrs := rfl
@[simp] theorem Dev.modLnk_hbms (d : Dev) (u : Nat) (f : LnkS → LnkS) : (d.modLnk u f).hbms = d.hbms := rfl
@[simp] theorem Dev.modLnk_cels (d : Dev) (u : Nat) (f : LnkS → LnkS) : (d.modLnk u f).cels = d.cels := rfl
@[simp] theorem Dev.modLnk_doms (d : Dev) (u : Nat) (f : LnkS → LnkS) : (d.modLnk u f).doms = d.doms := rfl
@[simp] theorem Dev.modLnk_hw (d : Dev) (u : Nat) (f : LnkS → LnkS) : (d.modLnk u f).hw = d.hw := rfl
@[simp] theorem Dev.modLnk_net (d : Dev) (u : Nat) (f : LnkS → LnkS) : (d.modLnk u f).net = d.net := rfl
@[simp] theorem Dev.modLnk_stage (d : Dev) (u : Nat) (f : LnkS → LnkS) : (d.modLnk u f).stage = d.stage := rfl
@[simp] theorem Dev.modLnk_circNet (d : Dev) (u : Nat) (f : LnkS → LnkS) : (d.modLnk u f).circNet = d.circNet := rfl
@[simp] theorem Dev.modLnk_reqs (d : Dev) (u : Nat) (f : LnkS → LnkS) : (d.modLnk u f).reqs = d.reqs := rfl
@[simp] theorem Dev.modLnk_injw (d : Dev) (u : Nat) (f : LnkS → LnkS) : (d.modLnk u f).injw = d.injw := rfl
@[simp] theorem Dev.modLnk_deadTags (d : Dev) (u : Nat) (f : LnkS → LnkS) : (d.modLnk u f).deadTags = d.deadTags := rfl
@[simp] theorem Dev.modLnk_asms (d : Dev) (u : Nat) (f : LnkS → LnkS) : (d.modLnk u f).asms = d.asms := rfl
@[simp] theorem Dev.modLnk_circ (d : Dev) (u : Nat) (f : LnkS → LnkS) : (d.modLnk u f).circ = d.circ := rfl
@[simp] theorem Dev.modLnk_evq (d : Dev) (u : Nat) (f : LnkS → LnkS) : (d.modLnk u f).evq = d.evq := rfl
@[simp] theorem Dev.modLnk_out (d : Dev) (u : Nat) (f : LnkS → LnkS) : (d.modLnk u f).out = d.out := rfl
@[simp] theorem Dev.modLnk_fresh (d : Dev) (u : Nat) (f : LnkS → LnkS) : (d.modLnk u f).fresh = d.fresh := rfl
@[simp] theorem Dev.modLnk_cmds (d : Dev) (u : Nat) (f : LnkS → LnkS) : (d.modLnk u f).cmds = d.cmds := rfl
@[simp] theorem Dev.modLnk_accWaited (d : Dev) (u : Nat) (f : LnkS → LnkS) : (d.modLnk u f).accWaited = d.accWaited := rfl
@[simp] theorem Dev.modLnk_sessions (d : Dev) (u : Nat) (f : LnkS → LnkS) : (d.modLnk u f).sessions = d.sessions := rfl
@[simp] theorem Dev.modLnk_dec (d : Dev) (u : Nat) (f : LnkS → LnkS) : (d.modLnk u f).dec = d.dec := rfl
@[simp] theorem Dev.modLnk_hostReads (d : Dev) (u : Nat) (f : LnkS → LnkS) : (d.modLnk u f).hostReads = d.hostReads := rfl
@[simp] theorem Dev.modLnk_jwait (d : Dev) (u : Nat) (f : LnkS → LnkS) : (d.modLnk u f).jwait = d.jwait := rfl
@[simp] theorem Dev.modLnk_pair (d : Dev) (u : Nat) (f : LnkS → LnkS) : (d.modLnk u f).pair = d.pair := rfl
@[simp] theorem Dev.modLnk_trn (d : Dev) (u : Nat) (f : LnkS → LnkS) : (d.modLnk u f).trn = d.trn := rfl
@[simp] theorem Dev.modLnk_pch (d : Dev) (u : Nat) (f : LnkS → LnkS) : (d.modLnk u f).pch = d.pch := rfl
@[simp] theorem Dev.modLnk_pwr (d : Dev) (u : Nat) (f : LnkS → LnkS) : (d.modLnk u f).pwr = d.pwr := rfl
@[simp] theorem Dev.modLnk_tim (d : Dev) (u : Nat) (f : LnkS → LnkS) : (d.modLnk u f).tim = d.tim := rfl
@[simp] theorem Dev.modLnk_boot (d : Dev) (u : Nat) (f : LnkS → LnkS) : (d.modLnk u f).boot = d.boot := rfl
@[simp] theorem Dev.modLnk_nwt (d : Dev) (u : Nat) (f : LnkS → LnkS) : (d.modLnk u f).nwt = d.nwt := rfl
@[simp] theorem Dev.modLnk_obs (d : Dev) (u : Nat) (f : LnkS → LnkS) : (d.modLnk u f).obs = d.obs := rfl
@[simp] theorem Dev.modLnk_visited (d : Dev) (u : Nat) (f : LnkS → LnkS) : (d.modLnk u f).visited = d.visited := rfl
@[simp] theorem Dev.modLnk_i3c (d : Dev) (u : Nat) (f : LnkS → LnkS) : (d.modLnk u f).i3c = d.i3c := rfl
@[simp] theorem Dev.modLnk_sill (d : Dev) (u : Nat) (f : LnkS → LnkS) : (d.modLnk u f).sill = d.sill := rfl
@[simp] theorem Dev.modLnk_hostDead (d : Dev) (u : Nat) (f : LnkS → LnkS) : (d.modLnk u f).hostDead = d.hostDead := rfl
@[simp] theorem Dev.modLnk_ntfOut (d : Dev) (u : Nat) (f : LnkS → LnkS) : (d.modLnk u f).ntfOut = d.ntfOut := rfl
@[simp] theorem Dev.modLnk_evtCount (d : Dev) (u : Nat) (f : LnkS → LnkS) : (d.modLnk u f).evtCount = d.evtCount := rfl
@[simp] theorem Dev.modLnk_evtPend (d : Dev) (u : Nat) (f : LnkS → LnkS) : (d.modLnk u f).evtPend = d.evtPend := rfl
@[simp] theorem Dev.modLnk_alertAt (d : Dev) (u : Nat) (f : LnkS → LnkS) : (d.modLnk u f).alertAt = d.alertAt := rfl

/-! `Dev.modDom`. -/

@[simp] theorem Dev.modDom_regs (d : Dev) (u : Nat) (f : DomS → DomS) : (d.modDom u f).regs = d.regs := rfl
@[simp] theorem Dev.modDom_jmem (d : Dev) (u : Nat) (f : DomS → DomS) : (d.modDom u f).jmem = d.jmem := rfl
@[simp] theorem Dev.modDom_cores (d : Dev) (u : Nat) (f : DomS → DomS) : (d.modDom u f).cores = d.cores := rfl
@[simp] theorem Dev.modDom_clus (d : Dev) (u : Nat) (f : DomS → DomS) : (d.modDom u f).clus = d.clus := rfl
@[simp] theorem Dev.modDom_rtrs (d : Dev) (u : Nat) (f : DomS → DomS) : (d.modDom u f).rtrs = d.rtrs := rfl
@[simp] theorem Dev.modDom_hbms (d : Dev) (u : Nat) (f : DomS → DomS) : (d.modDom u f).hbms = d.hbms := rfl
@[simp] theorem Dev.modDom_cels (d : Dev) (u : Nat) (f : DomS → DomS) : (d.modDom u f).cels = d.cels := rfl
@[simp] theorem Dev.modDom_lnks (d : Dev) (u : Nat) (f : DomS → DomS) : (d.modDom u f).lnks = d.lnks := rfl
@[simp] theorem Dev.modDom_hw (d : Dev) (u : Nat) (f : DomS → DomS) : (d.modDom u f).hw = d.hw := rfl
@[simp] theorem Dev.modDom_net (d : Dev) (u : Nat) (f : DomS → DomS) : (d.modDom u f).net = d.net := rfl
@[simp] theorem Dev.modDom_stage (d : Dev) (u : Nat) (f : DomS → DomS) : (d.modDom u f).stage = d.stage := rfl
@[simp] theorem Dev.modDom_circNet (d : Dev) (u : Nat) (f : DomS → DomS) : (d.modDom u f).circNet = d.circNet := rfl
@[simp] theorem Dev.modDom_reqs (d : Dev) (u : Nat) (f : DomS → DomS) : (d.modDom u f).reqs = d.reqs := rfl
@[simp] theorem Dev.modDom_injw (d : Dev) (u : Nat) (f : DomS → DomS) : (d.modDom u f).injw = d.injw := rfl
@[simp] theorem Dev.modDom_deadTags (d : Dev) (u : Nat) (f : DomS → DomS) : (d.modDom u f).deadTags = d.deadTags := rfl
@[simp] theorem Dev.modDom_asms (d : Dev) (u : Nat) (f : DomS → DomS) : (d.modDom u f).asms = d.asms := rfl
@[simp] theorem Dev.modDom_circ (d : Dev) (u : Nat) (f : DomS → DomS) : (d.modDom u f).circ = d.circ := rfl
@[simp] theorem Dev.modDom_evq (d : Dev) (u : Nat) (f : DomS → DomS) : (d.modDom u f).evq = d.evq := rfl
@[simp] theorem Dev.modDom_out (d : Dev) (u : Nat) (f : DomS → DomS) : (d.modDom u f).out = d.out := rfl
@[simp] theorem Dev.modDom_fresh (d : Dev) (u : Nat) (f : DomS → DomS) : (d.modDom u f).fresh = d.fresh := rfl
@[simp] theorem Dev.modDom_cmds (d : Dev) (u : Nat) (f : DomS → DomS) : (d.modDom u f).cmds = d.cmds := rfl
@[simp] theorem Dev.modDom_accWaited (d : Dev) (u : Nat) (f : DomS → DomS) : (d.modDom u f).accWaited = d.accWaited := rfl
@[simp] theorem Dev.modDom_sessions (d : Dev) (u : Nat) (f : DomS → DomS) : (d.modDom u f).sessions = d.sessions := rfl
@[simp] theorem Dev.modDom_dec (d : Dev) (u : Nat) (f : DomS → DomS) : (d.modDom u f).dec = d.dec := rfl
@[simp] theorem Dev.modDom_hostReads (d : Dev) (u : Nat) (f : DomS → DomS) : (d.modDom u f).hostReads = d.hostReads := rfl
@[simp] theorem Dev.modDom_jwait (d : Dev) (u : Nat) (f : DomS → DomS) : (d.modDom u f).jwait = d.jwait := rfl
@[simp] theorem Dev.modDom_pair (d : Dev) (u : Nat) (f : DomS → DomS) : (d.modDom u f).pair = d.pair := rfl
@[simp] theorem Dev.modDom_trn (d : Dev) (u : Nat) (f : DomS → DomS) : (d.modDom u f).trn = d.trn := rfl
@[simp] theorem Dev.modDom_pch (d : Dev) (u : Nat) (f : DomS → DomS) : (d.modDom u f).pch = d.pch := rfl
@[simp] theorem Dev.modDom_pwr (d : Dev) (u : Nat) (f : DomS → DomS) : (d.modDom u f).pwr = d.pwr := rfl
@[simp] theorem Dev.modDom_tim (d : Dev) (u : Nat) (f : DomS → DomS) : (d.modDom u f).tim = d.tim := rfl
@[simp] theorem Dev.modDom_boot (d : Dev) (u : Nat) (f : DomS → DomS) : (d.modDom u f).boot = d.boot := rfl
@[simp] theorem Dev.modDom_nwt (d : Dev) (u : Nat) (f : DomS → DomS) : (d.modDom u f).nwt = d.nwt := rfl
@[simp] theorem Dev.modDom_obs (d : Dev) (u : Nat) (f : DomS → DomS) : (d.modDom u f).obs = d.obs := rfl
@[simp] theorem Dev.modDom_visited (d : Dev) (u : Nat) (f : DomS → DomS) : (d.modDom u f).visited = d.visited := rfl
@[simp] theorem Dev.modDom_i3c (d : Dev) (u : Nat) (f : DomS → DomS) : (d.modDom u f).i3c = d.i3c := rfl
@[simp] theorem Dev.modDom_sill (d : Dev) (u : Nat) (f : DomS → DomS) : (d.modDom u f).sill = d.sill := rfl
@[simp] theorem Dev.modDom_hostDead (d : Dev) (u : Nat) (f : DomS → DomS) : (d.modDom u f).hostDead = d.hostDead := rfl
@[simp] theorem Dev.modDom_ntfOut (d : Dev) (u : Nat) (f : DomS → DomS) : (d.modDom u f).ntfOut = d.ntfOut := rfl
@[simp] theorem Dev.modDom_evtCount (d : Dev) (u : Nat) (f : DomS → DomS) : (d.modDom u f).evtCount = d.evtCount := rfl
@[simp] theorem Dev.modDom_evtPend (d : Dev) (u : Nat) (f : DomS → DomS) : (d.modDom u f).evtPend = d.evtPend := rfl
@[simp] theorem Dev.modDom_alertAt (d : Dev) (u : Nat) (f : DomS → DomS) : (d.modDom u f).alertAt = d.alertAt := rfl

/-! `Dev.modSess`. -/

@[simp] theorem Dev.modSess_regs (d : Dev) (u : Nat) (f : SessS → SessS) : (d.modSess u f).regs = d.regs := rfl
@[simp] theorem Dev.modSess_jmem (d : Dev) (u : Nat) (f : SessS → SessS) : (d.modSess u f).jmem = d.jmem := rfl
@[simp] theorem Dev.modSess_cores (d : Dev) (u : Nat) (f : SessS → SessS) : (d.modSess u f).cores = d.cores := rfl
@[simp] theorem Dev.modSess_clus (d : Dev) (u : Nat) (f : SessS → SessS) : (d.modSess u f).clus = d.clus := rfl
@[simp] theorem Dev.modSess_rtrs (d : Dev) (u : Nat) (f : SessS → SessS) : (d.modSess u f).rtrs = d.rtrs := rfl
@[simp] theorem Dev.modSess_hbms (d : Dev) (u : Nat) (f : SessS → SessS) : (d.modSess u f).hbms = d.hbms := rfl
@[simp] theorem Dev.modSess_cels (d : Dev) (u : Nat) (f : SessS → SessS) : (d.modSess u f).cels = d.cels := rfl
@[simp] theorem Dev.modSess_lnks (d : Dev) (u : Nat) (f : SessS → SessS) : (d.modSess u f).lnks = d.lnks := rfl
@[simp] theorem Dev.modSess_doms (d : Dev) (u : Nat) (f : SessS → SessS) : (d.modSess u f).doms = d.doms := rfl
@[simp] theorem Dev.modSess_hw (d : Dev) (u : Nat) (f : SessS → SessS) : (d.modSess u f).hw = d.hw := rfl
@[simp] theorem Dev.modSess_net (d : Dev) (u : Nat) (f : SessS → SessS) : (d.modSess u f).net = d.net := rfl
@[simp] theorem Dev.modSess_stage (d : Dev) (u : Nat) (f : SessS → SessS) : (d.modSess u f).stage = d.stage := rfl
@[simp] theorem Dev.modSess_circNet (d : Dev) (u : Nat) (f : SessS → SessS) : (d.modSess u f).circNet = d.circNet := rfl
@[simp] theorem Dev.modSess_reqs (d : Dev) (u : Nat) (f : SessS → SessS) : (d.modSess u f).reqs = d.reqs := rfl
@[simp] theorem Dev.modSess_injw (d : Dev) (u : Nat) (f : SessS → SessS) : (d.modSess u f).injw = d.injw := rfl
@[simp] theorem Dev.modSess_deadTags (d : Dev) (u : Nat) (f : SessS → SessS) : (d.modSess u f).deadTags = d.deadTags := rfl
@[simp] theorem Dev.modSess_asms (d : Dev) (u : Nat) (f : SessS → SessS) : (d.modSess u f).asms = d.asms := rfl
@[simp] theorem Dev.modSess_circ (d : Dev) (u : Nat) (f : SessS → SessS) : (d.modSess u f).circ = d.circ := rfl
@[simp] theorem Dev.modSess_evq (d : Dev) (u : Nat) (f : SessS → SessS) : (d.modSess u f).evq = d.evq := rfl
@[simp] theorem Dev.modSess_out (d : Dev) (u : Nat) (f : SessS → SessS) : (d.modSess u f).out = d.out := rfl
@[simp] theorem Dev.modSess_fresh (d : Dev) (u : Nat) (f : SessS → SessS) : (d.modSess u f).fresh = d.fresh := rfl
@[simp] theorem Dev.modSess_cmds (d : Dev) (u : Nat) (f : SessS → SessS) : (d.modSess u f).cmds = d.cmds := rfl
@[simp] theorem Dev.modSess_accWaited (d : Dev) (u : Nat) (f : SessS → SessS) : (d.modSess u f).accWaited = d.accWaited := rfl
@[simp] theorem Dev.modSess_dec (d : Dev) (u : Nat) (f : SessS → SessS) : (d.modSess u f).dec = d.dec := rfl
@[simp] theorem Dev.modSess_hostReads (d : Dev) (u : Nat) (f : SessS → SessS) : (d.modSess u f).hostReads = d.hostReads := rfl
@[simp] theorem Dev.modSess_jwait (d : Dev) (u : Nat) (f : SessS → SessS) : (d.modSess u f).jwait = d.jwait := rfl
@[simp] theorem Dev.modSess_pair (d : Dev) (u : Nat) (f : SessS → SessS) : (d.modSess u f).pair = d.pair := rfl
@[simp] theorem Dev.modSess_trn (d : Dev) (u : Nat) (f : SessS → SessS) : (d.modSess u f).trn = d.trn := rfl
@[simp] theorem Dev.modSess_pch (d : Dev) (u : Nat) (f : SessS → SessS) : (d.modSess u f).pch = d.pch := rfl
@[simp] theorem Dev.modSess_pwr (d : Dev) (u : Nat) (f : SessS → SessS) : (d.modSess u f).pwr = d.pwr := rfl
@[simp] theorem Dev.modSess_tim (d : Dev) (u : Nat) (f : SessS → SessS) : (d.modSess u f).tim = d.tim := rfl
@[simp] theorem Dev.modSess_boot (d : Dev) (u : Nat) (f : SessS → SessS) : (d.modSess u f).boot = d.boot := rfl
@[simp] theorem Dev.modSess_nwt (d : Dev) (u : Nat) (f : SessS → SessS) : (d.modSess u f).nwt = d.nwt := rfl
@[simp] theorem Dev.modSess_obs (d : Dev) (u : Nat) (f : SessS → SessS) : (d.modSess u f).obs = d.obs := rfl
@[simp] theorem Dev.modSess_visited (d : Dev) (u : Nat) (f : SessS → SessS) : (d.modSess u f).visited = d.visited := rfl
@[simp] theorem Dev.modSess_i3c (d : Dev) (u : Nat) (f : SessS → SessS) : (d.modSess u f).i3c = d.i3c := rfl
@[simp] theorem Dev.modSess_sill (d : Dev) (u : Nat) (f : SessS → SessS) : (d.modSess u f).sill = d.sill := rfl
@[simp] theorem Dev.modSess_hostDead (d : Dev) (u : Nat) (f : SessS → SessS) : (d.modSess u f).hostDead = d.hostDead := rfl
@[simp] theorem Dev.modSess_ntfOut (d : Dev) (u : Nat) (f : SessS → SessS) : (d.modSess u f).ntfOut = d.ntfOut := rfl
@[simp] theorem Dev.modSess_evtCount (d : Dev) (u : Nat) (f : SessS → SessS) : (d.modSess u f).evtCount = d.evtCount := rfl
@[simp] theorem Dev.modSess_evtPend (d : Dev) (u : Nat) (f : SessS → SessS) : (d.modSess u f).evtPend = d.evtPend := rfl
@[simp] theorem Dev.modSess_alertAt (d : Dev) (u : Nat) (f : SessS → SessS) : (d.modSess u f).alertAt = d.alertAt := rfl

/-! The parts that hold one record per unit. -/

/-- What `core` reads after a change of one unit. -/
theorem Dev.core_modCore (d : Dev) (u v : Nat) (f : CoreS → CoreS) : (d.modCore u f).core v = if v = u then f (d.core u) else d.core v := by
  simp only [Dev.core, Dev.modCore, sget_sset]
@[simp] theorem Dev.core_modCore_self (d : Dev) (u : Nat) (f : CoreS → CoreS) : (d.modCore u f).core u = f (d.core u) := by
  simp [Dev.core_modCore]
@[simp] theorem Dev.core_setR (d : Dev) (r : Reg) (u : Nat) (w : Word) (i v : Nat) : (d.setR r u w i).core v = d.core v := rfl
@[simp] theorem Dev.core_setF (d : Dev) (f : Fld) (u w i v : Nat) : (d.setF f u w i).core v = d.core v := rfl
/-- What `clu` reads after a change of one unit. -/
theorem Dev.clu_modClu (d : Dev) (u v : Nat) (f : CluS → CluS) : (d.modClu u f).clu v = if v = u then f (d.clu u) else d.clu v := by
  simp only [Dev.clu, Dev.modClu, sget_sset]
@[simp] theorem Dev.clu_modClu_self (d : Dev) (u : Nat) (f : CluS → CluS) : (d.modClu u f).clu u = f (d.clu u) := by
  simp [Dev.clu_modClu]
@[simp] theorem Dev.clu_setR (d : Dev) (r : Reg) (u : Nat) (w : Word) (i v : Nat) : (d.setR r u w i).clu v = d.clu v := rfl
@[simp] theorem Dev.clu_setF (d : Dev) (f : Fld) (u w i v : Nat) : (d.setF f u w i).clu v = d.clu v := rfl
/-- What `rtr` reads after a change of one unit. -/
theorem Dev.rtr_modRtr (d : Dev) (u v : Nat) (f : RtrS → RtrS) : (d.modRtr u f).rtr v = if v = u then f (d.rtr u) else d.rtr v := by
  simp only [Dev.rtr, Dev.modRtr, sget_sset]
@[simp] theorem Dev.rtr_modRtr_self (d : Dev) (u : Nat) (f : RtrS → RtrS) : (d.modRtr u f).rtr u = f (d.rtr u) := by
  simp [Dev.rtr_modRtr]
@[simp] theorem Dev.rtr_setR (d : Dev) (r : Reg) (u : Nat) (w : Word) (i v : Nat) : (d.setR r u w i).rtr v = d.rtr v := rfl
@[simp] theorem Dev.rtr_setF (d : Dev) (f : Fld) (u w i v : Nat) : (d.setF f u w i).rtr v = d.rtr v := rfl
/-- What `hbm` reads after a change of one unit. -/
theorem Dev.hbm_modHbm (d : Dev) (u v : Nat) (f : HbmS → HbmS) : (d.modHbm u f).hbm v = if v = u then f (d.hbm u) else d.hbm v := by
  simp only [Dev.hbm, Dev.modHbm, sget_sset]
@[simp] theorem Dev.hbm_modHbm_self (d : Dev) (u : Nat) (f : HbmS → HbmS) : (d.modHbm u f).hbm u = f (d.hbm u) := by
  simp [Dev.hbm_modHbm]
@[simp] theorem Dev.hbm_setR (d : Dev) (r : Reg) (u : Nat) (w : Word) (i v : Nat) : (d.setR r u w i).hbm v = d.hbm v := rfl
@[simp] theorem Dev.hbm_setF (d : Dev) (f : Fld) (u w i v : Nat) : (d.setF f u w i).hbm v = d.hbm v := rfl
/-- What `cel` reads after a change of one unit. -/
theorem Dev.cel_modCel (d : Dev) (u v : Nat) (f : CelS → CelS) : (d.modCel u f).cel v = if v = u then f (d.cel u) else d.cel v := by
  simp only [Dev.cel, Dev.modCel, sget_sset]
@[simp] theorem Dev.cel_modCel_self (d : Dev) (u : Nat) (f : CelS → CelS) : (d.modCel u f).cel u = f (d.cel u) := by
  simp [Dev.cel_modCel]
@[simp] theorem Dev.cel_setR (d : Dev) (r : Reg) (u : Nat) (w : Word) (i v : Nat) : (d.setR r u w i).cel v = d.cel v := rfl
@[simp] theorem Dev.cel_setF (d : Dev) (f : Fld) (u w i v : Nat) : (d.setF f u w i).cel v = d.cel v := rfl
/-- What `lnk` reads after a change of one unit. -/
theorem Dev.lnk_modLnk (d : Dev) (u v : Nat) (f : LnkS → LnkS) : (d.modLnk u f).lnk v = if v = u then f (d.lnk u) else d.lnk v := by
  simp only [Dev.lnk, Dev.modLnk, sget_sset]
@[simp] theorem Dev.lnk_modLnk_self (d : Dev) (u : Nat) (f : LnkS → LnkS) : (d.modLnk u f).lnk u = f (d.lnk u) := by
  simp [Dev.lnk_modLnk]
@[simp] theorem Dev.lnk_setR (d : Dev) (r : Reg) (u : Nat) (w : Word) (i v : Nat) : (d.setR r u w i).lnk v = d.lnk v := rfl
@[simp] theorem Dev.lnk_setF (d : Dev) (f : Fld) (u w i v : Nat) : (d.setF f u w i).lnk v = d.lnk v := rfl
/-- What `dom` reads after a change of one unit. -/
theorem Dev.dom_modDom (d : Dev) (u v : Nat) (f : DomS → DomS) : (d.modDom u f).dom v = if v = u then f (d.dom u) else d.dom v := by
  simp only [Dev.dom, Dev.modDom, sget_sset]
@[simp] theorem Dev.dom_modDom_self (d : Dev) (u : Nat) (f : DomS → DomS) : (d.modDom u f).dom u = f (d.dom u) := by
  simp [Dev.dom_modDom]
@[simp] theorem Dev.dom_setR (d : Dev) (r : Reg) (u : Nat) (w : Word) (i v : Nat) : (d.setR r u w i).dom v = d.dom v := rfl
@[simp] theorem Dev.dom_setF (d : Dev) (f : Fld) (u w i v : Nat) : (d.setF f u w i).dom v = d.dom v := rfl
/-- What `sess` reads after a change of one unit. -/
theorem Dev.sess_modSess (d : Dev) (u v : Nat) (f : SessS → SessS) : (d.modSess u f).sess v = if v = u then f (d.sess u) else d.sess v := by
  simp only [Dev.sess, Dev.modSess, sget_sset]
@[simp] theorem Dev.sess_modSess_self (d : Dev) (u : Nat) (f : SessS → SessS) : (d.modSess u f).sess u = f (d.sess u) := by
  simp [Dev.sess_modSess]
@[simp] theorem Dev.sess_setR (d : Dev) (r : Reg) (u : Nat) (w : Word) (i v : Nat) : (d.setR r u w i).sess v = d.sess v := rfl
@[simp] theorem Dev.sess_setF (d : Dev) (f : Fld) (u w i v : Nat) : (d.setF f u w i).sess v = d.sess v := rfl

/-! Registers. -/

/-- What a register word reads after a store, by key. -/
theorem Dev.getR_setR_key (d : Dev) (r q : Reg) (u v i j : Nat) (w : Word) (h : q.key v j ≠ r.key u i) :
    (d.setR r u w i).getR q v j = d.getR q v j := by
  simp only [Dev.getR, Dev.setR]
  have hs : ∀ z : Word, sget (sset d.regs r.word (r.key u i) w) z (q.key v j) = sget d.regs z (q.key v j) :=
    fun z => sget_sset_ne d.regs r.word w h z
  exact hs _

/-- A stored register word reads back. -/
@[simp] theorem Dev.getR_setR_self (d : Dev) (r : Reg) (u i : Nat) (w : Word) : (d.setR r u w i).getR r u i = w := by
  simp only [Dev.getR, Dev.setR, sget_sset, if_true]

/-- A register word of another key stands when a field is stored. -/
theorem Dev.getR_setF_key (d : Dev) (f : Fld) (q : Reg) (u v i j x : Nat) (h : q.key v j ≠ f.reg.key u i) :
    (d.setF f u x i).getR q v j = d.getR q v j := Dev.getR_setR_key d f.reg q u v i j _ h

/-- A field of another word stands when a field is stored. -/
theorem Dev.fld_setF_key (d : Dev) (f g : Fld) (u v i j x : Nat) (h : g.reg.key v j ≠ f.reg.key u i) :
    (d.setF f u x i).fld g v j = d.fld g v j := by
  simp only [Dev.fld, Dev.getR_setF_key d f g.reg u v i j x h]

/-- The word that a stored field leaves. -/
theorem Dev.word_setF (d : Dev) (f : Fld) (u v i : Nat) (h : f.lo + f.width ≤ 64) :
    ((d.setF f u v i).getR f.reg u i).toNat = putBits (d.getR f.reg u i).toNat f.lo f.width v := by
  simp only [Dev.setF, Dev.getR_setR_self, BitVec.toNat_ofNat]
  exact Nat.mod_eq_of_lt (putBits_lt h (BitVec.isLt _))

/-- A field whose stored word changes by another map of the device stands. -/
theorem Dev.fld_congr {d e : Dev} (h : e.regs = d.regs) (f : Fld) (u i : Nat) : e.fld f u i = d.fld f u i := by
  simp only [Dev.fld, Dev.getR, h]

end Sys2Proof.Machine
end

