-- ==== Sys2Proof/WellFormed.lean ====
section
/-! DEFINITION. When a command's operands are ones that its sender can send: packets and flits of a size the fabric
carries, records of their fixed length, units that exist. A command that is not well formed still has the meaning that
its rule gives it; well-formedness is a premise for those who send commands. -/

namespace Sys2Proof

/-- A packet's LEN counts its flits: 112 payload bytes in the first and 128 in each further one (R238). -/
def packetWf (p : Packet) : Bool :=
  p.payload.length ≤ 2032 &&
  p.len.toNat == (if p.payload.length ≤ 112 then 0 else (p.payload.length - 112 + 127) / 128)

/-- A Sill request's data is LEN + 1 words of 4 B, or none (Table 9-4). -/
def sillReqWf (r : SillReq) : Bool := r.data.length == 4 * (r.len.toNat + 1) || r.data.isEmpty

/-- Whether a Hallway lies on a field's east (0 to 3) or south (4 to 7) side that has a neighbour (R25). -/
def hallwayWf (f : FieldN) (h : Fin 8) : Bool := if h.val < 4 then f.val % 4 < 3 else f.val / 4 < 3

/-- Whether the operands of a command are ones that its sender can send. -/
def wellFormed : Instr → Bool
  | .hallwayWireTest f h | .wireTestEnd f h _ | .apply f h | .hwTest f h | .quiesce f h _ | .hold f h _ => hallwayWf f h
  | .packetForward _ _ p _ | .write p | .writeAck p | .readReq p | .readResp p | .msg p | .ack p | .testPacket p
  | .creditMessage p | .creditRequest p | .spanForward _ p => packetWf p
  | .circuitFlit _ _ _ f => f.f.pkt.payload.length ≤ 2032
  | .wr r => sillReqWf r && !r.data.isEmpty
  | .rd r => r.data.isEmpty
  | .cple r _ => r.data.isEmpty
  | .cpl _ data => data.length % 4 == 0 && data.length ≤ 256
  | .sillFlit f => f.slots.length == 15
  | .mirrorJournal _ e => e.length == 64
  | .hbmRefresh _ _ bank _ => bank < 64
  | .hbmScrub _ x => x.sector < 1560281088
  | .eventOccurrence unit cls _ _ _ => unit.toNat / 65536 ≤ 19 && 1 ≤ unit.toNat / 65536 && cls.val ≠ 0
  | _ => true

end Sys2Proof
end

