-- ==== Sys2Proof/Tests/Slice0.lean ====
section
/-! SUPPORT. Small tests: terms that the well-formedness check refuses, schedule words written out from the manual's tables,
one effect per family of commands, and for each statement with hypotheses states and operands that meet them. -/

namespace Sys2Proof.Tests
open Sys2Proof.Machine

set_option Elab.async false

/-! Small states. -/

/-- The state after reset with a changed device. -/
def st (f : Dev → Dev) : State := State.reset.onDev f
/-- Core 0 of site 0, whose unit is 0. -/
def c0 : Core := ⟨0, 0⟩
/-- The last core of the last site. -/
def cZ : Core := ⟨255, 35⟩
/-- A guard that holds: P0. -/
def g0 : Guard := ⟨false, 0⟩
/-- No WAIT and no POST. -/
def y0 : Sync := ⟨false, 0, false, 0⟩
/-- Core 0 is RUNNING. -/
def run0 (d : Dev) : Dev := d.setF F.COR_STATUS_STATE 0 1
/-- Logical core 31 of site 255 is core site 35, in service. -/
def serve (d : Dev) : Dev := d.setR R.CLU_CORE_MAP 255 (BitVec.ofNat 64 (0xA3 * 2 ^ 56)) 3
/-- A NOP in the M queue of core 0 that has started. -/
def qw (b : WordBody) (started : Bool) : QWord := ⟨0, 0, b, [], [], 0, started, [], 0, WordRes.none⟩
/-- A message in core queue 0. -/
def qm0 : QMsg := ⟨0, [1, 2, 3, 4], 0, 0, 0⟩
/-- An entry of the command ring with an operation code, a session and parameters P0 to P3. -/
def entry (op sess : Nat) (ps : List Nat) : List Byte :=
  [1] ++ leBytes 1 op ++ leBytes 1 sess ++ zeros 13 ++ ps.flatMap (leBytes 8) ++ zeros (48 - 8 * ps.length)
/-- A packet of a type between two sites, with a payload of 8 bytes. -/
def pkt (ty src dst core : Nat) : Packet :=
  { pkt0 with ty := BitVec.ofNat 4 ty, srcSite := BitVec.ofNat 8 src, dstSite := BitVec.ofNat 8 dst,
              dstCore := BitVec.ofNat 6 core, addr := 0x1000000000, payload := zeros 8 }

/-! Well-formedness. -/

theorem test_hallway_off_the_die_is_ill_formed : wellFormed (.hold 15 0 true) = false := by decide
theorem test_hallway_of_field_0_is_well_formed : wellFormed (.hold 0 0 true) = true := by decide
theorem test_packet_length_mismatch_is_ill_formed : wellFormed (.write { pkt0 with len := 1 }) = false := by decide
theorem test_sill_write_without_data_is_ill_formed : wellFormed (.wr ⟨1, 0, 0, 0, 0, 0, 0, []⟩) = false := by decide
theorem test_sill_read_with_data_is_ill_formed : wellFormed (.rd ⟨2, 0, 0, 0, 0, 0, 0, [0]⟩) = false := by decide
theorem test_answer_of_odd_length_is_ill_formed : wellFormed (.cpl ⟨4, 0, 0, 0, 0, 0, 0, []⟩ [0]) = false := by decide
theorem test_flit_of_14_slots_is_ill_formed : wellFormed (.sillFlit ⟨0, true, List.replicate 14 0⟩) = false := by decide
theorem test_short_journal_entry_is_ill_formed : wellFormed (.mirrorJournal 0 [0]) = false := by decide
theorem test_circuit_payload_too_long_is_ill_formed :
    wellFormed (.circuitFlit 0 0 0 ⟨⟨0, true, { pkt0 with payload := List.replicate 2033 0 }⟩, []⟩) = false := by decide +kernel
theorem test_bank_64_is_ill_formed : wellFormed (.hbmRefresh 0 0 64 40) = false := by decide
theorem test_sector_past_the_stack_is_ill_formed : wellFormed (.hbmScrub 0 ⟨1560281088, 0, false⟩) = false := by decide
theorem test_event_class_0_is_ill_formed : wellFormed (.eventOccurrence 0x010000 0 0 0 ⟨false, false⟩) = false := by decide

/-! Schedule words written out bit by bit (Tables 3-2, 3-10 to 3-16), one per family. -/

theorem test_word_loop :
    decodeWord (BitVec.ofNat 64 (0x03 * 2 ^ 58 + 2 * 2 ^ 52 + 0x10 * 2 ^ 39)) = some ⟨g0, .loop 2 0x10⟩ := by decide
theorem test_word_lset :
    decodeWord (BitVec.ofNat 64 (0x04 * 2 ^ 58 + 3 * 2 ^ 52 + 1 * 2 ^ 51 + 9 * 2 ^ 47 + 0xFFFFF)) =
      some ⟨g0, .lset 3 true 9 0xFFFFF⟩ := by decide
theorem test_word_recv :
    decodeWord (BitVec.ofNat 64 (0x21 * 2 ^ 58 + 7 * 2 ^ 37 + 30 * 2 ^ 32 + 1 * 2 ^ 31)) = some ⟨g0, .recv y0 7 30 true⟩ := by decide
theorem test_word_chk :
    decodeWord (BitVec.ofNat 64 (0x33 * 2 ^ 58 + 1 * 2 ^ 36 + 30 * 2 ^ 31 + 29 * 2 ^ 26 + 5 * 2 ^ 23 + 12 * 2 ^ 19)) =
      some ⟨g0, .chk y0 1 30 29 5 12⟩ := by decide
theorem test_sem_op_3_is_illegal : legalBody (.sem 3 true 0 false 0 0) = false := by decide
theorem test_core_semaphore_64_is_illegal : legalBody (.sem 0 false 64 false 0 0) = false := by decide
theorem test_table_gives_no_bits : decodeTableWord 0 0 = none ∧ State.reset.withFetchWord 16 1 = State.reset := ⟨rfl, rfl⟩
theorem test_words_written_out : Obligations.WrittenOutWordsDecode := by
  unfold Obligations.WrittenOutWordsDecode; decide

/-! Witnesses of the statements about the block as a whole, the registers and the words. -/

theorem witness_StepRunsTheFrontCommand :
    State.reset.pending = [] ∧ State.reset.dev.fld F.TIM_SERVO_FREQ_ADJ 0 = 0 := by decide +kernel
theorem witness_EveryCommandAnswers : mayTouchMemory .timNt = false := rfl
theorem witness_StepKeepsMemoriesCanonical :
    State.reset.Canonical ∧ step State.reset = .next { State.reset with dev := State.reset.dev.tick } :=
  ⟨⟨rfl, rfl, rfl, rfl⟩, rfl⟩
theorem witness_RunsAreSafe : State.reset.Canonical := ⟨rfl, rfl, rfl, rfl⟩
theorem witness_RegisterWritesAreIndependent :
    R.COR_STATUS ∈ allRegs ∧ R.CLU_SEM ∈ allRegs ∧ R.COR_STATUS ≠ R.CLU_SEM ∧
    F.COR_STATUS_STATE.reg = F.COR_STATUS_PC.reg ∧ F.COR_STATUS_STATE.lo + F.COR_STATUS_STATE.width ≤ 64 ∧
    F.COR_STATUS_PC.lo + F.COR_STATUS_PC.width ≤ 64 ∧
    (F.COR_STATUS_STATE.lo + F.COR_STATUS_STATE.width ≤ F.COR_STATUS_PC.lo ∨
      F.COR_STATUS_PC.lo + F.COR_STATUS_PC.width ≤ F.COR_STATUS_STATE.lo) := by decide +kernel
theorem witness_PlainWriteFollowsAccessCodes :
    R.FAB_TMO.rw ≠ 0 ∧ R.FAB_TMO.rw < 2 ^ 64 ∧ R.FAB_TMO.w1c < 2 ^ 64 ∧ R.FAB_TMO.key 0 0 ≠ R.FAB_CTRL.key 0 0 := by
  decide +kernel
theorem witness_RegisterAccessByAddress :
    State.reset.dev.place State.reset.dev.hostMap 0x17000110 = .reg 14 0 0x110 ∧ accOk 0x110 8 = true ∧ accOk 0x114 4 = true ∧
    State.reset.dev.regWaits 14 0 = [] ∧ State.reset.dev.place State.reset.dev.hostMap 0x0900000000 = .unmapped := by
  decide +kernel
theorem witness_ScheduleWordsRoundTrip : decodeWord 0 = some ⟨g0, .nop⟩ ∧ encodeWord ⟨g0, .nop⟩ = 0 := by decide
theorem witness_AWordWithAFalseGuardIsPassedOver : (st run0).Passes (coreU c0) ⟨false, 7⟩ := by
  unfold State.Passes; decide +kernel
theorem witness_IssueChangesOnlyTheSequencer :
    (State.reset.dev.core 0).halting = 0 ∧ R.COR_SCALAR.key 0 0 ≠ R.COR_STATUS.key 0 0 ∧
    R.COR_SCALAR.key 0 0 ≠ R.COR_SEQ_STATUS.key 0 0 ∧ R.COR_SCALAR.key 0 0 ≠ R.COR_STALL_CNT.key 0 0 := by decide +kernel
theorem witness_BranchesAndLoopsSteerThePc :
    let s := st fun d => run0 (d.setF F.COR_LOOP_L 0 1 3)
    s.Ready (coreU c0) g0 (.br 8191) ∧ s.Ready (coreU c0) g0 (.loop 3 8191) ∧ s.dev.fld F.COR_LOOP_L 0 3 ≠ 0 ∧
    s.Ready (coreU c0) g0 (.loop 0 8191) ∧ s.dev.fld F.COR_LOOP_L 0 0 = 0 ∧ s.Passes (coreU c0) ⟨true, 0⟩ := by
  unfold State.Ready State.Passes; decide +kernel
theorem witness_RegisterWordsWriteTheirDestination :
    ∀ b ∈ ([.nop, .sli 15 0xFFFFFFFF, .salu 15 15 15 12, .salui 0 0 0 1, .pset 7 6 15 true 15 0xFFFF, .plog 7 1 2 3,
      .lset 3 true 15 0, .dadd 31 true 0 0x80000000, .route 2, .phase 63] : List WordBody),
    (st run0).Ready (coreU c0) g0 b := by unfold State.Ready; decide +kernel
theorem witness_ControlWordsSteerIssue :
    let s := st fun d => (run0 ((d.setF F.CLU_SEM_V 0 5 255).setF F.COR_SEM_V 0 5 63)).modCore 0 fun x => { x with qs := [qm0] }
    (∀ b ∈ ([.end_, .sleep 3 0, .sleep 1 0, .fence 0 7, .fence 1 0, .fence 2 0, .sem 0 true 255 false 0 5,
      .sem 0 false 63 false 0 5, .sem 1 true 255 false 0 0xFFFA, .sem 1 false 63 false 0 0xFFFA, .sem 2 true 255 false 0 5,
      .sem 2 false 63 false 0 5, .qrd 15 0 15 true] : List WordBody), s.Ready (coreU c0) g0 b) ∧
    s.dev.engBusy 0 7 = false ∧ s.dev.engBusy 0 0 = false ∧ s.dev.unacked 0 = false ∧
    s.dev.semVal 0 false 0 5 ≤ s.dev.fld F.CLU_SEM_V 0 255 ∧ s.dev.semVal 0 false 0 5 ≤ s.dev.fld F.COR_SEM_V 0 63 ∧
    s.dev.fld F.CLU_SEM_V 0 255 + s.dev.semVal 0 false 0 0xFFFA ≤ 0xFFFF ∧
    s.dev.fld F.COR_SEM_V 0 63 + s.dev.semVal 0 false 0 0xFFFA ≤ 0xFFFF ∧ s.dev.qHead 0 0 = some qm0 := by
  unfold State.Ready; decide +kernel
theorem witness_UnmetWordsHoldIssue :
    let s := st fun d => run0 (d.modCore 0 fun x => { x with m := [qw (.mov y0 0 0) true] })
    s.Ready (coreU c0) g0 (.sem 0 false 0 false 0 1) ∧ s.dev.fld F.COR_SEM_V 0 0 < s.dev.semVal 0 false 0 1 ∧
    s.Ready (coreU c0) g0 (.qrd 0 7 0 false) ∧ s.dev.qHead 0 7 = none ∧
    s.Ready (coreU c0) g0 (.fence 0 7) ∧ s.dev.engBusy 0 7 = true := by
  unfold State.Ready; decide +kernel

/-- The engine words of the statement, with their queues. -/
def engineWords : List (WordBody × EngQ) :=
  [(.mov y0 0 1, .m), (.recv y0 0 0 true, .m), (.send y0 0 0 false 0 false 0, .m), (.cstArm y0 0 1 0, .m),
   (.cstAdd y0 0 0 0, .m), (.sld y0 1 0 0, .m), (.sst y0 1 0 0, .m), (.dld y0 0 0 1 0, .m), (.cube y0 0 1 2 false, .cd),
   (.dot y0 0 1 2 false, .cd), (.vop y0 0 0 1 2 3 false, .v), (.vred y0 0 0 1, .v),
   (.cvt y0 0 1 2 false 0 false 0 false 0 0 false, .v), (.chk y0 0 0 1 1 1, .v)]

/-- Whether a word starts on core 0 of a state whose queues are empty. -/
def startsOk (s : State) (b : WordBody) (q : EngQ) : Bool :=
  let s1 := s.onDev fun d => (d.dispatch 0 (d.pc 0) q b).issued 0 b (d.pc 0 + 1) true false false
  match (s1.dev.core 0).queue q with
  | [w] => (match s1.wordStart 0 w with | .ok t _ => (t.dev.core 0).halting == 0 | _ => false)
  | _ => false

/-- Store a descriptor of core 0. -/
def desc (w0 w1 : Nat) (i : Nat) (d : Dev) : Dev :=
  (d.setR R.COR_DESC0 0 (BitVec.ofNat 64 w0) i).setR R.COR_DESC1 0 (BitVec.ofNat 64 w1) i

/-- Core 0 runs with four descriptors of two binary32 elements, one of 16 M8 activations, a weight matrix of 16 × 8, one of 8
results in PM, a channel to an ABUF landing, and a message in queue 0. -/
def eng0 (d : Dev) : Dev :=
  desc (8 * 2 ^ 60 + 0x100000) (2 ^ 112 / 2 ^ 64) 0 (desc (8 * 2 ^ 60 + 0x100100) (2 ^ 112 / 2 ^ 64) 1
    (desc (8 * 2 ^ 60 + 0x100200) (2 ^ 112 / 2 ^ 64) 2 (desc (8 * 2 ^ 60 + 0x100300) (2 ^ 112 / 2 ^ 64) 3
      (desc (1 * 2 ^ 60 + 3 * 2 ^ 54) (15 * 2 ^ 48) 4 (desc (1 * 2 ^ 60 + 1 * 2 ^ 57) (15 * 2 ^ 49) 5
        (desc (8 * 2 ^ 60 + 0x130000) (7 * 2 ^ 48) 6
          (run0 (((d.setF F.COR_CHAN0_LAND 0 1).setF F.COR_CHAN0_VALID 0 1).modCore 0 fun x => { x with qs := [qm0] }))))))))

/-- The engine words of the statement, with their queues. -/
def engineWords' : List (WordBody × EngQ) :=
  engineWords.filter (fun x => x.2 != .cd) ++ [(.cube y0 4 5 6 false, .cd), (.dot y0 4 5 6 false, .cd)]

theorem witness_EngineWordsIssueAndStart_empty_queue :
    ∀ x ∈ engineWords', (st eng0).Ready (coreU c0) g0 x.1 ∧ ((st eng0).dev.core 0).queue x.2 = [] ∧
      (syncOf x.1).waitEn = false ∧ startsOk (st eng0) x.1 x.2 = true := by
  unfold State.Ready; decide +kernel
theorem witness_EngineWordsIssueAndStart_queue_of_7 :
    let s := st fun d => (eng0 d).modCore 0 fun x =>
      { x with m := List.replicate 7 (qw (.mov y0 0 1) true), v := List.replicate 7 (qw (.vop y0 0 0 1 2 3 false) true),
               cd := List.replicate 7 (qw (.cube y0 4 5 6 false) true) }
    ∀ x ∈ engineWords', s.Ready (coreU c0) g0 x.1 ∧ ((s.dev.core 0).queue x.2).length < 8 ∧ (s.dev.core 0).queue x.2 ≠ [] := by
  unfold State.Ready; decide +kernel
theorem witness_LoadsAndStoresMoveTheirBytes :
    lsErr 0x13FFFC 4 = none ∧ State.reset.marked 0 2 [(0x13FFFC, 4)] = [] ∧
    lsErr 0x13FFF0 16 = none ∧ State.reset.marked 0 2 [(0x13FFF0, 16)] = [] := by decide +kernel
theorem witness_CoreControlCommands :
    let u := coreU cZ
    let s (v : Nat) := st fun d => (serve d).setF F.COR_STATUS_STATE u v
    (∀ v ∈ [0, 1, 3], (s v).dev.coreReach u = true ∧ (s v).dev.lcoreOf u = some 31 ∧ (s v).dev.coreState u = v) ∧
    (s 0).dev.flag F.COR_CTRL_CUBE_RETIRED u ≠ true ∧ (s 0).dev.awake u = true ∧
    (s 0).marked u 2 [(0x140000 + 8 * (s 0).dev.pc u, 8)] = [] ∧ decodeWord ((s 0).fetchWord u) = some ⟨g0, .nop⟩ := by
  decide +kernel
theorem witness_EngineProgressCommands :
    let y : Sync := ⟨false, 0, true, 63⟩
    let s := st fun d => run0 (((d.setF F.COR_STATUS_STALL 0 5).setF F.COR_WAIT_TMO_TMO_US 0 1).modCore 0 fun x =>
      { x with held := some (⟨g0, .sem 0 false 0 false 0 1⟩, false), m := [qw (.sst y 1 0 0) true],
               v := [qw (.vred y0 0 0 1) false] })
    s.dev.awake 0 = true ∧ (s.dev.core 0).held = some (⟨g0, .sem 0 false 0 false 0 1⟩, false) ∧
    (s.dev.core 0).queue .v = [qw (.vred y0 0 0 1) false] ∧
    (match (st eng0).wordStart 0 (qw (.sst y0 1 0 0) false) with | .ok _ _ => true | _ => false) = true ∧
    (s.dev.core 0).queue .m = [qw (.sst y 1 0 0) true] ∧ s.dev.wordOut 0 (qw (.sst y 1 0 0) true) = false ∧
    s.dev.fld F.COR_SEM_V 0 63 < 0xFFFF ∧ 0xFFFF ≤ (s.dev.setF F.COR_SEM_V 0 0xFFFF 63).fld F.COR_SEM_V 0 63 ∧
    s.dev.fld F.COR_WAIT_TMO_TMO_US 0 ≠ 0 ∧ s.dev.waiter 0 none = some (0, 0, 0x14) = true := by decide +kernel

/-! Witnesses: fields, events, blocks of the edge. -/

/-- Hallway 7 of field 11 in a STATE, with power-good on both sides. -/
def hall (v : Nat) (d : Dev) : Dev :=
  ((d.setF F.FLD_HW_STATUS_STATE 11 v 7).setF F.FLD_PG_STATUS_OWN_PG 11 1).setF F.FLD_PG_STATUS_OWN_PG 15 1

theorem witness_HallwayCommandsTakeEffect :
    let tst (v : Nat) (asked : Bool) (d : Dev) : Dev := { hall v d with hw := { d.hw with testing := [(11, 7, asked)] } }
    (st id).dev.fieldLost 15 = false ∧ (st id).dev.fieldLost 0 = false ∧
    ownsHw 11 7 = true ∧ hwFar 11 7 = 15 ∧ (st (hall 1)).dev.flag F.FLD_PG_STATUS_OWN_PG 11 = true ∧
    (st (hall 1)).dev.flag F.FLD_PG_STATUS_OWN_PG 15 = true ∧ (st (hall 1)).dev.hwState 11 7 = 1 ∧
    (st (hall 1)).dev.flag F.FLD_HW_STATUS_FAILED 11 7 = false ∧ (st (hall 1)).dev.hw.testing = [] ∧
    ((st (tst 1 false)).dev.hw.testing.find? fun x => x.1 == 11 && x.2.1 == 7) = some (11, 7, false) ∧
    (st (tst 1 false)).dev.hwPower 11 7 = true ∧ (st (tst 1 false)).dev.hwState 11 7 = 1 ∧
    ((st (tst 2 true)).dev.hw.testing.find? fun x => x.1 == 11 && x.2.1 == 7) = some (11, 7, true) ∧
    (st (tst 2 true)).dev.hwState 11 7 = 2 ∧ ((tst 1 false (st id).dev).setF F.FLD_PG_STATUS_OWN_PG 15 0).hwPower 11 7 = false ∧
    (st (hall 2)).dev.hwReach 11 7 = true ∧ (st (hall 2)).dev.hwState 11 7 = 2 ∧ (st (hall 2)).dev.hw.testing = [] ∧
    (st (hall 0)).dev.hwReach 11 7 = true ∧ (st (hall 0)).dev.hwState 11 7 = 0 := by
  decide +kernel
theorem witness_ApplyMakesTheStagedTableActive_applied :
    (st (hall 2)).dev.hwReach 11 7 = true ∧ (st (hall 2)).dev.hwState 11 7 = 2 ∧
    ¬ ∃ dr b, b < 34 ∧ bitOf (sget (st (hall 2)).dev.hw.staged 0 (hwKey 11 7 dr b)) 5 = true ∧
      bitOf (sget (st (hall 2)).dev.hw.staged 0 (hwKey 11 7 dr b)) 13 = true ∧
      bitsOf (sget (st (hall 2)).dev.hw.staged 0 (hwKey 11 7 dr b)) 0 5 =
        bitsOf (sget (st (hall 2)).dev.hw.staged 0 (hwKey 11 7 dr b)) 8 5 :=
  ⟨by decide +kernel, by decide +kernel, fun ⟨_, _, _, h, _⟩ =>
    absurd (show bitOf 0 5 = true from h) (by decide)⟩
theorem witness_ApplyMakesTheStagedTableActive_rejected :
    let d := (st fun d => { hall 2 d with hw := { d.hw with staged := [(hwKey 11 7 true 33, 0x2020)] } }).dev
    d.hwReach 11 7 = true ∧ bitOf (sget d.hw.staged 0 (hwKey 11 7 true 33)) 5 = true ∧
    bitOf (sget d.hw.staged 0 (hwKey 11 7 true 33)) 13 = true ∧
    bitsOf (sget d.hw.staged 0 (hwKey 11 7 true 33)) 0 5 = bitsOf (sget d.hw.staged 0 (hwKey 11 7 true 33)) 8 5 ∧
    (st (hall 1)).dev.hwReach 11 7 = true ∧ (st (hall 1)).dev.hwState 11 7 ≠ 2 := by decide +kernel
theorem witness_EventCommandsTakeEffect :
    let eu := 2 * 65536 + 255
    let m : EvMsg := ⟨eu, 7, 2, 7 * 2 ^ 56, 0⟩
    let m3 : EvMsg := ⟨eu, 8, 3, 8 * 2 ^ 56, 0⟩
    let s := st fun d => (({ d with evq := [m, m3] } : Dev).setR R.EVT_HIST1 eu (BitVec.ofNat 64 (7 * 2 ^ 56 + 2 ^ 40)) 7)
    s.dev.evUnitOk eu = true ∧ eu / 65536 ≠ 1 ∧ baseLevel 2 12 0 = some 1 ∧ baseLevel 2 13 0 = none ∧ baseLevel 4 2 1 = some 1 ∧
    s.dev.evUnitOk (65536 + 255 * 256 + 35) = true ∧
    (65536 + 255 * 256 + 35) / 65536 = 1 ∧ s.dev.coreState (255 * 256 + 35) ≠ 4 ∧
    (s.dev.evq.find? fun m => m.unit == eu) = some m ∧ m.seq = 7 ∧
    (({ s.dev with evq := s.dev.evq.erase m } : Dev).evtRecord m).histIx eu 7 = some 7 ∧
    (({ (st id).dev with evq := [] } : Dev).evtRecord m).histIx eu 7 = none ∧
    (s.dev.evq.find? fun m => m.unit == eu && m.seq == 7) = some m ∧ m.sends < 3 ∧
    (s.dev.evq.find? fun m => m.unit == eu && m.seq == 8) = some m3 ∧ 3 ≤ m3.sends ∧
    s.dev.evReach eu = true ∧ [domHost, domUci].filter s.dev.rests = [] ∧ s.dev.regWaits 2 255 = [] ∧ R.EVT_ENABLE.key eu 0 ≠ R.EVT_STATUS.key eu 0 ∧
    (st fun d => d.modDom 255 fun x => { x with level := 2 }).dev.regWaits 2 255 ≠ [] ∧
    (st fun d => d.modDom 255 fun x => { x with level := 2 }).dev.evReach eu = true := by decide +kernel
theorem witness_SillCommandsTakeEffect_modules :
    (st id).dev.flag F.UCI_STATUS_IN_SILL 3 = false ∧ ((st id).dev.dom domUci).level = 0 ∧ (st id).dev.rests domUci = false ∧
    2 ≤ ((st fun d => d.modDom domUci fun x => { x with level := 3 }).dev.dom domUci).level ∧
    (st fun d => d.setF F.UCI_STATUS_IN_SILL 3 1).dev.flag F.UCI_STATUS_IN_SILL 3 = true ∧
    (st id).dev.flag F.UCI_CTRL_DISABLE 3 = false ∧
    (st fun d => d.setF F.UCI_CTRL_DISABLE 3 1).dev.flag F.UCI_CTRL_DISABLE 3 = true := by decide +kernel
theorem witness_BootDomainCommandsTakeEffect :
    (∀ op ∈ [0, 1, 2], (st fun d => { d with boot := { d.boot with nvm := some (op, 1, 0x7FFF000) } }).dev.boot.nvm =
      some (op, 1, 0x7FFF000)) ∧ Memory.wf State.reset.flash = true ∧
    (st fun d => { d with boot := { d.boot with nvm := some (1, 1, 0) } }).dev.boot.nvm.isSome = true ∧
    (st id).dev.boot.commit = none ∧
    (st fun d => { d with boot := { d.boot with commit := some 64 } }).dev.boot.commit = some 64 ∧
    (let f := (st id).dev.boot.fuse
     f.svnA ||| f.svnB = thermo f.count ∧ (f.svnA ||| 0) &&& thermo 64 ≠ thermo 64) ∧ (st id).dev.boot.report = none ∧
    (st fun d => { d with boot := { d.boot with report := some (0, [0, 0, 0, 0], 0x100000) } }).dev.boot.report =
      some (0, [0, 0, 0, 0], 0x100000) := by decide +kernel
theorem witness_QueueRingAndChannelCommands :
    (st id).dev.coreReach (coreU cZ) = true ∧ (st id).dev.siteOut 255 = false ∧
    (bitsOf 0 56 8 = bitsOf ((st id).dev.getR R.COR_CHAN1 (coreU cZ) 255).toNat 56 8 ∧
      bitsOf 0 38 5 = bitsOf ((st id).dev.getR R.COR_CHAN1 (coreU cZ) 255).toNat 38 5) ∧
    ¬ (bitsOf (2 ^ 56) 56 8 = bitsOf ((st id).dev.getR R.COR_CHAN1 (coreU cZ) 255).toNat 56 8) := by decide +kernel
theorem witness_PopAdvancesTheHead :
    let f : Dev → Dev := fun d => d.setF F.CLU_RING_TAIL_OFFSET 0 64 31
    let pad : State := { st f with mem := pokeN [] ((st f).dev.ringBase 0 31 + 7) [0x7F] }
    (st id).dev.siteOut 0 = false ∧
    (st id).dev.fld F.CLU_RING_HEAD_OFFSET 0 31 = (st id).dev.fld F.CLU_RING_TAIL_OFFSET 0 31 ∧
    (st id).dev.fld F.CLU_RING_HEAD_WRAP 0 31 = (st id).dev.fld F.CLU_RING_TAIL_WRAP 0 31 ∧
    (st f).dev.fld F.CLU_RING_HEAD_OFFSET 0 31 ≠ (st f).dev.fld F.CLU_RING_TAIL_OFFSET 0 31 ∧
    leNat ((st f).get ((st f).dev.ringBase 0 31) 8) / 2 ^ 56 ≠ 0x7F ∧
    leNat (pad.get (pad.dev.ringBase 0 31) 8) / 2 ^ 56 = 0x7F := by decide +kernel
theorem witness_MessageWaitsEnd :
    let w : Nat × WaitMsg := (31, ⟨pkt 4 1 0 60, false, [1]⟩)
    let s := st fun d => (d.setF F.CLU_RING_CFG_OPEN 0 1 31).modClu 0 fun x => { x with ringWait := [w], cstRead := [255] }
    ((s.dev.clu 0).ringWait.find? fun w => w.1 == 31) = some w ∧
    ((s.onDev fun d => d.modClu 0 fun x => { x with ringWait := x.ringWait.erase w }).ringTry w.2.pkt w.2.circ w.2.body).isSome
      = true ∧
    (s.dev.clu 0).cstRead.contains 255 = true ∧ ((s.dev.clu 0).cstWait.filter fun w => w.1 == 255) = [] := by decide +kernel
theorem witness_MessageWaitsEnd_credit :
    let x : QWord := { qw (.send y0 0 255 false 0 false 0) false with ds := [8 * 2 ^ 60 + 2 ^ 112] }
    let s := st fun d => (d.setF F.COR_CHAN0_VALID 0 1 255).modCore 0 fun y => { y with m := [x] }
    (s.dev.core 0).m = [x] ∧ s.dev.fld F.COR_CHAN0_LAND 0 255 = 0 ∧ s.dev.flag F.COR_CHAN0_VALID 0 255 = true ∧
    s.dev.fld F.COR_CHAN1_CRED 0 255 < entriesOf (opBytes (x.ds.headD 0)) ∧
    newCred (5 * 2 ^ 38 + 3 * 2 ^ 28) 0 0 = some 5 := by decide +kernel
theorem witness_MessageWaitsEnd_packet : (st fun d => { d with net := [⟨0, 15, pkt 4 1 0 61⟩] }).Serves (pkt 4 1 0 61) := by
  unfold State.Serves; decide +kernel

/-! Witnesses: the fabric. -/

/-- Site 0 sends what is for site 1 east, in copy A. -/
def fab (d : Dev) : Dev :=
  (d.setF F.FAB_CTRL_VALID_A 0 1).modRtr 0 fun r =>
    { r with rtA := [(1, 0x9100)], circ := [(0, 0xE0000000 + 2 ^ 24), (55, 0xC0000000)], drain := ⟨2, 0, 0, 0, 1, []⟩ }

theorem witness_RoutersForwardPackets :
    let p := pkt 0 2 1 0
    let q := pkt 0 2 0 35
    let d := (st fun d => { fab d with net := [⟨0, 6, p⟩] }).dev
    let c := (st fun d => { fab d with net := [⟨0, 6, q⟩] }).dev
    (d.rtr 0).deadPorts = [] ∧ p.ty.toNat < 8 ∧ dstResv p.dstCore.toNat = false ∧ d.copyValid 0 p.epoch = true ∧
    p.dstSite.toNat ≠ 0 ∧ d.routePort 0 6 p = some 1 ∧ d.hopShut 0 1 = false ∧ neighbour 0 1 = some 1 ∧
    (d.rtr 0).paused.contains 1 = false ∧ d.takes 1 (backPort 1) p = true ∧ hasPort 0 6 = true ∧ d.isHead 0 6 p = true ∧
    d.myTurn 0 6 p.vc 1 = true ∧ (match d.fate 0 6 p with | .hop 1 1 _ _ => true | _ => false) = true ∧
    q.dstCore.toNat < 36 ∧ q.dstSite.toNat = 0 ∧ c.isHead 0 6 q = true ∧ c.myTurn 0 6 q.vc 4 = true ∧
    (c.rtr 0).paused.contains 4 = false ∧ c.redirects q = false ∧ c.siteOut 0 = false ∧ c.asleep 0 = false ∧ d.hopWaits 0 6 p = [] ∧ c.hopWaits 0 6 q = [] ∧
    (({ d with doms := (d.modDom (domFab 0) fun x => { x with level := 1 }).doms } : Dev).hopWaits 0 6 p) ≠ [] ∧
    (match c.fate 0 6 q with | .sink 4 => true | _ => false) = true ∧ d.isHead 0 6 q = false ∧
    (st fun d => d.setF F.FAB_CTRL_STALL_LIMIT 0 1).dev.fld F.FAB_CTRL_STALL_LIMIT 0 ≠ 0 ∧ (d.freeTag 0 6).isSome = true := by
  decide +kernel
/-- Errors in a packet's flit: two protected sideband bits, one, and a bit of the CRC. -/
theorem witness_RoutersForwardPackets_errors :
    ((judgePkt (pkt 0 2 1 0) [(0, 1041), (0, 1042)]).any fun x => x.ue) = true ∧
    ((judgePkt (pkt 0 2 1 0) [(0, 1041)]).any fun x => x.ue) = false ∧
    ∃ k : Fin 1088, ((judgePkt (pkt 0 2 1 0) [(0, k)]).any fun x => x.ue) = false ∧
      ((judgePkt (pkt 0 2 1 0) [(0, k)]).any fun x => x.crc) = true := by
  have e : ∀ ks : List (Fin 1088), judgePkt (pkt 0 2 1 0) (ks.map fun k => (0, k)) =
      [judgeFlit (pktFlit (pkt 0 2 1 0) 0 0 0) (ks.map fun k => k.val)] := fun ks => by
    rw [judgePkt, show pktFlits (pkt 0 2 1 0) = 1 from rfl]
    simp [List.filter_map, Function.comp_def]
  have a (ks : List (Fin 1088)) : (judgePkt (pkt 0 2 1 0) (ks.map fun k => (0, k))).any (fun x => x.ue) = _ := congrArg (fun l : List FlitFind => l.any fun x => x.ue) (e ks)
  have b (ks : List (Fin 1088)) : (judgePkt (pkt 0 2 1 0) (ks.map fun k => (0, k))).any (fun x => x.crc) = _ := congrArg (fun l : List FlitFind => l.any fun x => x.crc) (e ks)
  refine ⟨(a [1041, 1042]).trans ?_, (a [1041]).trans ?_, ?_⟩
  · exact (Bool.or_false _).trans ((judgeFlit_ue_flips _ _ _ (by decide)).trans (by decide))
  · exact (Bool.or_false _).trans ((judgeFlit_ue_flips _ _ _ (by decide)).trans (by decide))
  · rcases judgeFlit_crc_one_of (pktFlit (pkt 0 2 1 0) 0 0 0) with h | h
    · exact ⟨1056, (a [1056]).trans ((Bool.or_false _).trans ((judgeFlit_ue_flips _ _ _ (by decide)).trans (by decide))),
        (b [1056]).trans ((Bool.or_false _).trans h)⟩
    · exact ⟨1057, (a [1057]).trans ((Bool.or_false _).trans ((judgeFlit_ue_flips _ _ _ (by decide)).trans (by decide))),
        (b [1057]).trans ((Bool.or_false _).trans h)⟩
theorem witness_ReceiversFindFlitErrors :
    let x := 3630055170 * 2 ^ 1056
    crc32 (natBits x 1024 ++ natBits (bitsOf x 1024 16) 16) = bitsOf x 1056 32 := by decide +kernel
theorem witness_RouterConfigurationCommands :
    let d := (st fab).dev
    let late : Dev := { d with tim := { d.tim with sub := 16 * 400000000000 } }
    let sel (t i : Nat) := (st fun d => ((fab d).setF F.FAB_TBL_SEL_TABLE 0 t).setF F.FAB_TBL_SEL_INDEX 0 i).dev
    d.fieldLost (fieldOf 255) = false ∧ d.fieldLost (fieldOf 0) = false ∧
    (bitOf 0 0 != bitOf (d.getR R.FAB_CTRL 0).toNat 0 ||
      (if bitOf (d.getR R.FAB_CTRL 0).toNat 0 then bitOf (d.getR R.FAB_CTRL 0).toNat 2 && !bitOf 0 2
       else bitOf (d.getR R.FAB_CTRL 0).toNat 1 && !bitOf 0 1)) = true ∧
    d.fld F.FAB_TBL_SEL_TABLE 0 = 0 ∧ d.copyValid 0 false = true ∧ (st id).dev.copyValid 255 false = false ∧
    (sel 4 255).fld F.FAB_TBL_SEL_TABLE 0 = 4 ∧ (sel 4 255).copyValid 0 true = false ∧
    (sel 2 55).fld F.FAB_TBL_SEL_TABLE 0 = 2 ∧ (sel 2 55).fld F.FAB_TBL_SEL_INDEX 0 < 56 ∧
    bitOf (sget (d.rtr 0).circ 0 55) 31 = true ∧ bitOf (sget (d.rtr 0).circ 0 55) 30 = true ∧ 16 ≤ late.circIdle 0 55 ∧
    d.siteOut 255 = false ∧ (∀ c, c < 36 → d.coreAbsent (cu 255 c) = true ∨ d.coreState (cu 255 c) = 0) ∧
    d.coreAbsent 0 = false ∧ (run0 d).coreState 0 ≠ 0 := by decide +kernel
/-- The drain of root 0 over sites 0, 1 and 64, in a state. -/
def drn (x : DrainS) (d : Dev) : Dev :=
  (((((d.setR R.FAB_DRAIN_MASK 0 3 0).setR R.FAB_DRAIN_MASK 0 1 1).setR R.FAB_DRAIN_MASK 0 0 2).setR R.FAB_DRAIN_MASK 0 0 3).setF
    F.FAB_DRAIN_CTRL_AUTO_RETIRE 0 0).modRtr 0 fun r => { r with drain := x }
/-- The DRAIN packet of root 0 on its return, with a body. -/
def drainPkt (b : List Byte) : Packet := { pkt 6 0 0 63 with payload := b }
theorem witness_DrainsRunInWaves :
    let dr (x : DrainS) := (st (drn x)).dev
    let back (x : DrainS) (b : List Byte) := (st fun d => { drn x d with net := [⟨0, 15, drainPkt b⟩] }).dev
    let b := drainBody 5 5 1 1 0 false
    let br := drainBody 5 5 1 1 1 true
    (st id).dev.fieldLost (fieldOf 255) = false ∧ ((st id).dev.rtr 255).drain.phase = 0 ∧
    (dr ⟨1, 0, 0, 0, 1, []⟩).drainSites 0 = [0, 1, 64] ∧
    ((dr ⟨1, 0, 0, 0, 1, [1, 64]⟩).rtr 0).drain.todo = [1, 64] ∧ (drainPkt b).srcSite.toNat = 0 ∧
    leAt b 13 1 < 2 ∧ 2 ≤ leAt br 13 1 ∧ leAt br 13 1 < 4 ∧ (drainPkt br).payload = br ∧
    (back ⟨2, 5, 5, 0, 1, []⟩ b).drainBack 0 = some (drainPkt b) ∧ ((back ⟨2, 5, 5, 0, 1, []⟩ b).rtr 0).drain.phase = 1 ∧
    ((dr ⟨2, 5, 5, 0, 1, []⟩).rtr 0).drain.inj = 5 ∧ ((dr ⟨2, 5, 5, 0, 1, []⟩).rtr 0).drain.ej = 5 ∧
    ((dr ⟨2, 5, 5, 0, 1, []⟩).rtr 0).drain.wave = 2 ∧ (dr ⟨2, 5, 5, 0, 1, []⟩).flag F.FAB_DRAIN_CTRL_AUTO_RETIRE 0 = false ∧
    ((dr ⟨1, 0, 0, 0, 1, []⟩).rtr 0).drain.wave = 1 ∧ ((dr ⟨1, 0, 0, 0, 2, []⟩).rtr 0).drain.phase = 2 ∧
    (back ⟨2, 5, 5, 0, 3, []⟩ br).drainBack 0 = some (drainPkt br) ∧ ((back ⟨2, 5, 5, 0, 3, []⟩ br).rtr 0).drain.phase = 3 := by
  decide +kernel
/-- A packet at its sink. -/
def sunk (p : Packet) (f : Dev → Dev := id) : State := st fun d => f { d with net := [⟨p.dstSite.toNat, 15, p⟩] }
theorem witness_PacketsAreServedAtTheirSink :
    (∀ p ∈ [pkt 0 2 0 0, pkt 1 2 0 35, { pkt 2 2 0 0 with payload := [] }], (sunk p).Serves p ∧
      (sunk p).dev.placeSleeps ((sunk p).dev.sinkPlace p (sinkAddr p)) = none) ∧
    (((sunk (pkt 1 2 0 0)).takenIn (pkt 1 2 0 0)).packetWrite (pkt 1 2 0 0)).map (fun x => x.2) = some 0 := by
  unfold State.Serves; decide +kernel
theorem witness_PacketsAreServedAtTheirSink_messages :
    let m := pkt 4 2 0 0
    let same := { pkt 7 0 0 0 with srcSite := 0 }
    (sunk m).Serves m ∧ (((sunk m).takenIn m).msgIn m).isSome = true ∧ (sunk (pkt 7 2 0 0)).Serves (pkt 7 2 0 0) ∧
    (pkt 7 2 0 0).srcSite ≠ (pkt 7 2 0 0).dstSite ∧ (sunk same).Serves same ∧ same.srcSite = same.dstSite ∧
    (sunk m).dev.isNext { ({ m with kill := true } : Packet) with crcBad := false } = false ∧
    (sunk { m with kill := true }).dev.isNext { m with kill := true } = true ∧ (sunk m).dev.isNext { m with crcBad := false } = true ∧
    (sunk m).dev.isNext { pkt 4 2 0 0 with chan := m.chan, payload := [1] } = false := by
  unfold State.Serves; decide +kernel
theorem witness_PacketsAreServedAtTheirSink_responses :
    let r : Req := ⟨0, 4, 0, .other⟩
    let q : Req := ⟨0, 4, 0, .read 0 0 0 8⟩
    let p := pkt 5 2 0 0
    let s := sunk p fun d => { d with reqs := [r] }
    let t := sunk p fun d => { d with reqs := [q] }
    s.Serves p ∧ t.Serves p ∧ (s.takenIn p).dev.reqOf 0 (portOfCore 0) 0 = some r ∧
    (t.takenIn p).dev.reqOf 0 (portOfCore 0) 0 = some q ∧ ((sunk p).takenIn p).dev.reqOf 0 (portOfCore 0) 0 = none ∧
    respStatus p = 0 ∧ s.dev.reqOf 0 4 0 = some r ∧ t.dev.reqOf 0 4 0 = some q := by
  unfold State.Serves; decide +kernel
theorem witness_CircuitFlitsFollowTheirEntry :
    let f : CircFlit := ⟨0, true, pkt 4 2 0 0⟩
    let s := st fun d => (fab d).modRtr 0 fun r => { r with circ := [(8, 0xE0000000 + 2 ^ 24)] }
    s.dev.circTake 0 1 0 f = some ⟨0, 1, 0, none, f, none⟩ ∧ s.dev.hopClamped 0 1 = false ∧
    (∀ t ∈ [0, 1, 16], s.dev.rests (domFab (fieldOf t)) = false) ∧ hasPort 0 1 = true ∧ bitOf (sget (s.dev.rtr 0).circ 0 8) 31 = true ∧
    (s.dev.rtr 0).deadPorts.contains 1 = false ∧ s.dev.circTake 0 1 7 f = some ⟨0, 1, 7, none, f, none⟩ ∧
    bitOf (sget (s.dev.rtr 0).circ 0 15) 31 = false ∧ (1 : Nat) ≠ 4 ∧
    s.dev.circTake 0 4 7 f = some ⟨0, 4, 7, none, f, none⟩ ∧ bitOf (sget (s.dev.rtr 0).circ 0 39) 31 = false ∧
    neighbour 0 1 = some 1 ∧ s.dev.hopShut 0 1 = false := by decide +kernel

/-! Witnesses: the cluster units and Transom. -/

/-- Every unit of a cluster is enabled. -/
def units (d : Dev) : Dev :=
  ((d.setF F.CLU_UNIT_CTRL_RTU_EN 255 1).setF F.CLU_UNIT_CTRL_KVS_EN 255 1).setF F.CLU_UNIT_CTRL_ASU_EN 255 1
/-- A router request for the largest number of scores. -/
def routeBody (op : Nat) : List Byte := leBytes 1 op ++ [0, 254, 24] ++ zeros 12 ++ zeros 4080
/-- A selector request for block 4095 and token 127, of head width 32. -/
def selBody (op n : Nat) : List Byte := leBytes 1 op ++ zeros 15 ++ [0xFF, 0x0F, 127] ++ zeros (n - 19)

theorem witness_UnitRequestsAreAnswered :
    let s := st units
    s.dev.siteOut 255 = false ∧
    (∀ op ∈ [1, 2], s.dev.unitTurn 255 0 (routeBody op) = true ∧
      (s.dev.takeUnit 255 0 (routeBody op)).flag F.CLU_UNIT_CTRL_RTU_EN 255 = true ∧
      (byteAt (routeBody op) 2 + 1) * (byteAt (routeBody op) 3 / 8 % 8 + 1) = 1020 ∧
      lenIs (routeBody op) (16 + 4 * 1020) = true ∧ byteAt (routeBody op) 0 = op) ∧
    s.dev.unitTurn 255 1 (selBody 0x11 96) = true ∧
    (s.onDev fun d => d.takeUnit 255 1 (selBody 0x11 96)).dev.selOk 255 0x11 (selBody 0x11 96) = true ∧
    leAt (selBody 0x11 96) 16 2 = 4095 ∧ byteAt (selBody 0x11 96) 18 = 127 ∧ lenIs (selBody 0x11 96) (32 + 2 * 32) = true ∧
    selD (selBody 0x11 96) = 32 ∧
    (((List.range 32).map fun j => numOf .b16 (leAt (selBody 0x11 96) (32 + 2 * j) 2)).any Num.isNan) = false ∧
    (s.onDev fun d => d.takeUnit 255 1 (selBody 0x12 32)).dev.selOk 255 0x12 (selBody 0x12 32) = true ∧
    lenIs (selBody 0x12 32) 32 = true := by decide +kernel
/-- A SELECT of one head over 4096 blocks, 64 chosen, 8 recent and the first kept. -/
def selectBody : List Byte := [0x10, 0, 0] ++ zeros 13 ++ [0x00, 0x10, 64, 0x88] ++ zeros 76
theorem witness_UnitRequestsAreAnswered_select :
    (st units).dev.siteOut 255 = false ∧
    ((st units).onDev fun d => d.takeUnit 255 1 selectBody).dev.selOk 255 0x10 selectBody = true ∧ byteAt selectBody 1 ≤ 7 ∧
    1 ≤ leAt selectBody 16 2 ∧ leAt selectBody 16 2 = 4096 ∧ byteAt selectBody 18 = 64 ∧ byteAt selectBody 19 % 16 = 8 ∧
    b2n (bitOf (byteAt selectBody 19) 7) + byteAt selectBody 19 % 16 ≤ byteAt selectBody 18 ∧
    lenIs selectBody (32 + 2 * (byteAt selectBody 1 + 1) * selD selectBody) = true := by decide +kernel
theorem witness_SelectionsHoldTheForcedBlocks :
    b2n true + 2 ≤ 3 ∧ 0 < 8 ∧ selChoose 8 3 2 true (fun _ => true) (fun b => (b : Int)) = [0, 6, 7] := by decide +kernel
theorem witness_SamplingAndThresholdCommands :
    let b (op : Nat) (n : Nat) : List Byte := leBytes 1 op ++ [if op = 0x20 then 0xFF else 0, 2] ++ zeros (n - 3)
    let s := st fun d => (units d).setF F.CLU_ASU_CTRL_NSLICE 255 0
    let a (ph : Nat) : AsuStep := { AsuStep.init with active := true, phase := ph, p := 2, masses := if ph = 2 then [(0, 0)] else [] }
    let t (ph : Nat) := st fun d => (units d).modAsu 255 fun _ => a ph
    s.dev.siteOut 255 = false ∧
    (∀ op ∈ [0x20, 0x21], s.dev.asuTurn 255 (b op (if op = 0x20 then 24 else 48)) = true ∧
      s.dev.asuOk 255 op (b op (if op = 0x20 then 24 else 48)) = true) ∧
    (s.dev.clu 255).asu.active = false ∧
    (s.dev.takeUnit 255 2 (b 0x20 24)).asuOk 255 0x20 (b 0x20 24) = true ∧
    ((s.dev.takeUnit 255 2 (b 0x20 24)).clu 255).asu.active = false ∧
    ((s.dev.takeUnit 255 2 (b 0x20 24)).clu 255).asuLast ≤ leAt (b 0x20 24) 4 4 ∧
    (t 1).dev.asuTurn 255 (b 0x23 20) = true ∧ ((t 1).dev.takeUnit 255 2 (b 0x23 20)).asuOk 255 0x23 (b 0x23 20) = true ∧
    (((t 1).dev.takeUnit 255 2 (b 0x23 20)).clu 255).asu = a 1 ∧
    (t 2).dev.asuTurn 255 (b 0x25 20) = true ∧ ((t 2).dev.takeUnit 255 2 (b 0x25 20)).asuOk 255 0x25 (b 0x25 20) = true ∧
    (((t 2).dev.takeUnit 255 2 (b 0x25 20)).clu 255).asu = a 2 ∧ (t 1).dev.siteOut 255 = false ∧
    R.CLU_SEM.key 255 0 ≠ R.CLU_ZSK_CTRL.key 255 0 ∧ R.CLU_SEM.key 255 0 ≠ R.CLU_ZSK_STATUS.key 255 0 := by decide +kernel
theorem witness_SamplingAndThresholdCommands_fall :
    let f (d : Dev) := d.modClu 255 fun y => { y with fallTo := some (3, 1) }
    ((st f).dev.clu 255).fallTo = some (3, 1) ∧ (st f).dev.pwr.throttle = [] ∧
    ((st fun d => { f d with pwr := { d.pwr with throttle := [(15, [(255, 7)])] } }).dev.pwr.throttle.any fun t =>
      t.2.any fun y => y.1 == 255) = true := by decide +kernel
theorem witness_ThresholdStaysBelowItsMaximum :
    let m (v : Nat) (d : Dev) := ((d.setF F.CLU_ZSK_CTRL_THR_MAX 255 63).setF F.CLU_ZSK_STATUS_THR_CUR 255 63).setF
      F.CLU_ZSK_CTRL_MODE 255 v
    let sent (n : Nat) := (st fun d => (m 1 d).modClu 255 fun y => { y with bcast := n, dropSum := 0, allSum := 8 }).dev
    let run (n : Nat) := (st fun d => d.modClu 255 fun y => { y with pinnedRun := n }).dev
    (∀ n ∈ [0, 5], (sent n).flag F.CLU_ZSK_CTRL_MODE 255 = true ∧ ((sent n).clu 255).bcast = n ∧
      (sent n).fld F.CLU_ZSK_STATUS_THR_CUR 255 ≤ (sent n).fld F.CLU_ZSK_CTRL_THR_MAX 255) ∧
    (st (m 0)).dev.flag F.CLU_ZSK_CTRL_MODE 255 = false ∧
    ((sent 5).zskTick 255 true).fld F.CLU_ZSK_STATUS_THR_CUR 255 = ((sent 5).zskTick 255 true).fld F.CLU_ZSK_CTRL_THR_MAX 255 ∧
    ((sent 5).zskTick 255 false).fld F.CLU_ZSK_STATUS_THR_CUR 255 = 62 ∧ (sent 5).siteOut 255 = false ∧
    ((run 50000).clu 255).pinnedRun = 50000 ∧ ((run 49999).clu 255).pinnedRun < 50000 := by decide +kernel
/-- A record for layer 255 that names its expert 0. -/
def trnBody : List Byte := [0x31, 255, 1, 1] ++ zeros 12 ++ [0, 1] ++ zeros 6
/-- Transom enabled, with one expert of layer 255 of a KIND. -/
def trnOn (kind : Nat) (d : Dev) : Dev :=
  (d.setF F.TRN_CTRL_EN 0 1).modTrn fun t => { t with dir := [(255, 16)], exp := [(0, kind * 2 ^ 30 + 5)] }
theorem witness_TransomCommandsTakeEffect :
    let e := (st (trnOn 1)).dev.takeUnit 251 3 trnBody
    let seen := (st fun d => (trnOn 1 d).modTrn fun t => { t with seen := [((255, 0), [0])] }).dev.takeUnit 251 3 trnBody
    let p : TrnPred := ⟨255, 0, [0], [0], false, [], 0⟩
    let held (d : Dev) := (trnOn 1 d).modTrn fun t => { t with preds := [p] }
    let f := (st held).dev.takeUnit 251 3 trnBody
    let late (d : Dev) : Dev := { held d with tim := { d.tim with sub := 400000000000000000000 } }
    let slot (d : Dev) : Dev := (d.setF F.TRN_STATUS_GUEST_N 0 1).modTrn fun t => { t with waits := [(5, 0)] }
    (st (trnOn 1)).dev.unitTurn 251 3 trnBody = true ∧ e.flag F.TRN_CTRL_EN 0 = true ∧ byteAt trnBody 1 = 255 ∧
    leAt trnBody 8 8 = 0 ∧ (e.trnExperts trnBody).2 = [0] ∧
    e.trn.routes.contains (255, 0) = false ∧ e.trnSeen 255 0 = none ∧ (seen.trnSeen 255 0).isSome = true ∧ (seen.trnExperts trnBody).1.trnSeen 255 0 = some [0] ∧
    seen.flag F.TRN_CTRL_EN 0 = true ∧ ((f.trnExperts trnBody).1.trn.preds.find? fun p => predIs 255 0 p && !p.routed) = some p ∧
    bitsOf (sget f.trn.dir 0 255) 0 9 ≠ 0 ∧ (f.trn.preds.find? fun p => predIs 255 0 p && !p.routed) = some p ∧
    ((st late).dev.trn.preds.find? fun p => predIs 255 0 p && p.holds.contains 0) = some p ∧ (st late).dev.holdOver p 0 = true ∧
    (st held).dev.holdOver p 0 = false ∧ p.routed = false ∧ (st slot).dev.trn.waits = [((5 : Fin 16384).val, 0)] ∧
    (st slot).dev.trnSlot = some 0 ∧ (st id).dev.flag F.TRN_CTRL_EN 0 = false := by
  decide +kernel

/-! Witnesses: memory tiers and Sill. -/

/-- HBM block 15 READY with STRM_EN and a buffer of each face, descriptor 0 valid, and its state changed. -/
def strm (f : HbmS → HbmS) (d : Dev) : Dev :=
  ([0, 1].foldl (fun d i => (d.setF F.HBM_STG_CFG_STG_N 15 1 i).setF F.HBM_STG_CFG_BUF 15 8 i)
    ((d.setF F.HBM_CTRL_STRM_EN 15 1).setF F.HBM_STATUS_STATE 15 2)).modHbm 15 fun x => f { x with descs := [(0, 2 ^ 63 + 2 ^ 12)] }
theorem witness_StreamCommandsTakeEffect :
    let q : StreamReq := ⟨0, 0⟩
    let r (a b : Bool) : StreamRun := ⟨q, 1, 0, 0, 2, a, b⟩
    let s := st (strm fun x => { x with asked := [q], queue := [q] })
    let t (a : Bool) := st (strm fun x => { x with runs := [r a false] })
    (s.dev.hbm 15).asked.contains q = true ∧ ((st id).dev.hbm 15).asked.contains q = false ∧ s.dev.rests (domHbm 15) = false ∧
    s.dev.flag F.HBM_CTRL_STRM_EN 15 = true ∧ (s.dev.hbm 15).queue.length < 64 ∧
    (st fun d => (strm (fun x => { x with asked := [q] }) d).setF F.HBM_CTRL_STRM_EN 15 0).dev.flag F.HBM_CTRL_STRM_EN 15 = false ∧
    (s.dev.hbm 15).queue = [q] ∧ s.dev.streamBad 15 q = false ∧ s.dev.soleFace 15 = 2 ∧ s.dev.stgFree 15 0 = some 0 ∧
    s.dev.stgFree 15 1 = some 0 ∧ s.dev.streamBad 15 ⟨1, 0⟩ = true ∧
    (∀ a ∈ [true, false], (((t a).dev.hbm 15).runs.find? fun r => r.buf 1 == 0 && !r.done 1) = some (r a false) ∧
      (r a false).done 0 = a) ∧ (t true).dev.hbmServes 15 = true ∧ (t true).dev.isOut 15 0 = false ∧ (t true).dev.isOut 15 1 = false ∧
    (r true false).sole = 2 := by
  decide +kernel
theorem witness_StreamCommandsTakeEffect_ends :
    let q : StreamReq := ⟨0, 0⟩
    let r : StreamRun := ⟨q, 1, 0, 0, 2, false, false⟩
    let t := strm fun x => { x with runs := [r], taken := [(1, 15, true)] }
    let out (i : Fin 2) (d : Dev) : Dev := { t d with boot := { d.boot with siteBad := [hbmFace 15 i.val] } }
    (st fun d => (t d).setF F.HBM_STATUS_STATE 15 4).dev.hbmServes 15 = false ∧
    (st (out 0)).dev.hbmServes 15 = true ∧ (st (out 0)).dev.isOut 15 0 = true ∧ r.needs 0 = true ∧
    ((st t).dev.hbm 15).taken.contains (1, 15, true) = true ∧ ((st t).dev.hbm 15).taken.contains (1, 0, true) = false ∧
    (st fun d => d.modHbm 15 fun x => { x with queue := [q] }).dev.stgReady 15 = false ∧
    (st (out 1)).dev.siteOut (hbmFace 15 1) = true := by
  decide +kernel
theorem witness_HbmUpkeepCommandsTakeEffect :
    let up (d : Dev) : Dev := ((d.setF F.HBM_CTRL_SCRUB_EN 15 1).setF F.HBM_STATUS_STATE 15 2).setF F.HBM_CTRL_STEP_EN 15 1
    let e := ((st id).dev.setF F.HBM_SPARE_CTRL_LCH 15 30).setF F.HBM_SPARE_CTRL_SHARE 15 7
    let off (v : Nat) (d : Dev) : Dev := ((d.setF F.HBM_CTRL_OFFLINE 15 1).setF F.HBM_STATUS_STATE 15 v).modHbm 15 fun x =>
      { x with retraining := true, move := some 30 }
    let last (d : Dev) := (up d).modHbm 15 fun x => { x with lastStep := some 0 }
    let a := 0x100000000000 + 15 * 0x1000000000 + 1560281087 * 32
    (st up).dev.flag F.HBM_CTRL_SCRUB_EN 15 = true ∧ (st up).dev.hbmServes 15 = true ∧ 1560281087 * 32 < 0xBA0000000 ∧
    max (sget (st up).ecc 0 a) 1 = 1 ∧ max (sget (st up).ecc 0 a) 2 = 2 ∧
    (st up).dev.flag F.HBM_CTRL_STEP_EN 15 = true ∧ ((st up).dev.hbm 15).lastStep = none ∧
    ((st last).dev.hbm 15).lastStep = some 0 ∧ (st last).dev.now < 0 + (st last).dev.stepGap 15 ∧
    e.flag F.HBM_SPARE_CTRL_BUSY 15 = false ∧ e.fld F.HBM_SPARE_CTRL_LCH 15 ≤ 30 ∧
    ((st (off 1)).dev.hbm 15).move = some 30 ∧ ((st id).dev.hbm 15).retraining = false ∧
    ((st (off 1)).dev.hbm 15).retraining = true ∧ (st (off 1)).dev.fld F.HBM_STATUS_STATE 15 = 1 ∧
    (st (off 3)).dev.flag F.HBM_CTRL_OFFLINE 15 = true ∧ (st (off 3)).dev.fld F.HBM_STATUS_STATE 15 ≠ 4 := by decide +kernel
theorem witness_CellarCommandsTakeEffect :
    let up (d : Dev) : Dev := (List.range 12).foldl (fun d c => (d.setF F.CEL_STATUS_STATE c 2).setF F.CEL_STATUS_IN_ILV c 1)
      (((d.setF F.CEL_CTRL_SCRUB_EN 0 1).setF F.CEL_STATUS_N 0 12).setF F.CEL_STATUS_SIZE 0 1)
    let off (d : Dev) : Dev := ((d.setF F.CEL_CTRL_OFFLINE 11 1).setF F.CEL_STATUS_STATE 11 3).modCel 11 fun x => { x with repairs := [7] }
    let re (d : Dev) : Dev := (d.setF F.CEL_STATUS_STATE 11 1).modCel 11 fun x => { x with retraining := true }
    (st up).dev.flag F.CEL_CTRL_SCRUB_EN 0 = true ∧ (st up).dev.celServes 0 = true ∧ 6 ≤ (st up).dev.celN ∧
    0 * 64 < (st up).dev.celN * (st up).dev.celS ∧ (st up).dev.celChan (0 * 64) = 0 ∧
    max (sget (st up).ecc 0 0x200000000000) 1 = 1 ∧ max (sget (st up).ecc 0 0x200000000000) 2 = 2 ∧
    ((st off).dev.cel 11).repairs = [7] ∧ (st off).dev.fld F.CEL_STATUS_STATE 11 ≠ 4 ∧
    (st off).dev.flag F.CEL_CTRL_OFFLINE 11 = true ∧ (st off).dev.fld F.CEL_STATUS_STATE 11 = 3 ∧
    ((st re).dev.cel 11).retraining = true ∧ (st re).dev.fld F.CEL_STATUS_STATE 11 = 1 := by decide +kernel
/-- A Sill request of 4 B at host window 0x800000 (its last 256 B: w). -/
def sreq (ty : BitVec 4) (rsv : BitVec 4) (data : List Byte) : SillReq := ⟨ty, rsv, 1023, 0, 0, 0, 0x7FFF00, data⟩
/-- Module 3 carries Sill, and a read of host memory waits for its answer. -/
def sillOn (d : Dev) : Dev := { d.setF F.UCI_STATUS_IN_SILL 3 1 with hostReads := [⟨1023, 9, 0, 64⟩] }
/-- A good flit without requests on module 3, with a sequence number. -/
def flit (n : Nat) : SillFlit := ⟨3, true, flitHead [0, 0, 0, 0, 0] n :: List.replicate 14 0⟩
theorem witness_SillCommandsTakeEffect_flits :
    let d := (st sillOn).dev
    (st id).dev.flag F.UCI_STATUS_IN_SILL 3 = false ∧ d.flag F.UCI_STATUS_IN_SILL 3 = true ∧
    ({ flit 0 with crcOk := false } : SillFlit).crcOk = false ∧ (flit 0).crcOk = true ∧ d.sill.seq = 0 ∧
    flitSeq ((flit 0).slots.headD 0) = 0 ∧ flitSeq ((flit 32767).slots.headD 0) = (0 + 32767) % 65536 ∧
    (d.sill.ahead.any fun x => x.1 == 32767) = false ∧ flitSeq ((flit 65535).slots.headD 0) = (0 + 65535) % 65536 := by
  decide +kernel
theorem witness_SillCommandsTakeEffect :
    let w : SillReq := ⟨1, 0, 5, 63, 0, 0, 0x800000 - 256, List.replicate 256 7⟩
    let r : SillReq := ⟨2, 0, 5, 63, 0, 0, 0x800000 - 256, []⟩
    let d := (st sillOn).dev
    w.ty = 1 ∧ sillTurn w d.sill.inq = true ∧ sillBad w = false ∧ w.addr.toNat + sillLen w ≤ hostRo ∧
    d.pwr.lost.contains domHost = false ∧ d.sillWaits w.addr.toNat = [] ∧
    r.ty = 2 ∧ sillTurn r d.sill.inq = true ∧ sillBad r = false ∧ d.sillWaits r.addr.toNat = [] ∧
    (∀ ty ∈ [3, 4], sillTurn (sreq ty 0 []) d.sill.inq = true) ∧
    sillBad { sreq 3 0 [1, 2, 3, 4] with ty := 3 } = false ∧ sillBad { sreq 4 0 [] with ty := 4 } = false ∧
    (d.hostReads.find? fun h => h.tag == (sreq 3 0 []).tag.toNat) = some ⟨1023, 9, 0, 64⟩ ∧
    (st fun d => d.setF F.PCH_WAKE_CTRL_SB_EN 0 1).dev.flag F.PCH_WAKE_CTRL_SB_EN 0 = true ∧ d.pstate ≠ 4 ∧
    d.hostPlace 0x14030000 = .reg bUCI 3 0 ∧
    (∀ ty ∈ [1, 2, 3], sillTurn (sreq ty 1 []) d.sill.inq = true ∧ sillBad { sreq ty 1 [] with ty := ty } = true) := by
  decide +kernel

/-! Witnesses: host commands, sessions and device commands. -/

/-- The record of a command with SEQ 9. -/
def cm (started : Bool) (e : List Byte) (buf : List Byte) : CmdS := ⟨9, e, started, false, 0, buf, 0, none, 0⟩
/-- The device with that one accepted command. -/
def cmd (started : Bool) (e : List Byte) (buf : List Byte) (d : Dev) : Dev :=
  { (d.setF F.CMD_CTRL_EN 0 1) with cmds := [cm started e buf] }
/-- A running DECODE of session 0 with the tokens waiting. -/
def dec0 (permit : Bool) (w : List TokRec) : DecodeS :=
  ⟨9, 0, 0, 8, 0, false, 0, none, [], 0, permit, 5, 0, w, none, 0, 0, none, []⟩
/-- Host ring r is enabled. -/
def ringOn (r : Nat) (d : Dev) : Dev := d.setF F.CMD_HRING_CFG_EN 0 1 r
/-- The entry at HEAD is new. -/
def fresh (d : Dev) : Dev := d.putJ d.ringAt [1]

theorem witness_CommandEngineTakesEffect :
    let d := (st fresh).dev
    let e := (st fun d => ringOn 0 ((fresh d).setF F.CMD_CTRL_EN 0 1)).dev
    let late : List Byte := [1, 16] ++ leBytes 1 0 ++ leBytes 1 1 ++ zeros 60
    let h := (st fun d => ringOn 2 (d.setF F.CMD_HRING_TAIL_OFFSET 0 4032 2)).dev
    d.flag F.CMD_STATUS_RESETTING 0 = false ∧ d.headNew = true ∧ d.canAccept = false ∧ d.accWaited = false ∧
    e.canAccept = true ∧ e.headNew = true ∧ e.flag F.CMD_STATUS_RESETTING 0 = false ∧
    ((st (cmd false late [])).dev.cmdOf 9 = some (cm false late []) ∧ ceOp late ≠ 4 ∧ ceDl late = true ∧
      ceDeadline late ≤ (st (cmd false late [])).dev.cmdNt) ∧
    (st (cmd true (entry 0 0 []) [])).dev.running 9 0 = some (cm true (entry 0 0 []) []) ∧
    d.fld F.BSQ_STATUS_STATE 0 ≠ 2 ∧ (d.setF F.BSQ_STATUS_STATE 0 2).fld F.BSQ_STATUS_STATE 0 = 2 ∧ d.flag F.CMD_CTRL_EN 0 ≠ true ∧
    d.rests domHost = false ∧ (d.modDom domHost fun x => { x with level := 1 }).rests domHost = true ∧ e.flag F.CMD_CTRL_EN 0 ≠ false ∧
    d.flag F.CMD_CTRL_PAUSE 0 ≠ true ∧
    (4032 < h.hrSize 2 ∧ (h.setF F.CMD_HRING_HEAD_OFFSET 0 4032 2).hrUsed 2 ≤ h.hrUsed 2 ∧ h.hrSize 2 ≤ 4096) ∧
    h.hrUsed 2 < (h.setF F.CMD_HRING_HEAD_WRAP 0 1 2).hrUsed 2 ∧ 1 % 64 ≠ 0 ∧ d.flag F.CMD_HRING_CFG_EN 0 2 = false ∧
    ((st fun d => { d with jwait := [⟨1, 9, true, false⟩] }).dev.jwait.find? fun w => !w.lagged) = some ⟨1, 9, true, false⟩ := by
  decide +kernel
theorem witness_CommandEngineTakesEffect_start :
    (∀ x ∈ ([(entry 0x10 0 [], 0), (entry 1 15 [], 3), (entry 3 15 [], 2)] : List (List Byte × Nat)),
      let g := (st fun d => ((cmd false x.1 [] d).setF F.CMD_PAIR_STATUS_ROLE 0 x.2).modSess 15 fun y =>
        { y with state := 1, base := 0x100000000000 }).dev
      g.cmdOf 9 = some (cm false x.1 []) ∧ g.mayStart (cm false x.1 []) = true ∧ g.flag F.CMD_CTRL_EN 0 = true ∧
      ceDl x.1 = false ∧ g.role = x.2 ∧ (g.sess 15).state = 1 ∧ g.nwt.window = false ∧
      g.saveSleeps (g.activeSess.toList ++ [ceSess x.1]) = []) ∧
    (isSessOp 0x10 = false ∧ isSessOp 1 = true ∧ isSessOp 3 = true) := by decide +kernel
/-- The parameters of a SESSION_OPEN at the start of HBM site 0, of 4 MiB and 2 steps' room, temperature 1. -/
def openPs : List Nat := [0x100000000000, 0x400040, 0x3F800000 * 2 ^ 32, 0]
/-- An image of 16 B of context a token, whose other contents are empty. -/
def img0 : Image :=
  { guestN := 1, maxPk := 1, hbmRate := 0, celRate := 0, uciRate := 0, draftModel := false, fenceStrict := true, kvBytes := 16, preferred := [],
    caps := [600, 700, 800, 900, 1000, 1100, 1200, 2400], curtLevel := 600, curtDesc := 100, campus := 0, floor := 14, regs := [],
    mems := [], tables := [], autorun := [], evWeights := [], leakTbl := [], leakRet := [], adapter := [], weights := [] }
/-- That image is loaded. -/
def loaded (d : Dev) : Dev :=
  { d with boot := { d.boot with image := some img0, man := some { Manifest.empty with imageId := 7 } } }
theorem witness_SessionCommandsTakeEffect_open_and_close :
    let d := (st fun d => loaded ((cmd true (entry 1 15 openPs) [] d).setF F.HBM_STATUS_STATE 0 2)).dev
    let b := (st (cmd true (entry 1 15 []) [])).dev
    d.running 9 1 = some (cm true (entry 1 15 openPs) []) ∧ d.openOk 15 (entry 1 15 openPs) = true ∧
    d.inHbm 0x100000000000 0x400040 = true ∧ d.cmdWaits 0x100000000000 = [] ∧ b.running 9 1 = some (cm true (entry 1 15 []) []) ∧
    b.openOk 15 (entry 1 15 []) = false ∧
    (st (cmd true (entry 2 15 []) [])).dev.running 9 2 = some (cm true (entry 2 15 []) []) := by decide +kernel
theorem witness_SessionCommandsTakeEffect_steps :
    let pf := entry 3 15 [2 ^ 63 + 4096, 2]
    let dc := entry 4 15 [1]
    let tk : TokRec := ⟨0, [7], false, false, 0, 0, 0, 0, false⟩
    let s := st fun d => ringOn 1 ((d.setF F.CMD_CTRL_EN 0 1).setF F.CMD_PAIR_STATUS_ROLE 0 1)
    let body : List Byte := [0x26, 0, 0, 0] ++ leBytes 4 5 ++ zeros 20
    let u := (st fun d => { d with dec := some (dec0 true []) }).dev
    (st (cmd true pf (zeros 8))).dev.running 9 3 = some (cm true pf (zeros 8)) ∧ awBad (ceP pf 0) = false ∧ 4 * 2 ≤ (zeros 8).length ∧
    awHost (ceP pf 0) = true ∧ bitsOf (ceP pf 1) 0 32 = 2 ∧
    ((st fun d => d.modSess 15 fun y => { y with cap := 2 }).dev.sess 15).pos + 2 ≤
      ((st fun d => d.modSess 15 fun y => { y with cap := 2 }).dev.sess 15).cap ∧
    (st (cmd true dc [])).dev.running 9 4 = some (cm true dc []) ∧ (st (cmd true dc [])).dev.dec = none ∧
    bitsOf (ceP dc 0) 0 32 ≠ 0 ∧ bitsOf (ceP dc 0) 32 3 = 0 ∧
    (s.onDev fun d => { d with dec := some (dec0 false []) }).dev.permitOk (dec0 false []) = true ∧
    (u.unitTurn 245 4 body = true ∧ (u.takeUnit 245 4 body).dec = some (dec0 true []) ∧
      byteAt body 0 = 0x26 ∧ leAt body 4 4 = (dec0 true []).stepNo % 2 ^ 32 ∧ byteAt body 18 = 0) ∧
    s.dev.fenceOpen (dec0 true [tk]) tk = true ∧
    (let d := (st fun d => { (cmd true (entry 5 0 [8]) [] d) with
        cmds := [⟨8, entry 3 0 [], false, false, 0, [], 0, none, 0⟩, cm true (entry 5 0 [8]) []] }).dev
     d.running 9 5 = some (cm true (entry 5 0 [8]) []) ∧
       d.cmdOf (ceP (entry 5 0 [8]) 0) = some ⟨8, entry 3 0 [], false, false, 0, [], 0, none, 0⟩) := by decide +kernel
theorem witness_SessionCommandsTakeEffect_copy :
    let cp := entry 0x10 0 [2 ^ 63 + 4096, 0x100000000000, 8]
    let s := st fun d => (cmd true cp (zeros 8) d).setF F.HBM_STATUS_STATE 0 2
    s.dev.running 9 0x10 = some (cm true cp (zeros 8)) ∧ awBad (2 ^ 63 + 4096) = false ∧ awBad 0x100000000000 = false ∧
    bitsOf (ceP cp 2) 0 40 = 8 ∧ min (8 - 0) (4096 - (awAddr 0x100000000000 + 0) % 4096) = 8 ∧ awHost (ceP cp 0) = true ∧
    s.dev.awSleeps 0x100000000000 = [] ∧ s.dev.captureWaits (awAddr 0x100000000000 + 0) 8 = false ∧
    (s.putAw 0x100000000000 0 (zeros 8)).2 = 0 := by decide +kernel
/-- A command runs on session 15, whose allocation begins at HBM site 0, and the image is loaded. -/
def atHbm (e : List Byte) (buf : List Byte) (d : Dev) : Dev :=
  loaded (((cmd true e buf d).setF F.HBM_STATUS_STATE 0 2).modSess 15 fun y => { y with base := 0x100000000000 })
/-- A SNAPSHOT to host memory at 4096. -/
def snapE : List Byte := entry 6 15 [2 ^ 63 + 4096, 0xFFFFFFFFFF]
theorem witness_SessionCommandsTakeEffect_snapshot :
    let d := (st (atHbm snapE [])).dev
    d.running 9 6 = some (cm true snapE []) ∧ (d.sess 15).pos = 0 ∧ awBad (ceP snapE 0) = false ∧ awHost (ceP snapE 0) = true ∧
    d.snapLen 0 ≤ bitsOf (ceP snapE 1) 0 40 ∧ d.saveSleeps [15] = [] := by decide +kernel
theorem witness_SessionCommandsTakeEffect_snapshot_read :
    let s := st (atHbm snapE [])
    (s.saveActive.devRead (s.dev.sess 15).base (s.dev.snapLen 0 - 64)).2.2 = 0 := by
  intro s
  have a : s.saveActive = s := by
    unfold State.saveActive
    rw [show s.dev.activeSess = none by decide +kernel]
  have b : (s.dev.sess 15).base = 0x100000000000 := by decide +kernel
  have n : s.dev.snapLen 0 - 64 = 0x400000 := by decide +kernel
  rw [a, b, n]
  refine State.devRead_unmarked rfl (Nat.le_refl _) (by omega) fun x hx hy => ?_
  have hs : s.dev.hbmServes 0 = true := by decide +kernel
  have := Dev.place_hbm (f := s.dev.edgeSite) (h := 0) (o := x - 0x100000000000) (by omega) (by omega) hs
  rwa [show 0x100000000000 + 0 * 0x1000000000 + (x - 0x100000000000) = x by omega] at this
/-- A RESTORE from host memory at 4096. -/
def restE : List Byte := entry 7 15 [2 ^ 63 + 4096, 0xFFFFFFFFFF]
/-- The header of a snapshot of 4 MiB of zeros, before its digest. -/
def snapHead : List Byte := leBytes 4 0x534E4150 ++ [1, 0, 0, 0] ++ leBytes 8 0x400040 ++ leBytes 8 7 ++ leBytes 8 0
/-- That snapshot. -/
def snap : List Byte := snapHead ++ (sha3 (zeros 0x400000) ++ zeros 0x400000)
theorem witness_SessionCommandsTakeEffect_restore :
    let d := (st (atHbm restE [])).dev
    d.running 9 7 = some (cm true restE []) ∧ awBad (ceP restE 0) = false ∧ awHost (ceP restE 0) = true ∧
    64 ≤ 0x400040 ∧ 0x400040 ≤ bitsOf (ceP restE 1) 0 40 ∧ d.snapLen 0 = 0x400040 ∧ d.man.imageId = 7 ∧
    0 ≤ (d.sess 15).cap ∧ d.captureWaits (d.sess 15).base 0x400040 = false ∧ d.saveSleeps [15] = [] := by decide +kernel
theorem witness_SessionCommandsTakeEffect_restore_running :
    (st (atHbm restE snap)).dev.running 9 7 = some (cm true restE snap) := rfl
theorem witness_SessionCommandsTakeEffect_restore_snapshot :
    snap.length = 0x400040 ∧ leAt snap 0 4 = 0x534E4150 ∧ leAt snap 4 2 = 1 ∧ leAt snap 8 8 = 0x400040 ∧ leAt snap 16 8 = 7 ∧
    leAt snap 24 8 = 0 ∧ leAt (snap.take 64) 0 4 = 0x534E4150 ∧ leAt (snap.take 64) 8 8 = 0x400040 ∧
    snap.drop 64 = zeros 0x400000 ∧ (snap.take 64).drop 32 = sha3 (zeros 0x400000) := by
  have hl : snapHead.length = 32 := rfl
  have hs := sha3_length (zeros 0x400000)
  have hz : (zeros 0x400000).length = 0x400000 := List.length_replicate
  have e : snap = (snapHead ++ sha3 (zeros 0x400000)) ++ zeros 0x400000 := (List.append_assoc _ _ _).symm
  have h64 : (snapHead ++ sha3 (zeros 0x400000)).length = 64 := by rw [List.length_append, hl, hs]
  have t : snap.take 64 = snapHead ++ sha3 (zeros 0x400000) := by rw [e, List.take_left' h64]
  have at_ {a n : Nat} (h : a + n ≤ 32) : leAt snap a n = leAt snapHead a n := leAt_append (hl ▸ h)
  refine ⟨by rw [e, List.length_append, h64, hz], at_ (by decide), at_ (by decide), at_ (by decide), at_ (by decide),
    at_ (by decide), ?_, ?_, by rw [e, List.drop_left' h64], by rw [t, List.drop_left' hl]⟩
  · rw [t, leAt_append (by rw [hl]; decide)]; rfl
  · rw [t, leAt_append (by rw [hl]; decide)]; rfl
/-- The bytes that are not zero, from an address on. -/
def cellsAt : Nat → List Byte → List Host.Cell
  | _, [] => []
  | a, x :: r => if x = 0 then cellsAt (a + 1) r else (a, x) :: cellsAt (a + 1) r
/-- The types and variants of the sections of an image, one of each. -/
def manTable : List (Nat × Nat) :=
  ((List.range 9).map fun t => (t + 1, 255)) ++
    ((List.range 16).filter fun f => f ≠ 13 ∧ f ≠ 14).flatMap fun f => [3, 4, 7, 8, 10, 5, 6].map fun t => (t, f)
/-- The entry of a section in copy B: it is empty, and that of type 4 has the digest of nothing. -/
def entryCells (k : Nat) (x : Nat × Nat) : List Host.Cell :=
  let a := 0x8001000 + 64 * k
  cellsAt a [BitVec.ofNat 8 x.1] ++ cellsAt (a + 2) [BitVec.ofNat 8 x.2] ++ [(a + 13, 239)] ++
    (if x = (4, 255) then cellsAt (a + 16) (leBytes 32 0x4a43f8804b0ad882fa493be44dff80f562d661a05647c15166d71ebff8c6ffa7) else [])
/-- The entries of a section table. -/
def tableCells : Nat → List (Nat × Nat) → List Host.Cell
  | _, [] => []
  | k, x :: r => entryCells k x ++ tableCells (k + 1) r
/-- A flash whose copy B holds the manifest of an image of 107 empty sections. -/
def manFlash : List Host.Cell :=
  cellsAt 0x8000000 (leBytes 4 0x4E4D4C46 ++ [1, 0, 107, 0, 7]) ++ tableCells 0 manTable
/-- That manifest. -/
def manB : Manifest := manifestOf manFlash 1
/-- A REGION_RELOAD of KIND 4 from copy B. -/
def rrB : List Byte := entry 0x20 0 [0x401]
/-- A state with that flash whose fuses trust its root key and whose image has that manifest. -/
def rrSt : State :=
  { (st fun d => let g := loaded (cmd true rrB [] d)
      { g with boot := { g.boot with man := some manB, fuse := { g.boot.fuse with rootHash := manB.rootDigest } } }) with flash := manFlash }
theorem witness_DeviceCommandsComplete_manifest : manB.legal = true ∧ manB.svn = 0 ∧ manB.tableOk = true ∧ manB.role = 0 := by
  decide +kernel
theorem witness_DeviceCommandsComplete_checks : rrSt.dev.manFail manB img0 ⟨true, true, true⟩ = 0 := by
  obtain ⟨hl, hs, ht, hr⟩ := witness_DeviceCommandsComplete_manifest
  have hc : rrSt.dev.boot.fuse.count = 0 := by decide +kernel
  have hi : imgOk img0 = true := by decide
  simp [Dev.manFail, Manifest.verify, show rrSt.dev.boot.fuse.rootHash = manB.rootDigest from rfl, hl, hs, ht, hr, hc, hi]
theorem witness_DeviceCommandsComplete_sections :
    (manB.inside 4 (rrRange rrB) ++ manB.sects.filter fun x => x.variant != 255 && !manB.sects.contains x).all (sectGood manFlash 1) =
      true := by
  have a : manB.inside 4 (rrRange rrB) =
      [⟨4, 255, 0, 0, 0xEF00, 0x4a43f8804b0ad882fa493be44dff80f562d661a05647c15166d71ebff8c6ffa7⟩] := by decide +kernel
  have b : sectGood manFlash 1 ⟨4, 255, 0, 0, 0xEF00, 0x4a43f8804b0ad882fa493be44dff80f562d661a05647c15166d71ebff8c6ffa7⟩ = true := by
    decide +kernel
  have c : (manB.sects.filter fun x => x.variant != 255 && !manB.sects.contains x) = [] := by
    rw [List.filter_eq_nil_iff]; intro x hx; simp [hx]
  rw [a, c]; simp [b]
theorem witness_DeviceCommandsComplete_reload :
    rrSt.dev.running 9 0x20 = some (cm true rrB []) ∧ rrSt.reloadBad rrB img0 ⟨true, true, true⟩ = none := by
  refine ⟨by decide +kernel, ?_⟩
  have hc : rrSt.dev.fld F.BSQ_STATUS_COPY 0 = 0 := by decide +kernel
  have hm : rrSt.dev.man = manB := rfl
  have hs := witness_DeviceCommandsComplete_sections
  unfold State.reloadBad
  simp only [show rrKind rrB = 4 by decide, show rrCopy rrB = 1 by decide, hc, show rrSt.flash = manFlash from rfl,
    show manifestOf manFlash 1 = manB from rfl, hm, witness_DeviceCommandsComplete_checks, hs]
  simp [Dev.reloadFree]
theorem witness_DeviceCommandsComplete :
    let rr := entry 0x20 0 [0x401]
    let g := (st fun d => loaded (cmd true rr [] d)).dev
    let pp := entry 0x22 0 [0x24000000, 0]
    let ts := entry 0x21 0 [1, 1]
    let rr' := entry 0x20 0 []
    let d := (st fun d => cmd true ts [] (d.modNwt fun x => { x with map := [(0, 1)] })).dev
    (st (cmd true rr' [])).reloadBad rr' img0 ⟨true, true, true⟩ = some 3 ∧
    (st (cmd true rr' [])).dev.running 9 0x20 = some (cm true rr' []) ∧
    g.running 9 0x20 = some (cm true rr []) ∧ rrKind rr = 4 ∧
    d.running 9 0x21 = some (cm true ts []) ∧ bitsOf (ceP ts 1) 0 16 ≠ 0 ∧ bitOf (ceP ts 0) 33 = false ∧
    d.testTarget (ceP ts 0) = true ∧
    (st (cmd true (entry 0x21 0 [1, 0]) [])).dev.running 9 0x21 = some (cm true (entry 0x21 0 [1, 0]) []) ∧
    (bitsOf (ceP (entry 0x21 0 [1, 0]) 1) 0 16 = 0 ∨ d.testTarget (ceP (entry 0x21 0 [1, 0]) 0) = false) ∧
    (bitsOf (ceP (entry 0x21 0 [0xEF01, 1]) 1) 0 16 = 0 ∨ d.testTarget (ceP (entry 0x21 0 [0xEF01, 1]) 0) = false) ∧
    bitOf (ceP (entry 0x21 0 [2 ^ 33 + 1, 1]) 0) 33 = true ∧ d.testTarget (ceP (entry 0x21 0 [2 ^ 33 + 1, 1]) 0) = true ∧
    d.nwt.window = false ∧
    (st (cmd true pp [])).dev.running 9 0x22 = some (cm true pp []) ∧ bitOf (ceP pp 0) 32 = false ∧ bitOf (ceP pp 0) 6 = false ∧
    bitsOf (ceP pp 0) 8 2 ≠ 3 ∧ bitsOf (ceP pp 0) 24 6 = 36 ∧ bitsOf (ceP pp 1) 0 17 = 0 := by decide +kernel

/-! Witnesses: links and the pair. -/

/-- Every link is UP. -/
def linksUp (d : Dev) : Dev := (List.range 48).foldl (fun d l => d.setF F.LNK_STATUS_STATE l 2) d
/-- Every link UP, with link 47 changed. -/
def lnk47 (f : LnkS → LnkS) (g : Dev → Dev := id) : Dev := (st fun d => g ((linksUp d).modLnk 47 f)).dev
theorem witness_LinkCommandsTakeEffect_blocks :
    let b : LinkBlk := ⟨[], blockMsg 0 [.data 5]⟩
    let bad : LinkBlk := ⟨[0, 1, 2, 3, 4, 5, 6, 7, 8, 9, 10, 11, 12, 13, 14, 543], 0⟩
    (lnk47 id).linkIsUp 47 = true ∧ 15 < bad.errs.eraseDups.length ∧ ((lnk47 id).lnk 47).nakDue = false ∧
    ((lnk47 fun x => { x with nakDue := true }).lnk 47).nakDue = true ∧ b.errs = [] ∧ (blockCells b.msg).all quietCell = false ∧
    blockBsn b.msg ≠ ((lnk47 fun x => { x with expBsn := 9 }).lnk 47).expBsn ∧
    (blockCells (blockMsg 0 [.reserved])).contains .reserved = true ∧ (blockCells (blockMsg 0 [.reserved])).all quietCell = false ∧
    blockCells b.msg = [.data 5, .idle, .idle, .idle, .idle] ∧ blockBsn b.msg = ((lnk47 id).lnk 47).expBsn ∧
    blockCells (blockMsg 0 []) = [.idle, .idle, .idle, .idle, .idle] := by decide +kernel
theorem witness_LinkBlocksRoundTrip :
    let cells : List LinkCell := [.idle, .reserved, .data (BitVec.allOnes 1024), .ctrl [.none, .sleep, .reserved, .mack 5], .data 1]
    (1023 < 1024) ∧ cells.length = 5 ∧ (cells.all fun c => match c with | .ctrl is => is.length == 4 | _ => true) = true ∧
    blockBsn (blockMsg 1023 cells) = 1023 ∧ blockCells (blockMsg 1023 cells) = cells := by decide +kernel
theorem witness_LinkCommandsTakeEffect :
    let sp := lnk47 id fun d => (d.setF F.LNK_STATUS_SPARE_OK 47 1).setF F.LNK_LANE_SPARE 47 7
    let rp := lnk47 fun x => { x with replay := [(1023, [.idle])] }
    let r := lnk47 (fun x => { x with retraining := true }) fun d => d.setF F.LNK_STATUS_STATE 47 1
    let z := (st fun d => d.setF F.LNK_STATUS_STATE 47 3).dev
    (lnk47 id).linkIsUp 47 = true ∧ (rp.lnk 47).replay = [(1023, [.idle])] ∧ (0 : BitVec 10).toNat = (1023 + 1) % 1024 ∧
    ((lnk47 id).lnk 47).sleepSent = false ∧ ((lnk47 id).lnk 47).resume = false ∧
    ((lnk47 fun y => { y with nakDue := true }).lnk 47).nakDue = true ∧ ((lnk47 fun y => { y with accepted := 1 }).lnk 47).accepted ≠ 0 ∧
    (rp.lnk 47).replay ≠ [] ∧ r.fld F.LNK_STATUS_STATE 47 = 1 ∧ (r.lnk 47).retraining = true ∧
    8 ≤ (goodTx (0x1FFFF : BitVec 18).toNat).length ∧ 8 ≤ (r.goodRx 47 (0x1FFFF : BitVec 18).toNat).length ∧
    (r.lnk 47).halfDue = false ∧ [0, 1, 2, 3].length ≤ 9 ∧ (sp.lnk 47).asked = none ∧
    sp.linkIsUp 47 = true ∧ sp.flag F.LNK_STATUS_SPARE_OK 47 = true ∧ ((lnk47 id).lnk 47).expBsn ≠ (1023 : BitVec 10).toNat ∧
    (7 : BitVec 4).toNat = sp.fld F.LNK_LANE_SPARE 47 ∧
    ((lnk47 fun y => { y with laneTrain := some 8 }).lnk 47).laneTrain = some 8 ∧ (lnk47 id).quadHeld (47 / 4) = false ∧
    47 ∈ quadLinks 11 ∧ z.fld F.LNK_STATUS_STATE 47 = 3 ∧ (z.lnk 44).ignoreUntil ≤ z.now ∧
    ((lnk47 id).modDom (domQuad 44) fun y => { y with level := 2 }).linkIsUp 47 = true ∧
    (((lnk47 id).modDom (domQuad 44) fun y => { y with level := 2 }).dom (domQuad 44)).level ≠ 0 ∧
    (((z.modLnk 47 fun y => { y with txq := [[.idle]] })).lnk 47).txq ≠ [] ∧
    (let w := z.modLnk 44 fun y => { y with wakeAt := some 0, spurious := 6 }
     (w.lnk 44).wakeAt = some 0 ∧ (w.lnk 44).sawData = false ∧ (w.lnk 44).spurious < 7) := by decide +kernel
theorem witness_LinkCommandsTakeEffect_span :
    let d := lnk47 id fun d => ((((d.setF F.LNK_CTRL_ROLE 47 2).setF F.LNK_CTRL_FWD_EN 47 1).setF F.CMD_PAIR_STATUS_ROLE 0 1).setF
      F.LNK_STATUS_FAR_ROLE 47 2).modPair fun y => { y with lastBeat := [(47, 1)] }
    let e := (d.depart (lnkFace 47) 15 (pkt 4 0 0 0)).ejected (lnkFace 47) (pkt 4 0 0 0)
    (pkt 4 0 0 0).ty.toNat = 4 ∧ e.fld F.LNK_CTRL_ROLE 47 = 2 ∧ e.flag F.LNK_CTRL_FWD_EN 47 = true ∧ e.spanOpen 47 = true := by
  decide +kernel
theorem witness_PairCommandsTakeEffect :
    let role (n : Nat) (f : PairS → PairS) (d : Dev) : Dev := ((d.setF F.CMD_PAIR_STATUS_ROLE 0 n).setF F.LNK_CTRL_ROLE 47 1).modPair f
    let r (n : Nat) (f : PairS → PairS) := (st (role n f)).dev
    let far := (List.range 48).foldl (fun d l => d.setF F.LNK_STATUS_FAR_ROLE l 7) (r 1 id)
    (st linksUp).dev.linkIsUp 47 = true ∧ (st linksUp).dev.fld F.LNK_CTRL_ROLE 47 ≠ 1 ∧
    sget (st linksUp).dev.pair.lastBeat 0 47 = 0 ∧ (st linksUp).dev.term ≤ (0xFFFFFFFF : BitVec 32).toNat ∧
    (r 1 id).silent = false ∧ (∀ n ∈ [1, 2, 3], (r n id).role = n ∧ (r n id).pair.wireAt = none) ∧ far.role = 1 ∧
    (∀ k < 48, far.fld F.LNK_STATUS_FAR_ROLE k = 7) ∧ far.pair.linkAt = none ∧ far.pair.wireAt = none ∧
    ((r 0 id).setF F.CMD_PAIR_CTRL_IMAGE_ROLE 0 1).imageRole = 1 ∧ (r 0 id).pair.waitDone = false ∧ (r 0 id).role = 0 ∧
    (r 0 id).failsafed = false ∧
    (r 2 id).mirrorLinks = [] ∧ (r 2 id).fld F.LNK_CTRL_ROLE 47 = 1 ∧
    ((r 2 fun p => { p with nextMseq := 2 }).getR R.CMD_PAIR_MSEQ 0).toNat <
      min (0xFFFFFFFFFFFFFFFF : BitVec 64).toNat (r 2 fun p => { p with nextMseq := 2 }).lastMseq ∧
    (r 3 fun p => { p with started := true }).pair.started = true ∧
    (1 : BitVec 64).toNat = ((r 3 fun p => { p with started := true }).getR R.CMD_PAIR_MSEQ 0).toNat + 1 ∧
    (r 3 fun p => { p with started := true }).pair.pending = [] ∧
    (r 3 fun p => { p with gapAt := some 0 }).pair.gapAt = some 0 ∧ ((r 1 id).setF F.CMD_PAIR_CTRL_IMAGE_ROLE 0 2).imageRole ≠ 0 ∧
    (r 3 fun p => { p with reqAt := some 0 }).pair.reqAt = some 0 ∧ (r 4 id).role = 4 ∧ (r 5 id).role = 5 ∧ (r 4 id).failsafed = false ∧
    (r 4 id).fld F.BSQ_STATUS_STATE 0 ≠ 4 ∧ (r 4 id).pstate = 0 := by decide +kernel

/-! Witnesses: power, sleep, time and start. -/

theorem witness_PowerDeliveryCommandsTakeEffect :
    let d := (st id).dev
    let good := (st fun d => (d.setF F.PWR_RAIL_STATUS_FIELD_PG 0 0xFFFF).setF F.BSQ_STATUS_STATE 0 2).dev
    let up := (st fun d => d.setDom 255 fun y => { y with level := 4 }).dev
    let tight := (st fun d => (d.setDom 255 fun y => { y with level := 3 }).modPwr fun p => { p with amps := [(15, 0xFFFFFFFF)] }).dev
    let thr := (st fun d => d.modPwr fun p => { p with throttle := [(15, [(255, 9)])] }).dev
    let ldo := (st fun d => d.setF F.FLD_FABLDO_STATE1 15 1).dev
    d.fieldLost 15 = false ∧ fieldOf 255 = 15 ∧ siteOf 15 (4 * 3 + 3) = 255 ∧ d.fld F.FLD_RAIL_STATUS_PHASES 15 ≤ (20 : BitVec 5).toNat ∧
    17 < (18 : BitVec 5).toNat ∧ (17 : BitVec 5).toNat ≤ 17 ∧ good.pstate ≠ 3 ∧
    bitOf (good.fld F.PWR_RAIL_STATUS_FIELD_PG 0) 15 = true ∧ (d.setF F.FLD_LDO_STATE 15 2 15).fld F.FLD_LDO_STATE 15 (localIx 255) = 2 ∧
    ldo.fld F.FLD_FABLDO_STATE0 15 ≠ 3 ∧ ldo.fld F.FLD_FABLDO_STATE1 15 = 1 ∧ good.fld F.BSQ_STATUS_STATE 0 ≠ 0 ∧
    good.starting = false ∧ up.siteOut 255 = false ∧ (up.dom 255).level = 4 ∧ (up.dom 255).exiting = false ∧
    (up.dom 255).entering = none ∧ up.pwr.upWait = [] ∧ up.upHeld 255 = false ∧ up.inrushFits 15 0 = true ∧
    (tight.dom 255).level = 3 ∧ tight.upHeld 255 = false ∧ tight.inrushFits 15 0 = false ∧ tight.hasDeadline 255 = false ∧
    (thr.pwr.throttle.find? fun x => x.1 == 15) = some (15, [(255, 9)]) := by decide +kernel
theorem witness_PowerControlCommandsTakeEffect :
    let p (f : PwrS → PwrS) := (st fun d => (d.setF F.PWR_CURTAIL_ACTIVE 0 1).modPwr f).dev
    let g := (p fun x => { x with fieldHist := [(15, [1000, 1000])] }).pwr
    (p id).tickDue = true ∧ (p id).boot.policy = none ∧ (p fun x => { x with tickNt := 1 }).tickDue = false ∧ (p id).slotDue = true ∧
    (p fun x => { x with slotNt := 1 }).slotDue = false ∧ siteOf 15 15 = 255 ∧ (7 : Fin 8).val ≠ (st id).dev.fld F.PWR_CAP_SEL 0 ∧ (p id).pstate ≠ 4 ∧
    (st id).dev.flag F.PWR_CURTAIL_ACTIVE 0 = false ∧ (p id).flag F.PWR_CURTAIL_ACTIVE 0 = true ∧
    (p id).now < (p id).pwr.curtAt + 100000 ∧ 500 ≤ (p fun x => { x with shortRun := 500 }).pwr.shortRun ∧
    50000 ≤ sget (p fun x => { x with conflict := [(7, 50000)] }).pwr.conflict 0 7 ∧ (p id).siteOut 255 = false ∧ (p id).quiet 255 = true ∧
    (p fun x => { x with rampIn := [(15, 3)] }).pwr.rampWait = [] ∧
    sget (p fun x => { x with rampIn := [(15, 3)] }).pwr.rampIn 0 (fieldOf 255) < 4 ∧
    4 ≤ sget (p fun x => { x with rampIn := [(15, 4)] }).pwr.rampIn 0 (fieldOf 255) ∧ (p id).fieldLost 15 = false ∧
    (sget g.fieldHist [] 15).sum / max 1 (sget g.fieldHist [] 15).length = 1000 ∧
    (1252 : BitVec 20).toNat * (700 + 5 * (p id).fld F.FLD_RAIL_STATUS_VSET 15) / 1000 = 1001 ∧
    min (1250000 : Int) (max 750000 ((sget g.gain 1000000 15 : Nat) +
      (sget g.gain 1000000 15 : Nat) * ((1001 : Int) - 1000) / (4 * 1000))) = 1000250 := by decide +kernel
theorem witness_SleepCommandsTakeEffect :
    let dm (n : Nat) (f : DomS → DomS) := (st fun d => d.setDom n f).dev
    let dev := (st fun d => (d.setF F.PCH_WAKE_CTRL_PIN_EN 0 1).setF F.PCH_WAKE_CTRL_ALARM_EN 0 1).dev
    let off := (st fun d => d.setF F.PCH_PSTATE_STATUS_STATE 0 4).dev
    let wk := (st fun d => d.modPch fun p => { p with waking := true }).dev
    let x := dm 288 id
    x.mayEnter 288 2 = true ∧ x.domOut 288 = false ∧ (x.dom 288).entering = none ∧ (x.dom 288).exiting = false ∧
    (x.dom 288).level < 2 ∧ x.canEnter 288 2 = true ∧
    (let w := wk.setDom 311 fun y => { y with entering := some 3 }
     (w.dom 311).entering = some 3 ∧ 272 ≤ 311 ∧ (w.dom 311).demand = false ∧ w.pch.waking = true) ∧
    ((dm 287 fun y => { y with exiting := true }).dom 287).exiting = true ∧
    ((dm 255 fun y => { y with exiting := true }).dom 255).exiting = true ∧ (dm 255 id).pch.waking = false ∧
    (dm 307 fun y => { y with level := 1 }).pstate ≠ 4 ∧ (dm 307 fun y => { y with level := 1 }).domOut 307 = false ∧
    ((dm 307 fun y => { y with level := 1 }).dom 307).entering = none ∧ ((dm 307 fun y => { y with level := 1 }).dom 307).level ≠ 0 ∧
    5 ≤ (5 : BitVec 3).toNat ∧ dev.pstate = 0 ∧ dev.flag F.PCH_PSTATE_STATUS_CHANGING 0 = false ∧ dev.pch.waking = false ∧
    dev.fld F.CMD_STATUS_INFLIGHT 0 = 0 ∧ dev.flag F.PCH_WAKE_CTRL_PIN_EN 0 = true ∧ off.pstate = 4 ∧
    dev.flag F.PCH_WAKE_CTRL_ALARM_EN 0 = true ∧ dev.fld F.PCH_WAKE_AT_NT 0 ≤ dev.ntAt bPCH 0 ∧
    dev.pch.alarmAt ≠ some (dev.fld F.PCH_WAKE_AT_NT 0) ∧ wk.pch.waking = true ∧ wk.flag F.PWR_CURTAIL_ACTIVE 0 = false ∧
    dev.pch.pinIgnored = false := by decide +kernel
theorem witness_TimeCommandsTakeEffect :
    let d := (st fun d => d.setF F.FLD_CLK_PLL1 15 1).dev
    let pll := ((st id).dev.setF F.FLD_CLK_PLL0 15 2).setF F.FLD_CLK_PLL1 15 1
    let an : PtpAnnounce := ⟨0, 5, 128, 6, 0x21, 0, 128, 5, 0, 0, false, true⟩
    let on (f : TimS → TimS) := (st fun d => (d.setF F.TIM_CTRL_EN 0 1).modTim f).dev
    let ms (f : TimS → TimS) := on fun t => f { t with master := some an }
    let m (two : Bool) : PtpMsg := ⟨0, 5, 9, two, 100, 120, 0, -7, false, true⟩
    let pps := (st fun d => (d.setF F.TIM_STATUS_PPS_VALID 0 1).modTim fun t => { t with ppsAt := some 0, sub := 1001000001 * 40000000000 }).dev
    (5 : Nat) ≠ 0 ∧ d.fieldLost 15 = false ∧ pll.fld F.FLD_CLK_PLL0 15 = 2 ∧ pll.fld F.FLD_CLK_PLL1 15 = 1 ∧
    d.flag F.TIM_STATUS_REF 0 = false ∧ (d.setF F.TIM_STATUS_REF 0 1).flag F.TIM_STATUS_REF 0 = true ∧
    d.flag F.FLD_CLK_TB_LOST 15 = false ∧ d.siteOut 255 = false ∧ d.coreAbsent (coreU cZ) = false ∧ d.coreState (coreU cZ) ≠ 4 ∧
    (ms id).ptpOn = true ∧ (m true).domain.toNat = (ms id).fld F.TIM_CTRL_DOMAIN 0 ∧ (m true).supported = true ∧
    (m true).udp = (ms id).flag F.TIM_CTRL_TRANSPORT 0 ∧ an.udp = (on id).flag F.TIM_CTRL_TRANSPORT 0 ∧
    { m true with udp := true }.udp ≠ (ms id).flag F.TIM_CTRL_TRANSPORT 0 ∧ (m false).twoStep = false ∧ (ms id).fromMaster 5 = true ∧
    ((ms fun t => { t with path2 := some 0 }).setF F.TIM_STATUS_STATE 0 2).timSt = 2 ∧
    (ms fun t => { t with path2 := some 0 }).tim.path2 = some 0 ∧ (ms fun t => { t with sync := some (m true) }).tim.sync = some (m true) ∧
    (ms fun t => { t with reqT3 := some 1, reqSeq := 9 }).tim.reqT3 = some 1 ∧
    (m true).seq.toNat = (ms fun t => { t with reqT3 := some 1, reqSeq := 9 }).tim.reqSeq ∧
    (on fun t => { t with foreign := [(an, 1)] }).tim.foreign = [(an, 1)] ∧ (on id).tim.master = none ∧ (ms id).tim.master ≠ none ∧
    (ms id).timSrc = 0 ∧
    (let x := ms fun t => { t with sub := 4000000000 * 40000000000 }
     x.tim.syncAt + 4 * logNs x.tim.logSync ≤ x.now ∧ x.tim.annAt + x.annTmo * logNs x.tim.annLog ≤ x.now ∧
     (let y := x.modTim fun t => { t with annAt := 4000000000 }
      y.tim.syncAt + 4 * logNs y.tim.logSync ≤ y.now ∧ y.now < y.tim.annAt + y.annTmo * logNs y.tim.annLog)) ∧ ((ms id).setF F.TIM_STATUS_STATE 0 2).timSt = 2 ∧ (ms id).tim.foreign = [] ∧
    (((ms id).setF F.TIM_STATUS_STATE 0 2).setF F.TIM_STATUS_EVER_LOCKED 0 1).flag F.TIM_STATUS_EVER_LOCKED 0 = true ∧
    pps.tim.ppsAt = some 0 ∧ pps.flag F.TIM_STATUS_PPS_VALID 0 = true ∧ 0 + 1001000000 < pps.now ∧ d.tim.ppsAt = none ∧
    d.flag F.TIM_STATUS_PPS_VALID 0 = false ∧
    ((on id).setF F.TIM_CTRL_SRC 0 1).ppsDrives = true ∧ (d.setF F.TIM_CTRL_PPS_OUT_MODE 0 2).fld F.TIM_CTRL_PPS_OUT_MODE 0 = 2 ∧
    d.tim.ppsOut = none := by decide +kernel
theorem witness_StartCommandsTakeEffect :
    let d := (st id).dev
    let rdy := (st fun d => { (d.setF F.BSQ_STATUS_STATE 0 2) with boot := { d.boot with warmReq := true } }).dev
    let re := (st fun d => { ((d.setF F.BSQ_STATUS_STATE 0 2).setF F.BSQ_CTRL_AUTO_VARIANT 0 1) with
      boot := { d.boot with restart := some 15 } }).dev
    let low := (st fun d => d.modPch fun p => { p with resetLow := true }).dev
    let por := (st fun d => d.modPch fun p => { p with rails := false }).dev
    d.canStart = true ∧ rdy.pstate ≠ 4 ∧ rdy.fld F.BSQ_STATUS_STATE 0 = 2 ∧ rdy.boot.restart = none ∧ rdy.boot.warmReq = true ∧
    re.boot.restart = some 15 ∧ re.flag F.BSQ_CTRL_AUTO_VARIANT 0 = true ∧ re.fld F.BSQ_STATUS_STATE 0 = 2 ∧ low.pstate ≠ 4 ∧
    low.pch.resetLow = true ∧ low.pch.rails = true ∧ por.pch.rails = false ∧ por.pch.resetLow = false ∧
    por.fld F.BSQ_STATUS_STATE 0 ≠ 0 ∧ por.pstate ≠ 4 ∧ (por.setF F.BSQ_STATUS_STATE 0 0).fld F.BSQ_STATUS_STATE 0 = 0 ∧
    (por.modPch fun p => { p with resetLow := true }).pch.resetLow = true := by decide +kernel
theorem witness_SpareCommandsTakeEffect :
    let nw (f : NwtS → NwtS) := (st fun d => d.modNwt f).dev
    let mp (x : NwtS) : NwtS := { x with map := [(239, 256)] }
    let r : SwapReq := ⟨true, 239, 0, false⟩
    let pre := (nw fun x => { mp x with pre := some (r, 3, []) }).setF F.NWT_STATUS_STATE 0 1
    let win := (nw id).setF F.NWT_STATUS_STATE 0 2
    let fz := (nw fun x => { x with fusePend := [1] }).setF F.NWT_STATUS_STATE 0 4
    let sk := ((st id).dev.setF F.SKK_CTRL_EN 0 1).setF F.SKK_CTRL_SCRUB_EN 0 0
    let old : Dev := { sk with tim := { sk.tim with sub := 40000000000 * 1000000000 * 15000 } }
    let ob : Dev := { ((sk.modNwt mp).setF F.SKK_CTRL_RELEASE 0 1) with obs := [⟨255, 35, 0, 0⟩] }
    (nw mp).fld F.NWT_STATUS_STATE 0 = 0 ∧ (nw mp).newtSite 239 = some 255 ∧ (nw mp).nwt.reqs = [] ∧
    (nw mp).fieldLost (fieldOf 255) = false ∧ pre.nwt.pre = some (r, 3, []) ∧ pre.newtSite r.lclu = some 255 ∧
    pre.fld F.NWT_STATUS_STATE 0 = 1 ∧ pre.siteOut 255 = false ∧ win.windowFree = true ∧ win.needsPre = none ∧ win.windowSites = [] ∧
    (nw fun x => { x with haltAt := some true, window := true }).nwt.haltAt = some true ∧
    (nw fun x => { x with haltAt := some true, window := true }).nwt.window = true ∧
    fz.nwt.fusePend = [1] ∧ fz.boot.fuse.updA.length < 448 ∧ fz.fld F.NWT_STATUS_STATE 0 = 4 ∧ fz.nwt.reqs = [] ∧
    sk.visitOk (.cluster 255) = true ∧ sk.flag F.SKK_CTRL_SCRUB_EN 0 = false ∧ sk.flag F.SKK_CTRL_EN 0 = true ∧
    sget old.visited 0 (coreU cZ) + 1000000000 * max 1 (old.fld F.SKK_CTRL_PERIOD 0) < old.now ∧
    sk.siteOut 255 = false ∧ sk.coreAbsent (coreU cZ) = false ∧ sk.coreState (coreU cZ) ≠ 4 ∧ ob.obs = [⟨255, 35, 0, 0⟩] ∧ coreU cZ / 256 = 255 ∧ coreU cZ % 256 = 35 ∧
    ob.visitOk (.core cZ) = true ∧ ob.fld F.SKK_CTRL_RELEASE 0 ≤ 0 + 1 := by decide +kernel
theorem witness_I3cCommandsTakeEffect :
    let i (f : I3cS → I3cS) := (st fun d => d.modI3c f).dev
    let data : List Byte := [1, 0xF8, 0xFF, 0xFF, 0xFF, 0xFF, 0xFF, 7]
    (i fun x => { x with addr := some 0x7F }).i3c.addr = some 0x7F ∧ data.length = 8 ∧ 8 ≤ (i id).i3c.mwl ∧ leAt data 0 1 = 1 ∧
    leAt data 1 6 % 8 = 0 ∧ leAt data 7 1 = 7 ∧ (i fun x => { x with setup := some (0, 0, 8, 1) }).now < 1 ∧
    (i fun x => { x with setup := some (0, 0, 8, 0) }).i3c.setup = some (0, 0, 8, 0) ∧
    0 ≤ (i fun x => { x with setup := some (0, 0, 8, 0) }).now ∧ (i id).i3c.addr = none ∧ (i id).pstate ≠ 4 ∧ (1 : BitVec 8).toNat % 2 = 1 := by
  decide +kernel

/-! The manual's worked examples. -/

/-- Table 4-9: 0.3, 8, 600, −0.0001 and a NaN in binary32 into M8. -/
theorem test_m8_encodings :
    roundSat .m8 .rne true (numOf .b32 0x3E99999A) = (0x2A, fpInexact) ∧ roundSat .m8 .rne true (numOf .b32 0x41000000) = (0x50, 0) ∧
    roundSat .m8 .rne true (numOf .b32 0x44160000) = (0x7F, fpShortSat + fpInexact) ∧
    roundSat .m8 .rne true (numOf .b32 0xB8D1B717) = (0x00, fpUnderflow + fpInexact) ∧
    roundSat .m8 .rne true (numOf .b32 0x7FC00000) = (0x80, fpInvalid) := by decide +kernel
/-- Table 4-11: 4.625, −1.625 and 0.1125 into M4. -/
theorem test_m4_encodings :
    (roundSat .m4 .rne true (numOf .b32 0x40940000)).1 = 0x6 ∧ (roundSat .m4 .rne true (numOf .b32 0xBFD00000)).1 = 0xB ∧
    (roundSat .m4 .rne true (numOf .b32 0x3DE66666)).1 = 0x0 := by decide +kernel
/-- Table 4-10: 12.43125 rounds to 12.0. -/
theorem test_m8_of_12_43 : (roundSat .m8 .rne true (numOf .b32 0x4146E666)).1 = 0x54 := by decide +kernel
/-- Table 3-20, in the manual's own encodings. -/
theorem test_fragment_words :
    decodeWord 0x5C07000000000000 = some ⟨g0, .phase 7⟩ ∧
    decodeWord 0xA0204110C8000000 = some ⟨g0, .cube ⟨true, 0, true, 1⟩ 2 3 4 false⟩ ∧
    decodeWord 0xC820C22140280000 = some ⟨g0, .cvt ⟨true, 1, true, 2⟩ 4 5 0 false 2 true 0 false 0 0 false⟩ ∧
    decodeWord 0x8821002864000000 = some ⟨g0, .send ⟨true, 2, false, 0⟩ 5 12 true 0 false 0⟩ ∧
    decodeWord 0x6010000000000000 = some ⟨g0, .sleep 1 0⟩ ∧ decodeWord 0x5000000000000001 = some ⟨g0, .sem 0 false 0 false 0 1⟩ ∧
    decodeWord 0x0800520000000000 = some ⟨g0, .br 41⟩ := by decide
/-- The example of chapter 8: address 0x1020_0012_3440. -/
theorem test_hbm_address : hbmOf 0x102000123440 = 2 ∧ hbmLch 0x102000123440 = 10 ∧ hbmChAddr 0x102000123440 = 0x9640 := by decide
/-- The example of chapter 1: site (13,2). -/
theorem test_site_13_2 : fieldOf 45 = 3 ∧ localIx 45 = 9 ∧ csmBase 45 = 0x1168000000 ∧
    State.reset.dev.place State.reset.dev.newtSite (0x20364000 + 0x108) = .reg 3 45 0x108 := by decide +kernel
/-- SHA3-256 of the empty string (FIPS 202). -/
theorem test_sha3_empty : leNat (sha3 []).reverse = 0xa7ffc6f8bf1ed76651c14756a061d662f580ff4de43b49fa82d80a4b80f8434a := by
  decide +kernel
/-- The example of chapter 7: a message of 1,500 B wraps a ring of 16 KiB. -/
theorem test_ring_wraps :
    let s := st fun d => ((d.setF F.CLU_RING_CFG_SIZE 0 2).setF F.CLU_RING_HEAD_OFFSET 0 4096).setF F.CLU_RING_TAIL_OFFSET 0 15360
    (match s.ringPlace 0 0 0 0 0 0 (zeros 1500) with
      | some t => t.dev.fld F.CLU_RING_TAIL_OFFSET 0 == 1536 && t.dev.fld F.CLU_RING_TAIL_WRAP 0 == 1 &&
          (t.mem.map fun c => (c.1, c.2)) == [(0x1000000000, 0xDC), (0x1000000001, 0x05), (0x1000000007, 0x01), (0x1000003C07, 0x7F)]
      | none => false) = true := by decide +kernel

/-! One effect per family of commands, on small states. -/

/-- A step serves the queue first in, first out. -/
theorem test_step_takes_the_front :
    (match step { State.reset with pending := [.ppsOut, .timNt] } with | .next t => t.pending | _ => []) = [.timNt] := by
  decide +kernel
/-- SLI writes its scalar register, and the PC moves on (R90). -/
theorem test_sli : (match exec (.sli c0 g0 3 0xDEADBEEF) (st run0) with
    | .next t => (t.dev.getR R.COR_SCALAR 0 3).toNat == 0xDEADBEEF && t.dev.pc 0 == 1 | _ => false) = true := by decide +kernel
/-- SEM WAIT leaves the count (the example of chapter 3: word 45 does not consume it). -/
theorem test_sem_wait_keeps_the_count :
    (match exec (.semWait c0 g0 false 0 false 0 1) (st fun d => run0 (d.setF F.COR_SEM_V 0 1 0)) with
      | .next t => t.dev.fld F.COR_SEM_V 0 0 == 1 && t.dev.pc 0 == 1 | _ => false) = true := by decide +kernel
/-- LOOP with a counter of 0 falls through (R130). -/
theorem test_loop_falls_through : (match exec (.loop c0 g0 2 100) (st run0) with
    | .next t => t.dev.pc 0 == 1 && t.dev.fld F.COR_LOOP_L 0 2 == 0 | _ => false) = true := by decide +kernel
/-- Two NT nanoseconds and a half a tick: after two ticks NT is 5 (R503). -/
theorem test_two_ticks_are_5_ns :
    (match step State.reset with
      | .next t => (match step t with | .next u => u.dev.nt == 5 | _ => false) | _ => false) = true := by decide +kernel
/-- A POP on an empty ring is ignored (R286). -/
theorem test_pop_of_an_empty_ring : (match exec (.pop 7 31) (st fun d => d.setF F.CLU_RING_CFG_OPEN 7 1 31) with
    | .next t => t.dev.fld F.CLU_RING_HEAD_OFFSET 7 31 == 0 | _ => false) = true := by decide +kernel
/-- ENTDAA gives a target without one its dynamic address (R619). -/
theorem test_entdaa_gives_the_address : (match exec (.entdaa 9) (st id) with
    | .next t => t.dev.i3c.addr == some 9 | _ => false) = true := by decide +kernel

end Sys2Proof.Tests
end

section
/-! PROOF. Schedule words that are passed over, branches and loops, and what an engine word captures
(spec/03_schedule_words.md R91, R92, R102, R103, R130, R133). First the laws of the sequencer: the queues of a core, issue, the
rows of the words; then the statements. -/

namespace Sys2Proof.Machine

/-! The queues of a core. -/

@[simp] theorem CoreS.queue_setQueue_self (x : CoreS) (q : EngQ) (ws : List QWord) : (x.setQueue q ws).queue q = ws := by
  cases q <;> rfl

theorem CoreS.queue_setQueue_ne (x : CoreS) {p q : EngQ} (h : p ≠ q) (ws : List QWord) :
    (x.setQueue q ws).queue p = x.queue p := by
  cases q <;> cases p <;> simp_all [CoreS.setQueue, CoreS.queue]

@[simp] theorem CoreS.setQueue_nextSeq (x : CoreS) (q : EngQ) (ws : List QWord) : (x.setQueue q ws).nextSeq = x.nextSeq := by
  cases q <;> rfl

/-- The queues do not depend on the sequence counter. -/
@[simp] theorem CoreS.queue_nextSeq (x : CoreS) (q : EngQ) (n : Nat) :
    CoreS.queue { x with nextSeq := n } q = x.queue q := by
  cases q <;> rfl

/-! Issue (R102, R103, R142). -/

/-- A core that issues words has not ended issue. -/
theorem Dev.halting_of_issues {d : Dev} {u : Nat} (h : d.issues u = true) : (d.core u).halting = 0 := by
  simp only [Dev.issues, Bool.and_eq_true, decide_eq_true_eq] at h
  exact h.2

/-- A core whose issue has not ended does not halt. -/
theorem Dev.settle_of_not_halting {d : Dev} {u : Nat} (h : (d.core u).halting = 0) : d.settle u = d := by
  simp [Dev.settle, h]

@[simp] theorem Dev.core_addWrap (d : Dev) (f : Fld) (u n i v : Nat) : (d.addWrap f u n i).core v = d.core v := rfl

/-- Issue by a running core to a PC inside the schedule changes the held word and the sleep hint, and nothing else that the
core holds beside its registers. -/
theorem Dev.core_issued {d : Dev} {u pc : Nat} (h : (d.core u).halting = 0) (hpc : pc ≤ 8191) (b : WordBody) (x wasHeld : Bool) :
    ∃ hint, (d.issued u b pc x wasHeld false).core u = { d.core u with held := none, sleepHint := hint } := by
  have hhint : ∀ (p : Prop) [Decidable p] (f : Fld), (if p then d else d.setF f u 0).core u = d.core u := by
    intro p _ f
    split <;> rfl
  have hsettle : ∀ e : Dev, (∃ hint, e.core u = { d.core u with held := none, sleepHint := hint }) →
      ∃ hint, (e.settle u).core u = { d.core u with held := none, sleepHint := hint } := by
    rintro e ⟨hint, he⟩
    exact ⟨hint, by rwa [Dev.settle_of_not_halting (by rw [he]; exact h)]⟩
  unfold Dev.issued
  rw [if_neg (show ¬ pc > 8191 by omega)]
  apply hsettle
  rw [Dev.core_setF, Dev.core_modCore_self, Dev.core_setF, Dev.core_addWrap, hhint]
  exact ⟨_, rfl⟩

/-- Such an issue leaves every engine queue. -/
theorem Dev.queue_issued {d : Dev} {u pc : Nat} (h : (d.core u).halting = 0) (hpc : pc ≤ 8191) (b : WordBody) (x wasHeld : Bool)
    (q : EngQ) : ((d.issued u b pc x wasHeld false).core u).queue q = (d.core u).queue q := by
  obtain ⟨hint, hcore⟩ := Dev.core_issued h hpc b x wasHeld
  rw [hcore]
  cases q <;> rfl

/-- A word whose guard does not hold is issued past: nothing but the issue happens (R103). -/
theorem State.issueWord_of_passes {s : State} {u : Nat} {g : Guard} (h : s.Passes u g) (b : WordBody) (wasHeld step : Bool) :
    s.issueWord u ⟨g, b⟩ wasHeld step = s.onDev fun d => d.issued u b (s.dev.pc u + 1) false wasHeld step := by
  obtain ⟨-, hmark, hguard⟩ := h
  exact (if_neg (Bool.eq_false_iff.1 hmark)).trans (if_pos hguard)

/-- A sequencer word that is ready and goes on has its effect and is issued past (R99, R142). -/
theorem State.issueWord_of_go {s : State} {u n : Nat} {g : Guard} {b : WordBody} {d : Dev} (h : s.Ready u g b)
    (hq : queueOf b = none) (hgo : s.dev.seqWord u (s.dev.pc u) b = .go d n) (wasHeld step : Bool) :
    s.issueWord u ⟨g, b⟩ wasHeld step = { s with dev := d.issued u b n true wasHeld step } := by
  obtain ⟨-, hmark, hguard, hlegal, hblocked⟩ := h
  rw [Dev.pc] at hgo
  simp only [State.issueWord, hmark, hguard, hlegal, hblocked, hq, hgo, Bool.false_eq_true, Bool.true_eq_false, Bool.not_true,
    if_false]

/-! The rows of the words (Table 3-3). -/

/-- The word row of a core that issues words issues its word. -/
theorem State.gives_word {s : State} {c : Core} (h : s.dev.issues (coreU c) = true) (g : Guard) (b : WordBody) :
    s.Gives (s.word c g b) (s.issueWord (coreU c) ⟨g, b⟩ false false) := by
  rw [coreU] at h
  simp only [State.word, h, if_true]
  exact State.gives_done s _

theorem State.word_passesOver {s : State} {c : Core} {g : Guard} (h : s.Passes (coreU c) g) (b : WordBody) :
    s.PassesOver (coreU c) (s.word c g b) b := by
  have hgives := State.gives_word h.1 g b
  rwa [State.issueWord_of_passes h] at hgives

theorem State.word_issues {s : State} {c : Core} {n : Nat} {g : Guard} {b : WordBody} {d : Dev} (h : s.Ready (coreU c) g b)
    (hq : queueOf b = none) (hgo : s.dev.seqWord (coreU c) (s.dev.pc (coreU c)) b = .go d n) :
    s.Issues (coreU c) (s.word c g b) d b n := by
  have hgives := State.gives_word h.1 g b
  rwa [State.issueWord_of_go h hq hgo] at hgives

/-- The row of a word issues it, where the word has a row: SEM OP 3 and FENCE KIND 3 have none. -/
theorem exec_rowOf (c : Core) (g : Guard) (b : WordBody) (s : State)
    (hsem : ∀ scope idx vs sv val, b ≠ .sem 3 scope idx vs sv val) (hfence : ∀ eng, b ≠ .fence 3 eng) :
    exec (rowOf c g b) s = s.word c g b := by
  have hcases : ∀ x : BitVec 2, x = 0 ∨ x = 1 ∨ x = 2 ∨ x = 3 := by decide
  cases b with
  | sem op scope idx vs sv val =>
    obtain rfl | rfl | rfl | rfl := hcases op
    · rfl
    · rfl
    · rfl
    · exact absurd rfl (hsem scope idx vs sv val)
  | fence kind eng =>
    obtain rfl | rfl | rfl | rfl := hcases kind
    · rfl
    · rfl
    · rfl
    · exact absurd rfl (hfence eng)
  | _ => rfl

theorem exec_br (c : Core) (g : Guard) (tgt : BitVec 13) (s : State) : exec (.br c g tgt) s = s.word c g (.br tgt) := rfl

theorem exec_loop (c : Core) (g : Guard) (lc : BitVec 2) (tgt : BitVec 13) (s : State) :
    exec (.loop c g lc tgt) s = s.word c g (.loop lc tgt) := rfl

/-! Branches at issue (R130). -/

theorem Dev.seqWord_br (d : Dev) (u pc : Nat) (tgt : BitVec 13) : d.seqWord u pc (.br tgt) = .go d tgt.toNat := rfl

theorem Dev.seqWord_loop_of_ne_zero {d : Dev} {u : Nat} {lc : BitVec 2} (h : d.fld F.COR_LOOP_L u lc.toNat ≠ 0) (pc : Nat)
    (tgt : BitVec 13) :
    d.seqWord u pc (.loop lc tgt) = .go (d.setF F.COR_LOOP_L u (d.fld F.COR_LOOP_L u lc.toNat - 1) lc.toNat) tgt.toNat := by
  simp only [Dev.seqWord, if_neg h]

theorem Dev.seqWord_loop_of_eq_zero {d : Dev} {u : Nat} {lc : BitVec 2} (h : d.fld F.COR_LOOP_L u lc.toNat = 0) (pc : Nat)
    (tgt : BitVec 13) : d.seqWord u pc (.loop lc tgt) = .go d (pc + 1) := by
  simp only [Dev.seqWord, if_pos h]

/-! Dispatch (R91, R92, R133). -/

/-- The word that a dispatch puts at the tail of its queue: what it names stands as at issue. -/
def Dev.captured (d : Dev) (u pc : Nat) (b : WordBody) : QWord where
  seq := (d.core u).nextSeq
  pc := pc
  body := b
  ds := (wordDescs b).map fun i => (d.getR R.COR_DESC0 u i).toNat + 2 ^ 64 * (d.getR R.COR_DESC1 u i).toNat
  ss := (wordScals b).map fun i => d.fld F.COR_SCALAR_S u i
  mode := d.fld F.COR_SEQ_STATUS_EPOCH_MODE u
  started := false
  buf := []
  left := 0
  res := WordRes.none

/-- A dispatch appends the captured word to its queue and counts the sequence number on. -/
theorem Dev.core_dispatch (d : Dev) (u pc : Nat) (q : EngQ) (b : WordBody) :
    (d.dispatch u pc q b).core u =
      { (d.core u).setQueue q ((d.core u).queue q ++ [d.captured u pc b]) with nextSeq := (d.core u).nextSeq + 1 } := by
  simp [Dev.dispatch, Dev.captured]

@[simp] theorem Dev.dispatch_regs (d : Dev) (u pc : Nat) (q : EngQ) (b : WordBody) : (d.dispatch u pc q b).regs = d.regs := rfl

theorem Dev.queue_dispatch_self (d : Dev) (u pc : Nat) (q : EngQ) (b : WordBody) :
    ((d.dispatch u pc q b).core u).queue q = (d.core u).queue q ++ [d.captured u pc b] := by
  simp [Dev.core_dispatch]

theorem Dev.queue_dispatch_ne (d : Dev) (u pc : Nat) {p q : EngQ} (h : p ≠ q) (b : WordBody) :
    ((d.dispatch u pc q b).core u).queue p = (d.core u).queue p := by
  simp [Dev.core_dispatch, CoreS.queue_setQueue_ne _ h]

/-! The statements. -/

/-- Settles O11: the row issues its word, a false guard makes the issue all that happens, and an issue inside the schedule
leaves the queues. -/
theorem aWordWithAFalseGuardIsPassedOver : Obligations.AWordWithAFalseGuardIsPassedOver := by
  intro s c g b hpass hrow
  constructor
  · rw [exec_rowOf c g b s (by rintro _ _ _ _ _ rfl; exact hrow rfl) (by rintro _ rfl; exact hrow rfl)]
    exact State.word_passesOver hpass b
  · intro hpc q
    exact Dev.queue_issued (Dev.halting_of_issues hpass.1) hpc b false false q

/-- Settles O12, by what BR and LOOP do at issue in each of R130's cases. -/
theorem branchesAndLoopsSteerThePc : Obligations.BranchesAndLoopsSteerThePc := by
  intro s c g lc tgt u d
  rw [exec_br, exec_loop]
  refine ⟨fun hready => ?_, fun hready hne => ?_, fun hready hzero => ?_, fun hpass => ⟨?_, ?_⟩⟩
  · exact State.word_issues hready rfl (Dev.seqWord_br s.dev u _ tgt)
  · exact State.word_issues hready rfl (Dev.seqWord_loop_of_ne_zero hne _ tgt)
  · exact State.word_issues hready rfl (Dev.seqWord_loop_of_eq_zero hzero _ tgt)
  · exact State.word_passesOver hpass (.br tgt)
  · exact State.word_passesOver hpass (.loop lc tgt)

/-- Settles O18: the word is `Dev.captured`, which stands in the queue and not in the registers. -/
theorem dispatchCapturesOperands : Obligations.DispatchCapturesOperands := by
  intro d u pc q b
  have hqueue := Dev.queue_dispatch_self d u pc q b
  have hseq : ((d.dispatch u pc q b).core u).nextSeq = (d.core u).nextSeq + 1 := by rw [Dev.core_dispatch]
  exact ⟨d.captured u pc b, hqueue, rfl, rfl, rfl, rfl, rfl, rfl, rfl, hseq,
    fun p hp => Dev.queue_dispatch_ne d u pc hp b, Dev.dispatch_regs d u pc q b, fun r v i x => hqueue⟩

end Sys2Proof.Machine
end

section
/-! PROOF. The zero-skip threshold: its tick, a write of THR_MAX, and the pinned run (spec/05_conditional_computation.md R184 to
R186). First what fields of one register word read when another is stored; then the tick; then the statement. -/

namespace Sys2Proof.Machine

/-! Fields of a register word. -/

theorem Dev.fld_lt (d : Dev) (f : Fld) (u i : Nat) : d.fld f u i < 2 ^ f.width := Nat.mod_lt _ (Nat.two_pow_pos _)

/-- A stored field reads back, cut to its width. -/
theorem Dev.fld_setF_self {f : Fld} (h : f.lo + f.width ≤ 64) (d : Dev) (u v i : Nat) :
    (d.setF f u v i).fld f u i = v % 2 ^ f.width := by
  rw [Dev.fld, Dev.word_setF d f u v i h, bitsOf_putBits_self]

theorem Dev.fld_setF_self_of_lt {f : Fld} {v : Nat} (h : f.lo + f.width ≤ 64) (hv : v < 2 ^ f.width) (d : Dev) (u i : Nat) :
    (d.setF f u v i).fld f u i = v := by
  rw [Dev.fld_setF_self h, Nat.mod_eq_of_lt hv]

/-- A field of the same word whose bits lie apart stands. -/
theorem Dev.fld_setF_apart {f g : Fld} (hreg : g.reg = f.reg) (h : f.lo + f.width ≤ 64)
    (hapart : g.lo + g.width ≤ f.lo ∨ f.lo + f.width ≤ g.lo) (d : Dev) (u v i : Nat) :
    (d.setF f u v i).fld g u i = d.fld g u i := by
  rw [Dev.fld, Dev.fld, hreg, Dev.word_setF d f u v i h]
  rcases hapart with hbelow | habove
  · exact bitsOf_putBits_below hbelow
  · exact bitsOf_putBits_above habove

/-- The words of two registers in one unit have different keys. -/
theorem Reg.key_ne_of_code_ne {r q : Reg} (h : q.code ≠ r.code) (u i : Nat) : q.key u i ≠ r.key u i := by
  simp only [Reg.key]
  omega

/-- A field of another register stands. -/
theorem Dev.fld_setF_other {f g : Fld} (h : g.reg.code ≠ f.reg.code) (d : Dev) (u v i : Nat) :
    (d.setF f u v i).fld g u i = d.fld g u i :=
  Dev.fld_setF_key d f g u u i i v (Reg.key_ne_of_code_ne h u i)

/-- A saturating field counts up to its largest value. -/
theorem Dev.fld_addSat_self {f : Fld} (h : f.lo + f.width ≤ 64) (d : Dev) (u n i : Nat) :
    (d.addSat f u n i).fld f u i = min (d.fld f u i + n) (2 ^ f.width - 1) := by
  have hlt : min (2 ^ f.width - 1) (d.fld f u i + n) < 2 ^ f.width :=
    Nat.lt_of_le_of_lt (Nat.min_le_left _ _) (Nat.sub_one_lt (Nat.two_pow_pos _).ne')
  rw [Dev.addSat, Dev.fld_setF_self_of_lt h hlt, Nat.min_comm]

/-! The registers of the threshold. -/

theorem Dev.thrCur_lt (d : Dev) (site : Nat) : d.fld F.CLU_ZSK_STATUS_THR_CUR site < 64 := d.fld_lt _ site 0

theorem Dev.thrMax_lt (d : Dev) (site : Nat) : d.fld F.CLU_ZSK_CTRL_THR_MAX site < 64 := d.fld_lt _ site 0

theorem Dev.thrCur_setThrCur {v : Nat} (h : v < 64) (d : Dev) (site : Nat) :
    (d.setF F.CLU_ZSK_STATUS_THR_CUR site v).fld F.CLU_ZSK_STATUS_THR_CUR site = v :=
  Dev.fld_setF_self_of_lt (by decide) h d site 0

theorem Dev.thrMax_setThrMax {v : Nat} (h : v < 64) (d : Dev) (site : Nat) :
    (d.setF F.CLU_ZSK_CTRL_THR_MAX site v).fld F.CLU_ZSK_CTRL_THR_MAX site = v :=
  Dev.fld_setF_self_of_lt (by decide) h d site 0

@[simp] theorem Dev.thrMax_setThrCur (d : Dev) (site v : Nat) :
    (d.setF F.CLU_ZSK_STATUS_THR_CUR site v).fld F.CLU_ZSK_CTRL_THR_MAX site = d.fld F.CLU_ZSK_CTRL_THR_MAX site :=
  Dev.fld_setF_other (f := F.CLU_ZSK_STATUS_THR_CUR) (g := F.CLU_ZSK_CTRL_THR_MAX) (by decide) d site v 0

@[simp] theorem Dev.thrCur_setThrMax (d : Dev) (site v : Nat) :
    (d.setF F.CLU_ZSK_CTRL_THR_MAX site v).fld F.CLU_ZSK_STATUS_THR_CUR site = d.fld F.CLU_ZSK_STATUS_THR_CUR site :=
  Dev.fld_setF_other (f := F.CLU_ZSK_CTRL_THR_MAX) (g := F.CLU_ZSK_STATUS_THR_CUR) (by decide) d site v 0

@[simp] theorem Dev.pinned_setThrCur (d : Dev) (site v : Nat) :
    (d.setF F.CLU_ZSK_STATUS_THR_CUR site v).fld F.CLU_ZSK_STATUS_PINNED site = d.fld F.CLU_ZSK_STATUS_PINNED site :=
  Dev.fld_setF_apart (f := F.CLU_ZSK_STATUS_THR_CUR) (g := F.CLU_ZSK_STATUS_PINNED) rfl (by decide) (by decide) d site v 0

@[simp] theorem Dev.thrCur_addPinned (d : Dev) (site n : Nat) :
    (d.addSat F.CLU_ZSK_STATUS_PINNED site n).fld F.CLU_ZSK_STATUS_THR_CUR site = d.fld F.CLU_ZSK_STATUS_THR_CUR site :=
  Dev.fld_setF_apart (f := F.CLU_ZSK_STATUS_PINNED) (g := F.CLU_ZSK_STATUS_THR_CUR) rfl (by decide) (by decide) d site _ 0

@[simp] theorem Dev.thrMax_addPinned (d : Dev) (site n : Nat) :
    (d.addSat F.CLU_ZSK_STATUS_PINNED site n).fld F.CLU_ZSK_CTRL_THR_MAX site = d.fld F.CLU_ZSK_CTRL_THR_MAX site :=
  Dev.fld_setF_other (f := F.CLU_ZSK_STATUS_PINNED) (g := F.CLU_ZSK_CTRL_THR_MAX) (by decide) d site _ 0

@[simp] theorem Dev.clu_addSat (d : Dev) (f : Fld) (u n i v : Nat) : (d.addSat f u n i).clu v = d.clu v := rfl

@[simp] theorem Dev.fld_modClu (d : Dev) (u : Nat) (g : CluS → CluS) (f : Fld) (v i : Nat) :
    (d.modClu u g).fld f v i = d.fld f v i := rfl

/-! The tick of the threshold (R184, R186). -/

/-- The threshold that a tick stores: THR_MAX with the loop off, T where nothing was broadcast, and otherwise T moved by one within
its bounds. -/
def Dev.zskNext (d : Dev) (site : Nat) (hot : Bool) : Nat :=
  if !d.flag F.CLU_ZSK_CTRL_MODE site then d.fld F.CLU_ZSK_CTRL_THR_MAX site
  else if (d.clu site).bcast = 0 then d.fld F.CLU_ZSK_STATUS_THR_CUR site
  else min (max (if hot && decide ((d.clu site).dropSum * 2 ^ d.fld F.CLU_ZSK_CTRL_DROP_TGT site ≤ (d.clu site).allSum)
    then d.fld F.CLU_ZSK_STATUS_THR_CUR site + 1 else d.fld F.CLU_ZSK_STATUS_THR_CUR site - 1)
      (d.fld F.CLU_ZSK_CTRL_THR_MIN site)) (d.fld F.CLU_ZSK_CTRL_THR_MAX site)

/-- Whether a tick is a pinned one: it is over the allocation and leaves T at THR_MAX. -/
def Dev.zskPins (d : Dev) (site : Nat) (hot : Bool) : Bool :=
  hot && decide (d.zskNext site hot = d.fld F.CLU_ZSK_CTRL_THR_MAX site)

/-- The tick stores its threshold, counts when it is pinned, and starts the sums again. -/
theorem Dev.zskTick_eq (d : Dev) (site : Nat) (hot : Bool) :
    d.zskTick site hot =
      (if d.zskPins site hot
        then (d.setF F.CLU_ZSK_STATUS_THR_CUR site (d.zskNext site hot)).addSat F.CLU_ZSK_STATUS_PINNED site 1
        else d.setF F.CLU_ZSK_STATUS_THR_CUR site (d.zskNext site hot)).modClu site fun x =>
          { x with pinnedRun := if d.zskPins site hot then x.pinnedRun + 1 else 0, bcast := 0, dropSum := 0, allSum := 0 } := rfl

theorem Dev.zskNext_of_moves {d : Dev} {site : Nat} (hmode : d.flag F.CLU_ZSK_CTRL_MODE site = true)
    (hsent : (d.clu site).bcast ≠ 0) (hot : Bool) :
    d.zskNext site hot =
      min (max (if hot ∧ (d.clu site).dropSum * 2 ^ d.fld F.CLU_ZSK_CTRL_DROP_TGT site ≤ (d.clu site).allSum
        then d.fld F.CLU_ZSK_STATUS_THR_CUR site + 1 else d.fld F.CLU_ZSK_STATUS_THR_CUR site - 1)
          (d.fld F.CLU_ZSK_CTRL_THR_MIN site)) (d.fld F.CLU_ZSK_CTRL_THR_MAX site) := by
  simp only [Dev.zskNext, hmode, Bool.not_true, Bool.false_eq_true, if_false, if_neg hsent, Bool.and_eq_true, decide_eq_true_eq]

theorem Dev.zskNext_of_idle {d : Dev} {site : Nat} (hmode : d.flag F.CLU_ZSK_CTRL_MODE site = true)
    (hidle : (d.clu site).bcast = 0) (hot : Bool) : d.zskNext site hot = d.fld F.CLU_ZSK_STATUS_THR_CUR site := by
  rw [Dev.zskNext, if_neg (by simp [hmode]), if_pos hidle]

theorem Dev.zskNext_of_off {d : Dev} {site : Nat} (hmode : d.flag F.CLU_ZSK_CTRL_MODE site = false) (hot : Bool) :
    d.zskNext site hot = d.fld F.CLU_ZSK_CTRL_THR_MAX site := by
  rw [Dev.zskNext, if_pos (by simp [hmode])]

/-- A tick stores THR_MAX, the T before it, or a value that THR_MAX bounds. -/
theorem Dev.zskNext_le_max (d : Dev) (site : Nat) (hot : Bool) :
    d.zskNext site hot ≤ max (d.fld F.CLU_ZSK_STATUS_THR_CUR site) (d.fld F.CLU_ZSK_CTRL_THR_MAX site) := by
  unfold Dev.zskNext
  split
  · exact Nat.le_max_right _ _
  · split
    · exact Nat.le_max_left _ _
    · exact Nat.le_trans (Nat.min_le_right _ _) (Nat.le_max_right _ _)

theorem Dev.zskNext_lt (d : Dev) (site : Nat) (hot : Bool) : d.zskNext site hot < 64 :=
  Nat.lt_of_le_of_lt (d.zskNext_le_max site hot) (Nat.max_lt.2 ⟨d.thrCur_lt site, d.thrMax_lt site⟩)

@[simp] theorem Dev.thrCur_zskTick (d : Dev) (site : Nat) (hot : Bool) :
    (d.zskTick site hot).fld F.CLU_ZSK_STATUS_THR_CUR site = d.zskNext site hot := by
  rw [Dev.zskTick_eq]
  split <;> simp [Dev.thrCur_setThrCur (d.zskNext_lt site hot)]

@[simp] theorem Dev.thrMax_zskTick (d : Dev) (site : Nat) (hot : Bool) :
    (d.zskTick site hot).fld F.CLU_ZSK_CTRL_THR_MAX site = d.fld F.CLU_ZSK_CTRL_THR_MAX site := by
  rw [Dev.zskTick_eq]
  split <;> simp

theorem Dev.pinned_zskTick (d : Dev) (site : Nat) (hot : Bool) :
    (d.zskTick site hot).fld F.CLU_ZSK_STATUS_PINNED site =
      if d.zskPins site hot then min (d.fld F.CLU_ZSK_STATUS_PINNED site + 1) (2 ^ F.CLU_ZSK_STATUS_PINNED.width - 1)
      else d.fld F.CLU_ZSK_STATUS_PINNED site := by
  rw [Dev.zskTick_eq]
  split
  · rw [Dev.fld_modClu, Dev.fld_addSat_self (by decide), Dev.pinned_setThrCur]
  · rw [Dev.fld_modClu, Dev.pinned_setThrCur]

theorem Dev.clu_zskTick (d : Dev) (site : Nat) (hot : Bool) :
    (d.zskTick site hot).clu site =
      { d.clu site with
        pinnedRun := if d.zskPins site hot then (d.clu site).pinnedRun + 1 else 0, bcast := 0, dropSum := 0, allSum := 0 } := by
  rw [Dev.zskTick_eq, Dev.clu_modClu_self]
  split <;> simp

/-! A write of THR_MAX, and the event of the pinned run (R185, R186). -/

theorem exec_thrMax {s : State} {site : Site} (h : s.dev.siteOut site.val = false) (v : BitVec 6) :
    exec (.thrMax site v) s = .next (s.onDev fun d => d.wrThrMax site.val v.toNat) := by
  change execThrMax site v s = _
  simp [execThrMax, State.onDev, h]

theorem Dev.thrMax_wrThrMax {v : Nat} (h : v < 64) (d : Dev) (site : Nat) :
    (d.wrThrMax site v).fld F.CLU_ZSK_CTRL_THR_MAX site = v := by
  simp only [Dev.wrThrMax]
  split <;> simp [Dev.thrMax_setThrMax h]

/-- A write of THR_MAX lowers a higher T to it and leaves a lower one (R185). -/
theorem Dev.thrCur_wrThrMax {v : Nat} (h : v < 64) (d : Dev) (site : Nat) :
    (d.wrThrMax site v).fld F.CLU_ZSK_STATUS_THR_CUR site = min v (d.fld F.CLU_ZSK_STATUS_THR_CUR site) := by
  simp only [Dev.wrThrMax, Dev.thrCur_setThrMax]
  split
  next hhigh => rw [Dev.thrCur_setThrCur h, Nat.min_eq_left (Nat.le_of_lt hhigh)]
  next hlow => rw [Dev.thrCur_setThrMax, Nat.min_eq_right (Nat.le_of_not_lt hlow)]

@[simp] theorem Dev.wrThrMax_cores (d : Dev) (site v : Nat) : (d.wrThrMax site v).cores = d.cores := by
  simp only [Dev.wrThrMax]
  split <;> rfl

theorem exec_zskPinned_of_le {s : State} {site : Site} (h : 50000 ≤ (s.dev.clu site.val).pinnedRun) :
    exec (.zskPinned site) s = .next (s.onDev fun d =>
      (d.modClu site.val fun y => { y with pinnedRun := 0 }).raise (evU bCLU site.val) 2 0 0) := by
  change execZskPinned site s = _
  simp [execZskPinned, State.onDev, h]

theorem exec_zskPinned_of_lt {s : State} {site : Site} (h : (s.dev.clu site.val).pinnedRun < 50000) :
    exec (.zskPinned site) s = .next s := by
  change execZskPinned site s = _
  simp [execZskPinned, State.onDev, Nat.not_le.2 h]

/-! The statement. -/

/-- Settles O39: a tick stores `Dev.zskNext`, which the T before it and THR_MAX bound, and counts when it pins; the two commands by
their cases. -/
theorem thresholdStaysBelowItsMaximum : Obligations.ThresholdStaysBelowItsMaximum := by
  refine ⟨fun d site hot => ?_, fun s site v hin => ?_, fun s site => ⟨exec_zskPinned_of_le, exec_zskPinned_of_lt⟩⟩
  · simp only [Dev.thrCur_zskTick, Dev.thrMax_zskTick, Dev.clu_zskTick, Dev.pinned_zskTick]
    refine ⟨fun hmode hsent => Dev.zskNext_of_moves hmode hsent hot, fun hmode hidle => Dev.zskNext_of_idle hmode hidle hot,
      fun hmode => Dev.zskNext_of_off hmode hot, ⟨trivial, trivial, trivial⟩,
      fun hle => Nat.le_trans (d.zskNext_le_max site hot) (Nat.max_le.2 ⟨hle, Nat.le_refl _⟩),
      ?_, fun hnot => ?_⟩
    · rintro rfl hmax
      have hpins : d.zskPins site true = true := by simp [Dev.zskPins, hmax]
      simp [hpins]
    · have hpins : d.zskPins site hot = false := by
        rcases hnot with hcool | hbelow
        · simp [Dev.zskPins, hcool]
        · simp [Dev.zskPins, hbelow]
      simp [hpins]
  · have hv : v.toNat < 64 := v.isLt
    have hcur := Dev.thrCur_wrThrMax hv s.dev site.val
    refine ⟨_, exec_thrMax hin v, ⟨rfl, rfl, rfl, rfl⟩, Dev.wrThrMax_cores _ _ _, hcur, ?_⟩
    rw [State.onDev_dev, hcur, Dev.thrMax_wrThrMax hv]
    exact Nat.min_le_left _ _

end Sys2Proof.Machine
end

section
/-! PROOF. POP of a cluster ring (spec/07_messages_and_semaphores.md R284, R286). First the two ways HEAD moves, which leave the
count of messages; then what POP does to an empty ring, at a pad and at a record; then the statement. -/

namespace Sys2Proof.Machine

/-- HEAD and TAIL of ring r are equal, WRAP bits and all (R284). -/
def Dev.RingEmpty (d : Dev) (site r : Nat) : Prop :=
  d.fld F.CLU_RING_HEAD_OFFSET site r = d.fld F.CLU_RING_TAIL_OFFSET site r ∧
    d.fld F.CLU_RING_HEAD_WRAP site r = d.fld F.CLU_RING_TAIL_WRAP site r

/-- HEAD back at offset 0, with WRAP toggled. -/
def Dev.headWrap (d : Dev) (site r : Nat) : Dev :=
  (d.setF F.CLU_RING_HEAD_OFFSET site 0 r).setF F.CLU_RING_HEAD_WRAP site (1 - d.fld F.CLU_RING_HEAD_WRAP site r) r

/-- HEAD past n bytes, which may end the ring. -/
def Dev.headPast (d : Dev) (site r n : Nat) : Dev :=
  if d.fld F.CLU_RING_HEAD_OFFSET site r + n < d.ringSize site r then
    d.setF F.CLU_RING_HEAD_OFFSET site (d.fld F.CLU_RING_HEAD_OFFSET site r + n) r
  else d.headWrap site r

/-- The header of the record or pad at HEAD (Table 7-4). -/
def State.headHeader (s : State) (site r : Nat) : Nat :=
  leNat (s.get (s.dev.ringBase site r + s.dev.fld F.CLU_RING_HEAD_OFFSET site r) 8)

/-- The bytes that a record with this header occupies (R283). -/
def recordBytes (header : Nat) : Nat := (8 + header % 8192 + 63) / 64 * 64

/-- A change of CLU_RING_HEAD leaves the message count, which stands in another register. -/
theorem Dev.ringMsgs_setF_head {f : Fld} (h : f.reg = R.CLU_RING_HEAD) (d : Dev) (site v r : Nat) :
    (d.setF f site v r).fld F.CLU_RING_STATUS_MSGS site r = d.fld F.CLU_RING_STATUS_MSGS site r :=
  Dev.fld_setF_other (by rw [h]; decide) d site v r

@[simp] theorem Dev.ringMsgs_headWrap (d : Dev) (site r : Nat) :
    (d.headWrap site r).fld F.CLU_RING_STATUS_MSGS site r = d.fld F.CLU_RING_STATUS_MSGS site r := by
  rw [Dev.headWrap, Dev.ringMsgs_setF_head rfl, Dev.ringMsgs_setF_head rfl]

@[simp] theorem Dev.ringMsgs_headPast (d : Dev) (site r n : Nat) :
    (d.headPast site r n).fld F.CLU_RING_STATUS_MSGS site r = d.fld F.CLU_RING_STATUS_MSGS site r := by
  unfold Dev.headPast
  split
  · exact Dev.ringMsgs_setF_head rfl d site _ r
  · exact d.ringMsgs_headWrap site r

theorem State.ringPop_of_empty {s : State} {site r : Nat} (h : s.dev.RingEmpty site r) : s.ringPop site r = s := by
  obtain ⟨hoffset, hwrap⟩ := h
  simp [State.ringPop, hoffset, hwrap]

/-- POP of a ring that holds something moves HEAD, by what the header at HEAD says: past a pad no message leaves the count. -/
theorem State.ringPop_of_not_empty {s : State} {site r : Nat} (h : ¬ s.dev.RingEmpty site r) :
    s.ringPop site r = s.onDev fun _ =>
      if s.headHeader site r / 2 ^ 56 = 0x7F then s.dev.headWrap site r
      else
        let e := s.dev.headPast site r (recordBytes (s.headHeader site r))
        e.setF F.CLU_RING_STATUS_MSGS site (e.fld F.CLU_RING_STATUS_MSGS site r - 1) r := by
  have hguard : ¬ ((decide (s.dev.fld F.CLU_RING_HEAD_OFFSET site r = s.dev.fld F.CLU_RING_TAIL_OFFSET site r) &&
      decide (s.dev.fld F.CLU_RING_HEAD_WRAP site r = s.dev.fld F.CLU_RING_TAIL_WRAP site r)) = true) := by
    rwa [Bool.and_eq_true, decide_eq_true_eq, decide_eq_true_eq]
  refine (if_neg hguard).trans ?_
  simp only [State.onDev, Dev.headPast, ← Nat.not_le, ite_not]
  rfl

theorem State.ringPop_of_pad {s : State} {site r : Nat} (h : ¬ s.dev.RingEmpty site r)
    (hpad : s.headHeader site r / 2 ^ 56 = 0x7F) : s.ringPop site r = s.onDev fun _ => s.dev.headWrap site r := by
  rw [State.ringPop_of_not_empty h]
  simp only [hpad, if_true]

theorem State.ringPop_of_record {s : State} {site r : Nat} (h : ¬ s.dev.RingEmpty site r)
    (hrecord : s.headHeader site r / 2 ^ 56 ≠ 0x7F) :
    s.ringPop site r = s.onDev fun _ =>
      (s.dev.headPast site r (recordBytes (s.headHeader site r))).setF F.CLU_RING_STATUS_MSGS site
        (s.dev.fld F.CLU_RING_STATUS_MSGS site r - 1) r := by
  rw [State.ringPop_of_not_empty h]
  simp only [hrecord, if_false, Dev.ringMsgs_headPast]

/-- The POP command at a site in service pops the ring. -/
theorem State.gives_pop {s : State} {site : Site} (h : s.dev.siteOut site.val = false) (r : Fin 32) :
    s.Gives (exec (.pop site r) s) (s.ringPop site.val r.val) := by
  change s.Gives (execPop site r s) _
  rw [execPop, if_neg (Bool.eq_false_iff.1 h)]
  exact State.gives_done s _

/-! The statement. -/

/-- Settles O27: the POP command is `State.ringPop`, by whether the ring is empty, at a pad or at a record; the message count that
POP lowers is the one from before HEAD moved. -/
theorem popAdvancesTheHead : Obligations.PopAdvancesTheHead := by
  intro s site r d i h empty w n flip past hin
  have hgives := State.gives_pop hin r
  refine ⟨fun hempty => ?_, fun hfull hpad => ?_, fun hfull hrecord => ?_⟩
  · rwa [State.ringPop_of_empty hempty] at hgives
  · rwa [State.ringPop_of_pad hfull hpad] at hgives
  · rwa [State.ringPop_of_record hfull hrecord] at hgives

end Sys2Proof.Machine
end

section
/-! PROOF. The memories keep their canonical form, and every command answers (spec/00_scope.md, spec/17_faults.md; SPEC.md log 1, 13,
47). First the canonical form of sparse maps as a sorted list without defaults; then what each operation over states keeps; then
the outcomes of commands; then the statements. -/

namespace Sys2Proof.Machine

/-! The canonical form of a sparse map: its keys rise, and none of its values is the default. -/

section SparseMap
variable {β : Type} [DecidableEq β] {z : β}

theorem swfFrom_iff {lo : Nat} {m : SMap β} :
    swfFrom z lo m = true ↔
      (∀ x ∈ m, lo ≤ x.1) ∧ m.Pairwise (fun x y => x.1 < y.1) ∧ ∀ x ∈ m, x.2 ≠ z := by
  induction m generalizing lo with
  | nil => simp [swfFrom]
  | cons x r ih =>
    obtain ⟨a, v⟩ := x
    simp only [swfFrom, Bool.and_eq_true, decide_eq_true_eq, ih, List.mem_cons, forall_eq_or_imp, List.pairwise_cons]
    constructor
    · rintro ⟨⟨hlo, hv⟩, habove, hrise, hne⟩
      exact ⟨⟨hlo, fun x hx => Nat.le_trans (Nat.le_succ_of_le hlo) (habove x hx)⟩, ⟨habove, hrise⟩, hv, hne⟩
    · rintro ⟨⟨hlo, -⟩, ⟨habove, hrise⟩, hv, hne⟩
      exact ⟨⟨hlo, hv⟩, habove, hrise, hne⟩

theorem swf_iff {m : SMap β} :
    swf z m = true ↔ m.Pairwise (fun x y => x.1 < y.1) ∧ ∀ x ∈ m, x.2 ≠ z := by
  simp [swf, swfFrom_iff]

/-- Leaving entries out keeps the canonical form. -/
theorem swf_filter {m : SMap β} (h : swf z m = true) (p : Nat × β → Bool) : swf z (m.filter p) = true := by
  obtain ⟨hrise, hne⟩ := swf_iff.1 h
  exact swf_iff.2 ⟨hrise.filter p, fun x hx => hne x (List.mem_of_mem_filter hx)⟩

theorem swf_dropRange {m : SMap β} (h : swf z m = true) (lo hi : Nat) : swf z (dropRange m lo hi) = true := swf_filter h _

/-- Writes in a row keep the canonical form. -/
theorem swf_foldl_sset {α : Type} (xs : List α) (key : α → Nat) (v : β) {m : SMap β} (h : swf z m = true) :
    swf z (xs.foldl (fun e i => sset e z (key i) v) m) = true := by
  induction xs generalizing m with
  | nil => exact h
  | cons x xs ih => exact ih (swf_sset h)

end SparseMap

/-- Filling a range with bytes keeps the canonical form: what lies below the range, in it and above it rises in this order. -/
theorem wf_fillCells {m : List Host.Cell} (h : Memory.wf m = true) (lo n : Nat) (f : Nat → Byte) :
    Memory.wf (fillCells m lo n f) = true := by
  obtain ⟨hrise, hne⟩ := swf_iff.1 h
  have hrange : ∀ c : Host.Cell, c ∈ ((List.range n).filterMap fun i => if f i = 0 then none else some (lo + i, f i)) →
      lo ≤ c.1 ∧ c.1 < lo + n ∧ c.2 ≠ 0 := by
    intro c hc
    obtain ⟨i, hi, hci⟩ := List.mem_filterMap.1 hc
    split at hci
    · cases hci
    next hzero =>
      cases hci
      exact ⟨Nat.le_add_right lo i, Nat.add_lt_add_left (List.mem_range.1 hi) lo, hzero⟩
  have hfill : ((List.range n).filterMap fun i => if f i = 0 then none else some (lo + i, f i)).Pairwise
      fun x y : Host.Cell => x.1 < y.1 := by
    refine List.Pairwise.filterMap _ (fun i j hij x hx y hy => ?_) List.pairwise_lt_range
    split at hx <;> split at hy <;> simp at hx hy
    rw [← hx, ← hy]
    exact Nat.add_lt_add_left hij lo
  refine swf_iff.2 ⟨?_, ?_⟩
  · simp only [fillCells, List.pairwise_append, List.mem_append, List.mem_filter, decide_eq_true_eq]
    refine ⟨⟨hrise.filter _, hfill, ?_⟩, hrise.filter _, ?_⟩
    · rintro x ⟨-, hx⟩ y hy
      exact Nat.lt_of_lt_of_le hx (hrange y hy).1
    · rintro x (⟨-, hx⟩ | hx) y ⟨-, hy⟩
      · omega
      · exact Nat.lt_of_lt_of_le (hrange x hx).2.1 hy
  · intro x hx
    simp only [fillCells, List.mem_append, List.mem_filter] at hx
    rcases hx with (⟨hx, -⟩ | hx) | ⟨hx, -⟩
    · exact hne x hx
    · exact (hrange x hx).2.2
    · exact hne x hx

/-! What an operation over states keeps: the queue, and the canonical form of the memories. -/

/-- The queue is as it was, and the memories are canonical where they were. -/
def State.Keeps (s t : State) : Prop := t.pending = s.pending ∧ (s.Canonical → t.Canonical)

/-- The states that the start of a word goes on with are ones that keep. -/
def Start.Keeps (s : State) : Start → Prop
  | .ok t _ => s.Keeps t
  | .ue _ t => s.Keeps t
  | _ => True

/-- The outcome is a next state that keeps. -/
def State.Answers (s : State) (o : Host.Outcome State Fault Refusal) : Prop := ∃ t, o = .next t ∧ s.Keeps t

section Keeps
variable {s t x : State}

theorem State.Keeps.refl (s : State) : s.Keeps s := ⟨rfl, id⟩

theorem State.Keeps.trans (h : s.Keeps t) (h' : t.Keeps x) : s.Keeps x := ⟨h'.1.trans h.1, fun hs => h'.2 (h.2 hs)⟩

/-- A change of the device keeps. -/
theorem State.Keeps.onDev (h : s.Keeps t) (f : Dev → Dev) : s.Keeps (t.onDev f) := ⟨h.1, fun hs => h.2 hs⟩

theorem State.keeps_onDev (s : State) (f : Dev → Dev) : s.Keeps (s.onDev f) := (State.Keeps.refl s).onDev f

theorem State.keeps_ite {p : Prop} [Decidable p] (ht : s.Keeps t) (hx : s.Keeps x) : s.Keeps (if p then t else x) := by
  split
  · exact ht
  · exact hx

/-- What each round of a loop keeps, the loop keeps. -/
theorem State.keeps_foldl {α σ : Type} (st : σ → State) (f : σ → α → σ) (xs : List α)
    (h : ∀ x a, State.Keeps (st x) (st (f x a))) (x : σ) : (st x).Keeps (st (xs.foldl f x)) := by
  induction xs generalizing x with
  | nil => exact State.Keeps.refl _
  | cons a xs ih => exact (h x a).trans (ih (f x a))

theorem State.keeps_each {α : Type} (s : State) (xs : List α) {f : State → α → State}
    (h : ∀ (t : State) a, t.Keeps (f t a)) :
    s.Keeps (s.each xs f) := State.keeps_foldl id f xs h s

/-! Bytes and marks. -/

theorem State.keeps_put (s : State) (a : Nat) (bs : List Byte) : s.Keeps (s.put a bs) :=
  ⟨rfl, fun ⟨hmem, habuf, hflash, hecc⟩ => ⟨wf_pokeN hmem, habuf, hflash, swf_foldl_sset _ _ 0 hecc⟩⟩

theorem State.keeps_mark (s : State) (a n v : Nat) : s.Keeps (s.mark a n v) :=
  ⟨rfl, fun ⟨hmem, habuf, hflash, hecc⟩ => ⟨hmem, habuf, hflash, swf_foldl_sset _ _ v hecc⟩⟩

theorem State.keeps_dieReset (s : State) (rails : Bool) : s.Keeps (s.dieReset rails) :=
  ⟨rfl, fun ⟨_, _, hflash, _⟩ => ⟨rfl, rfl, hflash, rfl⟩⟩

/-- A range filled with bytes, without a mark. -/
def State.fillArea (s : State) (a n : Nat) (f : Nat → Byte) : State :=
  { s with mem := fillCells s.mem a n f, ecc := dropRange s.ecc a (a + n) }

theorem State.keeps_fillArea (s : State) (a n : Nat) (f : Nat → Byte) : s.Keeps (s.fillArea a n f) :=
  ⟨rfl, fun ⟨hmem, habuf, hflash, hecc⟩ => ⟨wf_fillCells hmem a n f, habuf, hflash, swf_dropRange hecc _ _⟩⟩

theorem State.keeps_testArea (s : State) (u : Nat) : s.Keeps (s.testArea u) := by
  refine State.keeps_foldl id _ _ (fun t x => ?_) s
  dsimp only [id]
  exact (t.keeps_fillArea _ _ _).trans (State.keeps_onDev _ _)

/-! Reads and writes of device memory. -/

theorem State.keeps_memRead (s : State) (a n : Nat) : s.Keeps (s.memRead a n).1 := by
  unfold State.memRead
  split
  · split
    · exact s.keeps_onDev _
    · exact s.keeps_onDev _
  · split
    · exact s.keeps_onDev _
    · exact s.keeps_onDev _

theorem State.keeps_memWrite (s : State) (a : Nat) (bs : List Byte) : s.Keeps (s.memWrite a bs).1 := by
  unfold State.memWrite
  dsimp only
  split
  · split
    · exact s.keeps_onDev _
    · exact s.keeps_put a bs
  · refine State.Keeps.onDev ?_ _
    exact (s.keeps_put a bs).onDev _

/-! Sessions (R370). -/

theorem State.keeps_adapterRead (s : State) : s.Keeps s.adapterRead.1 := by
  refine State.keeps_foldl (Prod.fst : State × List Byte → State) _ _ (fun x e => ?_) (s, [])
  dsimp only
  split
  · dsimp only
    exact x.1.keeps_memRead _ _
  · exact State.Keeps.refl _

theorem State.keeps_adapterWrite (s : State) (bs : List Byte) : s.Keeps (s.adapterWrite bs) := by
  refine State.keeps_foldl (Prod.fst : State × List Byte → State) _ _ (fun x e => ?_) (s, bs)
  dsimp only
  split
  · exact x.1.keeps_memWrite _ _
  · exact State.Keeps.refl _

theorem State.keeps_saveActive (s : State) : s.Keeps s.saveActive := by
  unfold State.saveActive
  split
  · exact State.Keeps.refl s
  · exact (s.keeps_adapterRead.trans (State.keeps_memWrite _ _ _)).onDev _

theorem State.keeps_sessionSave (s : State) : s.Keeps s.sessionSave := by
  unfold State.sessionSave
  split
  · exact State.Keeps.refl s
  · exact s.keeps_saveActive.onDev _

theorem State.keeps_sessionLoad (s : State) (i : Nat) : s.Keeps (s.sessionLoad i) :=
  ((s.keeps_memRead _ _).trans (State.keeps_adapterWrite _ _)).onDev _

theorem State.keeps_sessionSwitch (s : State) (i : Nat) : s.Keeps (s.sessionSwitch i) :=
  ((s.keeps_sessionSave.onDev _).trans (State.keeps_sessionLoad _ i)).onDev _

theorem State.keeps_takeoverRest (s : State) : s.Keeps s.takeoverRest := by
  refine State.Keeps.onDev ?_ _
  split
  · exact State.Keeps.refl s
  · exact (s.keeps_onDev _).trans (State.keeps_sessionSwitch _ _)

theorem State.keeps_windowEnd (s : State) : s.Keeps s.windowEnd :=
  State.keeps_ite ((s.keeps_onDev _).trans (State.keeps_takeoverRest _)) (s.keeps_onDev _)

/-! Device states (R478, R485). -/

theorem State.keeps_goOff (s : State) : s.Keeps s.goOff := by
  unfold State.goOff
  exact ((s.keeps_onDev _).trans (State.keeps_dieReset _ _)).onDev _

theorem State.keeps_requestState (s : State) (v : Nat) : s.Keeps (s.requestState v) := by
  have hsave : s.Keeps (if v ≥ 3 then s.sessionSave.onDev fun d => d.showActive else s) :=
    State.keeps_ite (s.keeps_sessionSave.onDev _) (State.Keeps.refl s)
  unfold State.requestState
  refine State.keeps_ite (s.keeps_onDev _) <| State.keeps_ite (s.keeps_onDev _) <| State.keeps_ite (s.keeps_onDev _) <|
    State.keeps_ite (State.Keeps.refl s) <| State.keeps_ite (s.keeps_onDev _) <| State.keeps_ite (s.keeps_onDev _) <|
    State.keeps_ite (s.keeps_onDev _) <| State.keeps_ite (hsave.trans (State.keeps_goOff _)) (hsave.onDev _)

theorem State.keeps_wrPstate (s : State) (v : Nat) : s.Keeps (s.wrPstate v) :=
  (s.keeps_onDev _).trans (State.keeps_requestState _ v)

/-! Starts of engine words: none writes a memory. -/

theorem Start.Keeps.mono {r : Start} (h : s.Keeps t) (hr : r.Keeps t) : r.Keeps s := by
  cases r with
  | ok x res => exact h.trans hr
  | ue la x => exact h.trans hr
  | _ => trivial

theorem Start.keeps_orErr (e : Option Nat) {k : Unit → Start} (h : (k ()).Keeps s) : (orErr e k).Keeps s := by
  unfold orErr
  split
  · trivial
  · exact h

theorem Start.keeps_reads (u : Nat) (rs : List (Nat × Nat)) {k : State → Start} (h : ∀ t, (k t).Keeps t) (once : Bool) :
    (s.reads u rs k once).Keeps s := by
  have hcount := s.keeps_onDev fun d => d.countCe u (if once then (s.marked u 1 rs).eraseDups else s.marked u 1 rs)
  unfold State.reads
  dsimp only
  split
  · exact hcount
  · have hk := Start.Keeps.mono hcount (h _)
    split
    next heq =>
      rw [heq] at hk
      exact State.Keeps.onDev hk _
    · exact hk

theorem State.keeps_csmRuns (s : State) (site : Nat) (rs : List (Nat × Nat)) : s.Keeps (s.csmRuns site rs).1 := by
  refine State.keeps_foldl (Prod.fst : State × List Byte → State) _ rs (fun x _ => ?_) (s, [])
  exact x.1.keeps_onDev _

theorem Start.keeps_moveSrc (u x : Nat) {k : State → List Byte → Start} (h : ∀ t bs, (k t bs).Keeps t) :
    (s.moveSrc u x k).Keeps s := by
  unfold State.moveSrc
  split
  · exact Start.keeps_reads u _ (fun t => h t _) false
  · split
    · exact Start.Keeps.mono (s.keeps_csmRuns _ _) (h _ _)
    · split
      · exact h s _
      · split
        · trivial
        · split
          · trivial
          · exact h s _

theorem Start.keeps_moveGlobal (w : QWord) (u x : Nat) {k : State → List Byte → Start} (h : ∀ t bs, (k t bs).Keeps t) :
    (s.moveGlobal w u x k).Keeps s := by
  unfold State.moveGlobal
  dsimp only
  split
  · exact Start.Keeps.mono ⟨rfl, id⟩ (h _ _)
  · exact State.Keeps.onDev ⟨rfl, id⟩ _

theorem Start.keeps_cstAdd (w : QWord) (u x clu slot : Nat) : (s.cstAddStart w u x clu slot).Keeps s := by
  refine Start.keeps_orErr _ ?_
  split
  · exact Start.keeps_moveGlobal w u x fun t _ => t.keeps_onDev _
  · exact Start.keeps_moveSrc u x fun t _ => t.keeps_onDev _

theorem Start.keeps_mov (w : QWord) (u x y : Nat) : (s.movStart w u x y).Keeps s := by
  refine Start.keeps_orErr _ ?_
  dsimp only
  split
  · exact Start.keeps_moveGlobal w u x fun t _ => State.Keeps.refl t
  · exact Start.keeps_moveSrc u x fun t _ => State.Keeps.refl t

theorem Start.keeps_recv (w : QWord) (u q y : Nat) (drop : Bool) : (s.recvStart w u q y drop).Keeps s := by
  unfold State.recvStart
  split
  · trivial
  · split
    · exact s.keeps_onDev _
    · refine Start.keeps_orErr _ ?_
      split
      · trivial
      · exact s.keeps_onDev _

theorem Start.keeps_send (w : QWord) (u x chan : Nat) (sig sreg : Option Nat) :
    (s.sendStart w u x chan sig sreg).Keeps s := by
  have htake : ∀ (t : State) (f : Dev → Dev) (p : Prop) [Decidable p], t.Keeps (if p then t.onDev f else t) :=
    fun t f p _ => State.keeps_ite (t.keeps_onDev f) (State.Keeps.refl t)
  unfold State.sendStart
  refine Start.keeps_orErr _ ?_
  dsimp only
  split
  · trivial
  · split
    · exact Start.Keeps.mono ((htake s _ _).onDev _) (Start.keeps_moveGlobal w u x fun t _ => t.keeps_onDev _)
    · exact Start.keeps_moveSrc u x fun t _ => (htake t _ _).onDev _

theorem Start.keeps_vred (u rfn a sd : Nat) : (s.vredStart u rfn a sd).Keeps s := by
  refine Start.keeps_orErr _ (Start.keeps_reads u _ (fun t => ?_) false)
  dsimp only
  split
  · split <;> exact State.Keeps.refl t
  · split <;> exact State.Keeps.refl t

theorem Start.keeps_sld (u sr sa off : Nat) : (s.sldStart u sr sa off).Keeps s := by
  unfold State.sldStart
  refine Start.keeps_orErr _ (Start.keeps_reads u _ (fun t => ?_) false)
  exact State.Keeps.refl t

theorem Start.keeps_sst (v sa off : Nat) : (s.sstStart v sa off).Keeps s := by
  unfold State.sstStart
  exact Start.keeps_orErr _ (State.Keeps.refl s)

theorem Start.keeps_dld (u sa dd off : Nat) : (s.dldStart u sa dd off).Keeps s := by
  unfold State.dldStart
  refine Start.keeps_orErr _ (Start.keeps_reads u _ (fun t => ?_) false)
  exact State.Keeps.refl t

theorem Start.keeps_mac (u a w p : Nat) (acc cubeWord : Bool) : (s.macStart u a w p acc cubeWord).Keeps s := by
  unfold State.macStart
  refine Start.keeps_orErr _ (Start.keeps_reads u _ (fun t => ?_) true)
  exact t.keeps_onDev _

theorem Start.keeps_vop (u fn a b c r sc : Nat) (bs : Bool) : (s.vopStart u fn a b c r sc bs).Keeps s := by
  unfold State.vopStart
  refine Start.keeps_orErr _ (Start.keeps_reads u _ (fun t => ?_) false)
  exact State.Keeps.refl t

theorem Start.keeps_cvt (u src dst b e sc lo hi rnd : Nat) (ben sen cen een : Bool) :
    (s.cvtStart u src dst b e sc lo hi rnd ben sen cen een).Keeps s := by
  unfold State.cvtStart
  refine Start.keeps_orErr _ (Start.keeps_reads u _ (fun t => ?_) false)
  exact State.Keeps.refl t

theorem Start.keeps_chk (u cfn a b pd sd : Nat) : (s.chkStart u cfn a b pd sd).Keeps s := by
  unfold State.chkStart
  refine Start.keeps_orErr _ (Start.keeps_reads u _ (fun t => ?_) false)
  exact State.Keeps.refl t

theorem Start.keeps_word (u : Nat) (w : QWord) : (s.wordStart u w).Keeps s := by
  unfold State.wordStart
  split
  next => exact Start.keeps_mov w u _ _
  next => exact Start.keeps_recv w u _ _ _
  next => exact Start.keeps_send w u _ _ _ _
  next => exact s.keeps_onDev _
  next => exact Start.keeps_cstAdd w u _ _ _
  next => exact Start.keeps_sld u _ _ _
  next => exact Start.keeps_sst _ _ _
  next => exact Start.keeps_dld u _ _ _
  next => exact Start.keeps_mac u _ _ _ _ _
  next => exact Start.keeps_mac u _ _ _ _ _
  next => exact Start.keeps_vop u _ _ _ _ _ _ _
  next => exact Start.keeps_vred u _ _ _
  next => exact Start.keeps_cvt u _ _ _ _ _ _ _ _ _ _ _ _
  next => exact Start.keeps_chk u _ _ _ _ _
  next => exact State.Keeps.refl s

end Keeps

section Keeps
variable {s t x : State}

/-! Issue of words (R91 to R103, R139). -/

/-- The state in which the head of a queue starts: a CUBE or DOT word has asked for a ramp window (R463). -/
def State.rampAsked (s : State) (u : Nat) (w : QWord) : State :=
  if w.started || ((syncOf w.body).waitEn && s.dev.fld F.COR_SEM_V u (syncOf w.body).waitSem.toNat = 0) || !isMac w.body then s
  else s.onDev fun d => d.rampAsk (u / 256)

/-- The start of the head of a queue that has asked for its ramp window, where its WAIT semaphore holds v (R96, R97). -/
def State.startAsked (s : State) (u : Nat) (w : QWord) (v : Nat) : State :=
  let take (t : State) : State :=
    if (syncOf w.body).waitEn then t.onDev fun d => d.setF F.COR_SEM_V u (v - 1) (syncOf w.body).waitSem.toNat else t
  if w.started || ((syncOf w.body).waitEn && v = 0) || (isMac w.body && s.dev.rampHeld (u / 256)) then s
  else match s.wordStart u w with
    | .wait _ => s
    | .err c => (take s).onDev fun d => d.descErr u w.seq w.pc (opcOf w.body).toNat c
    | .ue la t => (take t).onDev fun d => d.eccStop u w.seq w.pc (opcOf w.body).toNat la
    | .ok t r => (take t).onDev fun d => (d.macTook u w.body).modWord u w.seq fun x =>
        { x with started := true, res := if r = WordRes.none then x.res else r }

theorem State.startHead_of_cons {s : State} {u : Nat} {q : EngQ} {w : QWord} {ws : List QWord}
    (h : (s.dev.core u).queue q = w :: ws) :
    s.startHead u q = (s.rampAsked u w).startAsked u w (s.dev.fld F.COR_SEM_V u (syncOf w.body).waitSem.toNat) := by
  unfold State.startHead
  rw [h]
  rfl

theorem State.startHead_of_nil {s : State} {u : Nat} {q : EngQ} (h : (s.dev.core u).queue q = []) : s.startHead u q = s := by
  unfold State.startHead
  rw [h]

theorem State.keeps_rampAsked (s : State) (u : Nat) (w : QWord) : s.Keeps (s.rampAsked u w) :=
  State.keeps_ite (State.Keeps.refl s) (s.keeps_onDev _)

theorem State.keeps_startAsked (s : State) (u : Nat) (w : QWord) (v : Nat) : s.Keeps (s.startAsked u w v) := by
  unfold State.startAsked
  refine State.keeps_ite (State.Keeps.refl s) ?_
  have hstart := Start.keeps_word (s := s) u w
  split
  next => exact State.Keeps.refl s
  next => exact (State.keeps_ite (s.keeps_onDev _) (State.Keeps.refl s)).onDev _
  next heq =>
    rw [heq] at hstart
    exact State.Keeps.onDev (State.keeps_ite (State.Keeps.onDev hstart _) hstart) _
  next heq =>
    rw [heq] at hstart
    exact State.Keeps.onDev (State.keeps_ite (State.Keeps.onDev hstart _) hstart) _

theorem State.keeps_startHead (s : State) (u : Nat) (q : EngQ) : s.Keeps (s.startHead u q) := by
  rcases hq : (s.dev.core u).queue q with _ | ⟨w, ws⟩
  · rw [State.startHead_of_nil hq]
    exact State.Keeps.refl s
  · rw [State.startHead_of_cons hq]
    exact (s.keeps_rampAsked u w).trans (State.keeps_startAsked _ _ _ _)

theorem State.keeps_issueWord (s : State) (u : Nat) (w : SWord) (wasHeld step : Bool) :
    s.Keeps (s.issueWord u w wasHeld step) := by
  unfold State.issueWord
  dsimp only
  refine State.keeps_ite (s.keeps_onDev _) <| State.keeps_ite (s.keeps_onDev _) <| State.keeps_ite (s.keeps_onDev _) <|
    State.keeps_ite (s.keeps_onDev _) ?_
  split
  · exact State.keeps_ite (s.keeps_onDev _) (((s.keeps_onDev _).trans (State.keeps_startHead _ u _)).onDev _)
  · split
    · exact ⟨rfl, id⟩
    · exact s.keeps_onDev _
    · exact s.keeps_onDev _

theorem State.keeps_coreStep (s : State) (u : Nat) : s.Keeps (s.coreStep u) := by
  unfold State.coreStep
  dsimp only
  refine State.keeps_ite (State.keeps_ite (s.keeps_onDev _) ?_) (State.Keeps.refl s)
  split
  · exact (s.keeps_onDev _).trans (State.keeps_issueWord _ _ _ _ _)
  · exact State.keeps_ite ((s.keeps_onDev _).onDev _) ((s.keeps_onDev _).onDev _)

/-! Register writes (R10 to R12). -/

theorem State.keeps_ringPop (s : State) (site r : Nat) : s.Keeps (s.ringPop site r) :=
  State.keeps_ite (State.Keeps.refl s) (s.keeps_onDev _)

theorem State.keeps_wrRingCfg (s : State) (site r v : Nat) : s.Keeps (s.wrRingCfg site r v) :=
  State.keeps_ite ((s.keeps_onDev _).trans (State.keeps_ringPop _ _ _)) (s.keeps_onDev _)

theorem State.keeps_wrCorCtrl (s : State) (u v : Nat) : s.Keeps (s.wrCorCtrl u v) :=
  State.keeps_ite ((s.keeps_onDev _).trans (State.keeps_coreStep _ _)) (s.keeps_onDev _)

theorem State.keeps_wordWrite (s : State) (blk inst : Nat) (r : Reg) (i v : Nat) : s.Keeps (s.wordWrite blk inst r i v) := by
  unfold State.wordWrite
  exact State.keeps_ite (s.keeps_wrCorCtrl _ _) <| State.keeps_ite (s.keeps_wrRingCfg _ _ _) <|
    State.keeps_ite (s.keeps_wrPstate _) (s.keeps_onDev _)

theorem State.keeps_regWrite (s : State) (blk inst off size v : Nat) : s.Keeps (s.regWrite blk inst off size v) := by
  unfold State.regWrite
  split
  · exact State.Keeps.refl s
  · exact s.keeps_wordWrite _ _ _ _ _

theorem State.keeps_loadReg (port : Nat) (s : State) (x : RegLoad) : s.Keeps (s.loadReg port x) := by
  unfold State.loadReg
  split
  · split
    · exact State.keeps_ite (s.keeps_onDev _) <| State.keeps_ite (s.keeps_onDev _) <|
        State.keeps_ite ((s.keeps_onDev _).trans (State.keeps_regWrite _ _ _ _ _ _)) (s.keeps_regWrite _ _ _ _ _)
    · exact State.Keeps.refl s
  · exact State.Keeps.refl s

theorem State.keeps_policyIn (s : State) : s.Keeps s.policyIn := by
  unfold State.policyIn
  split
  · exact State.Keeps.refl s
  · exact (State.keeps_each s _ fun t x => t.keeps_loadReg 250 x).onDev _

/-! Visits of Skink (R589 to R595). -/

theorem State.keeps_scrub (s : State) (x : SkinkUnit) (hits : List ScrubHit) : s.Keeps (s.scrub x hits) :=
  (State.keeps_each s _ fun t _ => State.keeps_ite (t.keeps_mark _ _ _) (State.Keeps.refl t)).onDev _

theorem State.keeps_visit (s : State) (v : UnitVisit) (cause : Nat) : s.Keeps (s.visit v cause) := by
  have harea : s.Keeps (match v.unit with | .core c => s.testArea (cu c.site.val c.core.val) | _ => s) := by
    split
    · exact s.keeps_testArea _
    · exact State.Keeps.refl s
  exact (State.keeps_ite ((harea.onDev _).trans (State.keeps_scrub _ _ _)) (harea.onDev _)).onDev _

theorem State.keeps_testRun (s : State) (p0 : Nat) (visits : List UnitVisit) : s.Keeps (s.testRun p0 visits).1 := by
  refine State.keeps_foldl (Prod.fst : State × Nat × Nat → State) _ _ (fun x v => ?_) (s, 0, 0)
  split
  · exact x.1.keeps_visit v 4
  · exact State.Keeps.refl _

/-! The outcomes of commands. -/

/-- The outcome that takes the queue of a state that keeps. -/
theorem State.Keeps.answers_done (h : s.Keeps t) (x : State) : s.Answers (t.done x) := by
  obtain ⟨y, hy, hpending⟩ := t.done_answers x
  exact ⟨y, hy, hpending.trans h.1, fun _ => State.done_canonical hy⟩

theorem State.answers_done (s x : State) : s.Answers (s.done x) := (State.Keeps.refl s).answers_done x

/-- A change of the device alone, in a state that keeps. -/
theorem State.Keeps.answers_upd (h : s.Keeps t) (f : Dev → Dev) : s.Answers (t.upd f) := ⟨_, rfl, h.onDev f⟩

theorem State.answers_upd (s : State) (f : Dev → Dev) : s.Answers (s.upd f) := (State.Keeps.refl s).answers_upd f

theorem State.answers_dev (s : State) (d : Dev) : s.Answers (.next { s with dev := d }) := s.answers_upd fun _ => d

/-- A change of the device that may lose domains, in a state that keeps. -/
theorem State.Keeps.answers_updLost (h : s.Keeps t) (f : Dev → Dev) : s.Answers (t.updLost f) := by
  unfold State.updLost
  split
  · obtain ⟨x, hx, hkeeps⟩ := t.answers_done (t.lostEnd (f t.dev))
    exact ⟨x, hx, h.trans hkeeps⟩
  · exact h.answers_upd f

theorem State.answers_updLost (s : State) (f : Dev → Dev) : s.Answers (s.updLost f) := (State.Keeps.refl s).answers_updLost f

theorem State.answers_ite {p : Prop} [Decidable p] {o o' : Host.Outcome State Fault Refusal} (h : s.Answers o)
    (h' : s.Answers o') : s.Answers (if p then o else o') := by
  split
  · exact h
  · exact h'

theorem State.answers_word (s : State) (c : Core) (g : Guard) (b : WordBody) : s.Answers (s.word c g b) :=
  State.answers_ite (s.answers_done _) (State.answers_ite (s.answers_done _) (s.answers_done _))

end Keeps

variable {s : State}

/-! The commands that end in several ways, in the order of their meanings. -/

theorem execCisternRearm_answers (site : Site) (slot : BitVec 8) : s.Answers (execCisternRearm site slot s) :=
  State.answers_ite (s.answers_done _) (s.answers_done _)

theorem execRingWaitEnd_answers (site : Site) (ring : Fin 32) : s.Answers (execRingWaitEnd site ring s) := by
  unfold execRingWaitEnd
  dsimp only
  split
  · exact s.answers_done _
  · split
    · exact s.answers_done _
    · exact s.answers_done _

theorem execPop_answers (site : Site) (ring : Fin 32) : s.Answers (execPop site ring s) :=
  State.answers_ite (s.answers_done _) (s.answers_done _)

theorem execIssueResume_answers (c : Core) : s.Answers (execIssueResume c s) := by
  unfold execIssueResume
  dsimp only
  split
  · exact State.answers_ite (s.answers_done _) (s.answers_done _)
  · exact s.answers_done _

theorem execUpdate_answers (site : Site) (body : List Byte) : s.Answers (execUpdate site body s) :=
  State.answers_ite (s.answers_done _) (State.answers_ite (s.answers_done _) (s.answers_done _))

theorem execRollback_answers (site : Site) (body : List Byte) : s.Answers (execRollback site body s) :=
  State.answers_ite (s.answers_done _) (State.answers_ite (s.answers_done _) (s.answers_done _))

theorem execSelect_answers (site : Site) (body : List Byte) : s.Answers (execSelect site body s) :=
  State.answers_ite (s.answers_done _) (State.answers_ite (s.answers_done _) (s.answers_done _))

theorem execStreamFaceDone_answers (h : Fin 16) (half : HalfDone) : s.Answers (execStreamFaceDone h half s) := by
  unfold execStreamFaceDone
  dsimp only
  split
  · exact s.answers_done _
  · exact State.answers_ite (s.answers_done _) <| State.answers_ite (s.answers_done _) <|
      State.answers_ite (s.answers_done _) (s.answers_done _)

theorem execCommandStart_answers (seq : BitVec 64) : s.Answers (execCommandStart seq s) := by
  unfold execCommandStart
  dsimp only
  split
  · exact s.answers_done _
  · refine State.answers_ite (s.answers_done _) <| State.answers_ite (s.answers_done _) <|
      State.answers_ite (s.answers_done _) <| State.answers_ite (s.answers_done _) <|
      State.answers_ite (s.answers_done _) <| State.answers_ite (s.answers_done _) <|
      State.answers_ite (s.answers_done _) ?_
    split
    · exact s.answers_done _
    · exact s.answers_done _

theorem execSessionOpen_answers (seq : BitVec 64) : s.Answers (execSessionOpen seq s) := by
  unfold execSessionOpen
  split
  · exact s.answers_done _
  · dsimp only
    split
    · exact s.answers_done _
    · exact (State.keeps_ite (s.keeps_put _ _) (State.Keeps.refl s)).answers_done _

theorem execDomainEntryComplete_answers (dom : Fin 312) : s.Answers (execDomainEntryComplete dom s) := by
  unfold execDomainEntryComplete
  dsimp only
  split
  · exact s.answers_done _
  · exact s.answers_done _

theorem execNvmOpDone_answers : s.Answers (execNvmOpDone s) := by
  unfold execNvmOpDone
  split
  · exact s.answers_done _
  · exact s.answers_done _

theorem execRegisterWrite_answers (addr : BitVec 48) (eight : Bool) (v : Word) :
    s.Answers (execRegisterWrite addr eight v s) := by
  unfold execRegisterWrite
  split
  · refine State.answers_ite (s.answers_done _) ?_
    split
    · exact s.answers_done _
    · exact s.answers_done _
  · exact s.answers_done _

theorem execCircuitFlit_answers (site : Site) (port : Fin 7) (slot : Fin 8) (f : CircMet) :
    s.Answers (execCircuitFlit site port slot f s) := by
  unfold execCircuitFlit
  dsimp only
  split
  · exact s.answers_done _
  · exact State.answers_ite (s.answers_done _) (State.answers_ite (s.answers_done _) (s.answers_done _))

theorem execCopy_answers (seq : BitVec 64) : s.Answers (execCopy seq s) := by
  unfold execCopy
  split
  · exact s.answers_done _
  · exact s.answers_done _

theorem execPrefill_answers (seq : BitVec 64) : s.Answers (execPrefill seq s) := by
  unfold execPrefill
  split
  · exact s.answers_done _
  · exact s.answers_done _

theorem execSnapshot_answers (seq : BitVec 64) : s.Answers (execSnapshot seq s) := by
  unfold execSnapshot
  split
  · exact s.answers_done _
  · exact s.answers_done _

theorem execRestore_answers (seq : BitVec 64) : s.Answers (execRestore seq s) := by
  unfold execRestore
  split
  · exact s.answers_done _
  · exact s.answers_done _

theorem execLiveSwapPrecopy_answers (rewritten : List MemLoad) : s.Answers (execLiveSwapPrecopy rewritten s) := by
  unfold execLiveSwapPrecopy
  split
  · exact s.answers_done _
  · split
    · exact s.answers_done _
    · exact State.answers_ite (s.answers_done _) (s.answers_done _)

theorem execWindowOpen_answers (sectionsOk : Bool) : s.Answers (execWindowOpen sectionsOk s) := by
  unfold execWindowOpen
  refine State.answers_ite (s.answers_done _) ?_
  split
  · exact s.answers_done _
  · exact State.answers_ite (s.answers_done _) (s.answers_done _)

theorem execHaltWaitExpiry_answers : s.Answers (execHaltWaitExpiry s) := by
  unfold execHaltWaitExpiry
  split
  · exact s.answers_done _
  · exact s.answers_done _

theorem execFieldLossRestart_answers (img : Images) (t : StartTest) : s.Answers (execFieldLossRestart img t s) := by
  unfold execFieldLossRestart
  split
  · exact s.answers_done _
  · exact s.answers_done _

theorem execFieldLoss_answers (f : FieldN) : s.Answers (execFieldLoss f s) :=
  State.answers_ite (s.answers_done _) (s.answers_updLost _)

theorem execRailLoss_answers (rail : Fin 20) : s.Answers (execRailLoss rail s) :=
  State.answers_ite (s.answers_done _) (s.answers_updLost _)

theorem execResetN_answers (low : Bool) : s.Answers (execResetN low s) :=
  State.answers_ite (s.answers_done _) (State.answers_ite (s.answers_done _) (s.answers_done _))

theorem execRailQualified_answers : s.Answers (execRailQualified s) :=
  State.answers_ite (s.answers_done _) (State.answers_ite (s.answers_done _) (s.answers_done _))

theorem execRegionReload_answers (seq : BitVec 64) (img : Image) (check : CopyCheck) (drainStatus : BitVec 3) :
    s.Answers (execRegionReload seq img check drainStatus s) := by
  unfold execRegionReload
  split
  · exact s.answers_done _
  · dsimp only
    split
    · exact s.answers_done _
    · exact s.answers_done _

theorem execPhaseStatusRead_answers (f : FieldN) (answered : Bool) (good : BitVec 5) :
    s.Answers (execPhaseStatusRead f answered good s) := s.answers_updLost _

theorem execLdoFail_answers (site : Site) (cause : LdoCause) : s.Answers (execLdoFail site cause s) := s.answers_updLost _

theorem execFabldoFail_answers (f : FieldN) (ldo1 : Bool) : s.Answers (execFabldoFail f ldo1 s) := s.answers_updLost _

theorem execPllFail_answers (f : FieldN) (pll1 : Bool) : s.Answers (execPllFail f pll1 s) := s.answers_updLost _

theorem execAgeCheck_answers : s.Answers (execAgeCheck s) := by
  unfold execAgeCheck
  exact (s.keeps_onDev _).answers_done _

theorem execSidebandRegisterAccess_answers (write : Bool) (addr : BitVec 48) (eight : Bool) (v : Word) :
    s.Answers (execSidebandRegisterAccess write addr eight v s) := s.answers_done _

/-! Three commands end by a change of the device in a state whose memories they have changed: there what they did before has to keep
the canonical form. -/

theorem execEstimationTick_answers (m : TickMeas) : s.Answers (execEstimationTick m s) :=
  State.answers_ite (s.answers_done _) (s.keeps_policyIn.answers_updLost _)

theorem execObservationVisit_answers (c : Core) (r : VisitResult) (passes : Nat) :
    s.Answers (execObservationVisit c r passes s) :=
  State.answers_ite (s.answers_done _) ((s.keeps_testArea _).answers_upd _)

theorem execTest_answers (seq : BitVec 64) (cores clusters ldos : List UnitVisit) :
    s.Answers (execTest seq cores clusters ldos s) := by
  unfold execTest
  split
  · exact s.answers_done _
  · refine State.answers_ite (s.answers_upd _) (State.answers_ite (s.answers_upd _) ?_)
    have hrun : ∀ (f g : Dev → Dev) p0 visits, s.Keeps (((s.onDev f).testRun p0 visits).1.onDev g) :=
      fun f g p0 visits => ((s.keeps_onDev f).trans (State.keeps_testRun _ p0 visits)).onDev g
    refine State.Keeps.answers_upd (State.keeps_ite ?_ (hrun _ _ _ _)) _
    exact ((hrun _ _ _ _).onDev _).trans (State.keeps_windowEnd _)

/-! Every command. -/

/-- Every command answers a next state with the queue as it was, which is canonical where the state before was. The rows of the
table that are not named change the device alone. -/
theorem exec_answers (i : Instr) (s : State) : s.Answers (exec i s) := by
  cases i with
  | nop | end_ | br | loop | lset | pset | plog | salu | salui | sli | qrd | dadd | semWait | semAdd | semSub | fenceLocal
  | fenceOutbound | fenceFull | route | phase | sleep | mov | recv | send | cstArm | cstAdd | sld | sst | dld | cube | dot
  | vop | vred | cvt | chk => exact s.answers_word _ _ _
  | eventOccurrence | step | mirrorWrite | mirrorJournal | mirrorStep | mirrorSession | mirrorCommand | resyncRequest | beat
  | linkBlock | target | write | writeAck | readReq | readResp | ack | fabTimeout | msg | creditMessage | creditRequest
  | testPacket | wr | rd | wake | skinkVisit | coldStart | warmReset | bsqWarm =>
    exact s.answers_done _
  | engineWordStart | engineWordComplete | hbmScrub | celScrub | domainExit | wakeFail =>
    exact State.answers_ite (s.answers_done _) (s.answers_done _)
  | phaseStatusRead => exact execPhaseStatusRead_answers _ _ _
  | ldoFail => exact execLdoFail_answers _ _
  | fabldoFail => exact execFabldoFail_answers _ _
  | pllFail => exact execPllFail_answers _ _
  | ageCheck => exact execAgeCheck_answers
  | sidebandRegisterAccess => exact execSidebandRegisterAccess_answers _ _ _ _
  | cisternRearm => exact execCisternRearm_answers _ _
  | ringWaitEnd => exact execRingWaitEnd_answers _ _
  | pop => exact execPop_answers _ _
  | issueResume => exact execIssueResume_answers _
  | update => exact execUpdate_answers _ _
  | rollback => exact execRollback_answers _ _
  | select => exact execSelect_answers _ _
  | streamFaceDone => exact execStreamFaceDone_answers _ _
  | commandStart => exact execCommandStart_answers _
  | sessionOpen => exact execSessionOpen_answers _
  | domainEntryComplete => exact execDomainEntryComplete_answers _
  | nvmOpDone => exact execNvmOpDone_answers
  | registerWrite => exact execRegisterWrite_answers _ _ _
  | circuitFlit => exact execCircuitFlit_answers _ _ _ _
  | copy => exact execCopy_answers _
  | prefill => exact execPrefill_answers _
  | snapshot => exact execSnapshot_answers _
  | restore => exact execRestore_answers _
  | liveSwapPrecopy => exact execLiveSwapPrecopy_answers _
  | windowOpen => exact execWindowOpen_answers _
  | haltWaitExpiry => exact execHaltWaitExpiry_answers
  | fieldLossRestart => exact execFieldLossRestart_answers _ _
  | fieldLoss => exact execFieldLoss_answers _
  | railLoss => exact execRailLoss_answers _
  | resetN => exact execResetN_answers _
  | railQualified => exact execRailQualified_answers
  | regionReload => exact execRegionReload_answers _ _ _ _
  | estimationTick => exact execEstimationTick_answers _
  | observationVisit => exact execObservationVisit_answers _ _ _
  | test => exact execTest_answers _ _ _ _
  | _ => exact s.answers_dev _

/-! Steps and runs. -/

/-- A step answers a state that is canonical where the one before was, and takes the front command off the queue. -/
theorem step_answers (s : State) :
    ∃ t, step s = .next t ∧ t.pending = s.pending.drop 1 ∧ (s.Canonical → t.Canonical) := by
  unfold step
  split
  next h => exact ⟨_, rfl, by simp [h], id⟩
  next i rest h =>
    obtain ⟨t, ht, hpending, hcanonical⟩ := exec_answers i { s with pending := rest }
    exact ⟨t, ht, by simp [hpending, h], hcanonical⟩

/-! The counterexamples. -/

/-- A device in Off (R476). -/
def offDev : Dev := Dev.reset.setF F.PCH_PSTATE_STATUS_STATE 0 4

/-- A device wake that waits for cluster 0 alone, whose LDO is on, while a request for Off waits for the wake's end (R478, R484),
with a byte of memory that is not 0. -/
def wakingState : State :=
  { State.reset with
    mem := [(0x1000000000, 1)]
    dev := ((Dev.reset.setF F.FLD_LDO_STATE 0 2 0).setF F.PCH_PSTATE_STATUS_CHANGING 0 1).modPch fun p =>
      { p with waking := true, waitTarget := some 4, todo := [0] } }

/-- The LDO failure that loses the cluster ends the wake, and the change to Off that waited clears the memory (R485, R490). -/
theorem ldoFail_clears_wakingState :
    (match exec (.ldoFail 0 .low) wakingState with
      | .next t => peek t.mem 0x1000000000
      | _ => peek wakingState.mem 0x1000000000) = 0 := by decide +kernel

/-! The statements. -/

/-- Settles O3: every command answers a canonical state (`exec_answers`), and so does the idle step, which changes the device alone. -/
theorem stepKeepsMemoriesCanonical : Obligations.StepKeepsMemoriesCanonical := by
  intro s t hs ht
  obtain ⟨x, hx, -, hcanonical⟩ := step_answers s
  cases hx.symm.trans ht
  exact hcanonical hs

/-- Settles O4. -/
theorem resetIsCanonical : Obligations.ResetIsCanonical := ⟨⟨rfl, rfl, rfl, rfl⟩, rfl⟩

/-- Settles O5, by induction on the number of steps. -/
theorem runsAreSafe : Obligations.RunsAreSafe := by
  intro n
  induction n with
  | zero => exact fun s hs => ⟨s, rfl, hs, rfl⟩
  | succ n ih =>
    intro s hs
    obtain ⟨t, ht, hpending, hcanonical⟩ := step_answers s
    obtain ⟨x, hx, hxcanonical, hxpending⟩ := ih t (hcanonical hs)
    refine ⟨x, ?_, hxcanonical, ?_⟩
    · rw [runSteps, ht]
      exact hx
    · rw [hxpending, hpending, List.drop_drop, Nat.add_comm]

/-- Refutes O1: in Off the tick of the master counter does not move network time, although FREQ_ADJ is 0. -/
theorem not_stepRunsTheFrontCommand : ¬ Obligations.StepRunsTheFrontCommand := by
  intro h
  obtain ⟨t, ht, -, -, -, -, hsub⟩ := h.2 { State.reset with dev := offDev } rfl
  cases ht
  exact absurd (hsub (by decide +kernel)) (by decide +kernel)

/-- Refutes O2: a failure of an LDO is no command with memory access, but where it loses the last cluster that a device wake waits
for while a request for Off waits, the device goes off and its memories lose their bytes. -/
theorem not_everyCommandAnswers : ¬ Obligations.EveryCommandAnswers := by
  intro h
  obtain ⟨t, ht, -, hkept⟩ := h (.ldoFail 0 .low) wakingState
  obtain ⟨hmem, -⟩ := hkept rfl
  have hclear := ldoFail_clears_wakingState
  rw [ht] at hclear
  dsimp only at hclear
  rw [← hmem] at hclear
  exact absurd hclear (by decide)

end Sys2Proof.Machine
end

section
/-! PROOF. Schedule words and their encoding (spec/03_schedule_words.md, Word layout, R99, R101). First what a field of a word reads
where fields have been placed; then the parts of an encoded word; then the statement. -/

namespace Sys2Proof.Machine

/-! Fields of words: a field reads what was placed there, and what was placed apart from it does not show. -/

@[simp] theorem wFld_or (a b : BitVec 64) (lo len : Nat) : wFld (a ||| b) lo len = wFld a lo len ||| wFld b lo len := by
  simp [wFld, BitVec.extractLsb'_or]

@[simp] theorem wFld_zero (lo len : Nat) : wFld 0#64 lo len = 0#len := by
  simp [wFld]

theorem getLsbD_pFld {n : Nat} (v : BitVec n) (lo i : Nat) :
    (pFld v lo).getLsbD i = (decide (i < 64) && decide (lo ≤ i) && v.getLsbD (i - lo)) := by
  have hlt : i < 64 → i - lo < 64 := by omega
  simp only [pFld, BitVec.getLsbD_shiftLeft, BitVec.getLsbD_setWidth]
  by_cases hi : i < 64 <;> by_cases hlo : lo ≤ i <;> simp [hi, hlo, hlt]

@[simp] theorem wFld_pFld_self {n lo : Nat} (h : lo + n ≤ 64) (v : BitVec n) : wFld (pFld v lo) lo n = v := by
  refine BitVec.eq_of_getLsbD_eq fun i hi => ?_
  have hlt : lo + i < 64 := by omega
  rw [wFld, BitVec.getLsbD_extractLsb', getLsbD_pFld]
  simp [hi, hlt]

theorem wFld_pFld_apart {n lo lo' len : Nat} (h : lo' + n ≤ lo ∨ lo + len ≤ lo') (v : BitVec n) :
    wFld (pFld v lo') lo len = 0#len := by
  refine BitVec.eq_of_getLsbD_eq fun i hi => ?_
  rw [wFld, BitVec.getLsbD_extractLsb', getLsbD_pFld, BitVec.getLsbD_zero]
  rcases h with h | h
  · simp [BitVec.getLsbD_of_ge v (lo + i - lo') (by omega)]
  · simp [show ¬ lo' ≤ lo + i by omega]

/-- A bit of a word is a field of one bit. -/
theorem wBool_eq_wFld (w : BitVec 64) (lo : Nat) : wBool w lo = (wFld w lo 1).getLsbD 0 := by
  simp [wBool, wFld]

@[simp] theorem wBool_or (a b : BitVec 64) (lo : Nat) : wBool (a ||| b) lo = (wBool a lo || wBool b lo) := by
  simp [wBool]

@[simp] theorem wBool_zero (lo : Nat) : wBool 0#64 lo = false := by
  simp [wBool]

@[simp] theorem wBool_pBool_self {lo : Nat} (h : lo + 1 ≤ 64) (b : Bool) : wBool (pBool b lo) lo = b := by
  rw [wBool_eq_wFld, pBool, wFld_pFld_self h]
  cases b <;> rfl

theorem wBool_pFld_apart {n lo lo' : Nat} (h : lo' + n ≤ lo ∨ lo + 1 ≤ lo') (v : BitVec n) : wBool (pFld v lo') lo = false := by
  rw [wBool_eq_wFld, wFld_pFld_apart h]
  rfl

theorem wFld_pBool_apart {lo lo' len : Nat} (h : lo' + 1 ≤ lo ∨ lo + len ≤ lo') (b : Bool) : wFld (pBool b lo') lo len = 0 :=
  wFld_pFld_apart h _

theorem wBool_pBool_apart {lo lo' : Nat} (h : lo' + 1 ≤ lo ∨ lo + 1 ≤ lo') (b : Bool) : wBool (pBool b lo') lo = false :=
  wBool_pFld_apart h _

/-! The parts of an encoded word. -/

/-- WAIT and POST stand in bits 40 to 53. -/
theorem wFld_pSync_apart {lo len : Nat} (h : 54 ≤ lo ∨ lo + len ≤ 40) (y : Sync) : wFld (pSync y) lo len = 0 := by
  simp only [pSync, wFld_or]
  rw [wFld_pBool_apart (by omega), wFld_pFld_apart (by omega), wFld_pBool_apart (by omega), wFld_pFld_apart (by omega)]
  simp

theorem wBool_pSync_apart {lo : Nat} (h : 54 ≤ lo ∨ lo + 1 ≤ 40) (y : Sync) : wBool (pSync y) lo = false := by
  rw [wBool_eq_wFld, wFld_pSync_apart h]
  rfl

/-- The guard stands in bits 54 to 57. -/
theorem wFld_pGuard_apart {lo len : Nat} (h : 58 ≤ lo ∨ lo + len ≤ 54) (g : Guard) : wFld (pGuard g) lo len = 0 := by
  simp only [pGuard, wFld_or]
  rw [wFld_pBool_apart (by omega), wFld_pFld_apart (by omega)]
  simp

theorem wBool_pGuard_apart {lo : Nat} (h : 58 ≤ lo ∨ lo + 1 ≤ 54) (g : Guard) : wBool (pGuard g) lo = false := by
  rw [wBool_eq_wFld, wFld_pGuard_apart h]
  rfl

/-- The fields of a body stand below bit 54. -/
theorem wFld_pBody_above {lo len : Nat} (h : 54 ≤ lo) (b : WordBody) : wFld (pBody b) lo len = 0 := by
  have hfld : ∀ {n : Nat} (v : BitVec n) (lo' : Nat), lo' + n ≤ 54 → wFld (pFld v lo') lo len = 0 :=
    fun v lo' hv => wFld_pFld_apart (by omega) v
  have hbool : ∀ (v : Bool) (lo' : Nat), lo' + 1 ≤ 54 → wFld (pBool v lo') lo len = 0 :=
    fun v lo' hv => wFld_pBool_apart (by omega) v
  cases b <;> simp [pBody, hfld, hbool, wFld_pSync_apart (Or.inl h)]

theorem wBool_pBody_above {lo : Nat} (h : 54 ≤ lo) (b : WordBody) : wBool (pBody b) lo = false := by
  rw [wBool_eq_wFld, wFld_pBody_above h]
  rfl

/-- Below the guard an encoded word reads as its body. -/
theorem wFld_encodeWord_below {lo len : Nat} (h : lo + len ≤ 54) (x : SWord) :
    wFld (encodeWord x) lo len = wFld (pBody x.b) lo len := by
  simp [encodeWord, wFld_pFld_apart (show 58 + 6 ≤ lo ∨ lo + len ≤ 58 by omega), wFld_pGuard_apart (show 58 ≤ lo ∨ lo + len ≤ 54 by omega)]

theorem wBool_encodeWord_below {lo : Nat} (h : lo + 1 ≤ 54) (x : SWord) : wBool (encodeWord x) lo = wBool (pBody x.b) lo := by
  rw [wBool_eq_wFld, wBool_eq_wFld, wFld_encodeWord_below h]

theorem opcode_encodeWord (x : SWord) : wFld (encodeWord x) 58 6 = opcOf x.b := by
  simp [encodeWord, wFld_pGuard_apart, wFld_pBody_above]

theorem wGuard_encodeWord (x : SWord) : wGuard (encodeWord x) = x.g := by
  have hpn : wBool (encodeWord x) 57 = x.g.pn := by
    simp [encodeWord, pGuard, wBool_pFld_apart, wBool_pBody_above]
  have hpred : wFld (encodeWord x) 54 3 = x.g.pred := by
    simp [encodeWord, pGuard, wFld_pFld_apart, wFld_pBool_apart, wFld_pBody_above]
  rw [wGuard, hpn, hpred]

/-- WAIT and POST of a word whose body begins with them and has the other fields below. -/
theorem wSync_eq {x : SWord} {y : Sync} (h : ∀ lo len, 40 ≤ lo → wFld (pBody x.b) lo len = wFld (pSync y) lo len) :
    wSync (encodeWord x) = y := by
  have hbool : ∀ lo, 40 ≤ lo → lo + 1 ≤ 54 → wBool (encodeWord x) lo = wBool (pSync y) lo := fun lo hlo hhi => by
    rw [wBool_encodeWord_below hhi, wBool_eq_wFld, wBool_eq_wFld, h lo 1 hlo]
  have hfld : ∀ lo len, 40 ≤ lo → lo + len ≤ 54 → wFld (encodeWord x) lo len = wFld (pSync y) lo len := fun lo len hlo hhi => by
    rw [wFld_encodeWord_below hhi, h lo len hlo]
  simp [wSync, hbool, hfld, pSync, wFld_pFld_apart, wFld_pBool_apart, wBool_pFld_apart, wBool_pBool_apart]

/-- The body of an engine word reads from bit 40 on as its WAIT and POST. -/
theorem wFld_pBody_sync {b : WordBody} {q : EngQ} (h : queueOf b = some q) {lo len : Nat} (hlo : 40 ≤ lo) :
    wFld (pBody b) lo len = wFld (pSync (syncOf b)) lo len := by
  have hfld : ∀ {n : Nat} (v : BitVec n) (lo' : Nat), lo' + n ≤ 40 → wFld (pFld v lo') lo len = 0 :=
    fun v lo' hv => wFld_pFld_apart (by omega) v
  have hbool : ∀ (v : Bool) (lo' : Nat), lo' + 1 ≤ 40 → wFld (pBool v lo') lo len = 0 :=
    fun v lo' hv => wFld_pBool_apart (by omega) v
  cases b <;> simp [queueOf] at h <;> simp [pBody, syncOf, hfld, hbool]

theorem wSync_encodeWord {x : SWord} {q : EngQ} (h : queueOf x.b = some q) : wSync (encodeWord x) = syncOf x.b :=
  wSync_eq fun _ _ => wFld_pBody_sync h

/-- The body of an encoded word parses back: its opcode names it, and each of its fields stands apart from the others. -/
theorem parseBody_encodeWord (x : SWord) : parseBody (encodeWord x) = some x.b := by
  obtain ⟨g, b⟩ := x
  have hopc := opcode_encodeWord ⟨g, b⟩
  have hsync := fun q => wSync_encodeWord (x := ⟨g, b⟩) (q := q)
  cases b <;>
    simp [parseBody, hopc, opcOf, hsync, queueOf, syncOf, wFld_encodeWord_below, wBool_encodeWord_below, pBody, wFld_pFld_apart,
      wFld_pBool_apart, wFld_pSync_apart, wBool_pFld_apart, wBool_pBool_apart, wBool_pSync_apart]

/-! The statement. -/

/-- Settles O9: an encoded word parses back to its guard and body, and a word decodes only where it is the encoding. -/
theorem scheduleWordsRoundTrip : Obligations.ScheduleWordsRoundTrip := by
  refine ⟨fun x => ?_, fun v w h => ?_⟩
  · simp [decodeWord, parseBody_encodeWord, wGuard_encodeWord]
  · unfold decodeWord at h
    split at h
    · split at h
      next heq =>
        cases h
        exact heq
      · cases h
    · cases h

end Sys2Proof.Machine
end

section
/-! PROOF. Link blocks carry their cells, and cells their items (spec/10_links_and_pairs.md R382 to R385). First numbers in bytes and in
digits of a fixed width; then items, cells and blocks; then the statement. -/

namespace Sys2Proof.Machine

/-! Numbers in bytes (R4). -/

@[simp] theorem leBytes_length (n v : Nat) : (leBytes n v).length = n := by
  induction n generalizing v with
  | zero => rfl
  | succ n ih => simp [leBytes, ih]

theorem leNat_leBytes (n v : Nat) : leNat (leBytes n v) = v % 256 ^ n := by
  induction n generalizing v with
  | zero => simp [leBytes, leNat, Nat.mod_one]
  | succ n ih =>
    rw [pow_succ', Nat.mod_mul, leBytes, leNat, ih, BitVec.toNat_ofNat]

theorem leNat_leBytes_of_lt {n v : Nat} (h : v < 256 ^ n) : leNat (leBytes n v) = v := by
  rw [leNat_leBytes, Nat.mod_eq_of_lt h]

theorem leNat_lt (bs : List Byte) : leNat bs < 256 ^ bs.length := by
  induction bs with
  | nil => simp [leNat]
  | cons b bs ih =>
    have hb : b.toNat < 256 := b.isLt
    rw [leNat, List.length_cons, pow_succ]
    omega

/-- The bytes of the number that bytes spell are the bytes. -/
theorem leBytes_leNat (bs : List Byte) : leBytes bs.length (leNat bs) = bs := by
  induction bs with
  | nil => rfl
  | cons b bs ih =>
    have hb : b.toNat < 256 := b.isLt
    have hlow : BitVec.ofNat 8 (b.toNat + 256 * leNat bs) = b := by
      apply BitVec.eq_of_toNat_eq
      rw [BitVec.toNat_ofNat]
      omega
    have hhigh : (b.toNat + 256 * leNat bs) / 256 = leNat bs := by omega
    rw [List.length_cons, leNat, leBytes, hlow, hhigh, ih]

theorem leNat_append (xs ys : List Byte) : leNat (xs ++ ys) = leNat xs + 256 ^ xs.length * leNat ys := by
  induction xs with
  | nil => simp [leNat]
  | cons x xs ih => rw [List.cons_append, leNat, ih, leNat, List.length_cons, pow_succ]; ring

/-- The number at the front of a list. -/
theorem leAt_leBytes_append_self (n v : Nat) (bs : List Byte) : leAt (leBytes n v ++ bs) 0 n = v % 256 ^ n := by
  rw [leAt, List.drop_zero, List.take_left' (leBytes_length n v), leNat_leBytes]

/-- A number behind the first ones of a list. -/
theorem leAt_leBytes_append_skip {k o : Nat} (h : k ≤ o) (n v : Nat) (bs : List Byte) :
    leAt (leBytes k v ++ bs) o n = leAt bs (o - k) n := by
  rw [leAt, leAt, List.drop_append, List.drop_eq_nil_of_le (by simpa using h), leBytes_length, List.nil_append]

theorem takeZ_of_le {n : Nat} {bs : List Byte} (h : bs.length ≤ n) : takeZ n bs = bs ++ zeros (n - bs.length) := by
  rw [takeZ, List.take_of_length_le h]

@[simp] theorem takeZ_length (n : Nat) (bs : List Byte) : (takeZ n bs).length = n := by
  simp [takeZ, zeros]
  omega

/-! Items (Table 10-2). -/

theorem itemBytes_length (i : LinkItem) : (itemBytes i).length = 32 := takeZ_length 32 _

/-- An item of one byte. -/
theorem takeZ_byte (b : Byte) (n : Nat) : takeZ (n + 1) [b] = leBytes 1 b.toNat ++ zeros n := by
  rw [takeZ_of_le (by simp)]
  simp [leBytes]

/-- A flag in a byte. -/
theorem bitOf_b2n_zero (b : Bool) : bitOf (b2n b) 0 = b := by
  cases b <;> rfl

theorem b2n_beq_one (b : Bool) : (b2n b == 1) = b := by
  cases b <;> rfl

theorem b2n_lt (b : Bool) : b2n b < 256 := by
  cases b <;> decide

theorem b2n_mod (b : Bool) : b2n b % 256 = b2n b := Nat.mod_eq_of_lt (b2n_lt b)

/-- The field of an item comes out of its bytes. -/
theorem ofNat_toNat_mod {w m : Nat} (v : BitVec w) (h : 2 ^ w ≤ m) : BitVec.ofNat w (v.toNat % m) = v := by
  rw [Nat.mod_eq_of_lt (Nat.lt_of_lt_of_le v.isLt h), BitVec.ofNat_toNat, BitVec.setWidth_eq]


/-- Eight bytes of a small number: its byte, then zeros. -/
theorem leBytes_eight_three : leBytes 8 3 = leBytes 1 3 ++ leBytes 7 0 := rfl

theorem zeros_eq_leBytes (n : Nat) : zeros n = leBytes n 0 := by
  induction n with
  | zero => rfl
  | succ n ih => rw [zeros, List.replicate_succ, ← zeros, ih]; rfl

/-- An item comes out of its 32 bytes. -/
theorem itemOf_itemBytes (i : LinkItem) : itemOf (itemBytes i) = i := by
  have h8 (v : BitVec 8) : BitVec.ofNat 8 (v.toNat % 256) = v := ofNat_toNat_mod v (by decide)
  have h10 (v : BitVec 10) : BitVec.ofNat 10 (v.toNat % 65536) = v := ofNat_toNat_mod v (by decide)
  have h16 (v : BitVec 16) : BitVec.ofNat 16 (v.toNat % 65536) = v := ofNat_toNat_mod v (by decide)
  have h32 (v : BitVec 32) : BitVec.ofNat 32 (v.toNat % 4294967296) = v := ofNat_toNat_mod v (by decide)
  have h64 (v : BitVec 64) : BitVec.ofNat 64 (v.toNat % 18446744073709551616) = v := ofNat_toNat_mod v (by decide)
  cases i with
  | none => rfl
  | sleep => rfl
  | reserved => rfl
  | ack | beat | lane =>
    simp [itemBytes, itemOf, takeZ_of_le, List.append_assoc, leAt_leBytes_append_self, leAt_leBytes_append_skip, bitOf_b2n_zero,
      b2n_beq_one, b2n_mod, h8, h10, h16, h32, h64]
  | mack m =>
    simp [itemBytes, itemOf, takeZ_of_le, leBytes_eight_three, List.append_assoc, leAt_leBytes_append_self,
      leAt_leBytes_append_skip, h64]
  | resync =>
    simp [itemBytes, itemOf, takeZ_of_le, zeros_eq_leBytes 2, List.append_assoc, leAt_leBytes_append_self,
      leAt_leBytes_append_skip, h8, h32]

/-! Numbers in digits of `w` bits. -/

/-- The number whose digits of `w` bits, from the low end, are those of a list. -/
def packDigits (w : Nat) : List Nat → Nat
  | [] => 0
  | d :: ds => d + 2 ^ w * packDigits w ds

theorem packDigits_lt {w : Nat} {ds : List Nat} (h : ∀ d ∈ ds, d < 2 ^ w) : packDigits w ds < 2 ^ (w * ds.length) := by
  induction ds with
  | nil => simp [packDigits]
  | cons d ds ih =>
    obtain ⟨hd, hds⟩ := List.forall_mem_cons.1 h
    have hrest := ih hds
    rw [packDigits, List.length_cons, Nat.mul_succ, pow_add]
    calc d + 2 ^ w * packDigits w ds < 2 ^ w * (packDigits w ds + 1) := by rw [Nat.mul_succ]; omega
      _ ≤ 2 ^ w * 2 ^ (w * ds.length) := Nat.mul_le_mul_left _ hrest
      _ = _ := Nat.mul_comm _ _

theorem packDigits_append (w : Nat) (ds es : List Nat) :
    packDigits w (ds ++ es) = packDigits w ds + 2 ^ (w * ds.length) * packDigits w es := by
  induction ds with
  | nil => simp [packDigits]
  | cons d ds ih => rw [List.cons_append, packDigits, ih, packDigits, List.length_cons, Nat.mul_succ, pow_add]; ring

/-- Fields of `w` bits side by side from bit `o` on are digits. -/
theorem sum_fields (w o n : Nat) (f : Nat → Nat) :
    ((List.range n).map fun c => f c * 2 ^ (w * c + o)).sum = 2 ^ o * packDigits w ((List.range n).map f) := by
  induction n with
  | zero => simp [packDigits]
  | succ n ih =>
    rw [List.range_succ, List.map_append, List.sum_append, ih, List.map_append, packDigits_append, List.length_map,
      List.length_range]
    simp only [List.map_cons, List.map_nil, List.sum_singleton, packDigits, Nat.mul_zero, Nat.add_zero, pow_add]
    ring

/-- A digit of a number, at its place. -/
theorem bitsOf_packDigits {w : Nat} {ds : List Nat} (h : ∀ d ∈ ds, d < 2 ^ w) (k : Nat) :
    bitsOf (packDigits w ds) (w * k) w = ds.getD k 0 := by
  induction ds generalizing k with
  | nil => simp [packDigits, bitsOf]
  | cons d ds ih =>
    obtain ⟨hd, hds⟩ := List.forall_mem_cons.1 h
    have hpos : 0 < 2 ^ w := Nat.two_pow_pos w
    cases k with
    | zero => simp [packDigits, bitsOf, Nat.mod_eq_of_lt hd]
    | succ k =>
      have hskip : packDigits w (d :: ds) / 2 ^ w = packDigits w ds := by
        rw [packDigits, Nat.add_mul_div_left _ _ hpos, Nat.div_eq_of_lt hd, Nat.zero_add]
      rw [List.getD_cons_succ, ← ih hds k, bitsOf, bitsOf, Nat.mul_succ, Nat.add_comm, pow_add, ← Nat.div_div_eq_div_mul, hskip]

/-- A field above the low `a` bits. -/
theorem bitsOf_above {a x : Nat} (hx : x < 2 ^ a) (y lo w : Nat) : bitsOf (x + 2 ^ a * y) (lo + a) w = bitsOf y lo w := by
  rw [bitsOf, bitsOf, Nat.add_comm lo, pow_add, ← Nat.div_div_eq_div_mul, Nat.add_mul_div_left _ _ (Nat.two_pow_pos a),
    Nat.div_eq_of_lt hx, Nat.zero_add]

/-- A field inside the low `a` bits. -/
theorem bitsOf_below {a lo w : Nat} (h : lo + w ≤ a) (x y : Nat) : bitsOf (x + 2 ^ a * y) lo w = bitsOf x lo w := by
  obtain ⟨c, rfl⟩ := Nat.exists_eq_add_of_le h
  have hsplit : 2 ^ (lo + w + c) * y = 2 ^ lo * (2 ^ w * (2 ^ c * y)) := by rw [pow_add, pow_add]; ring
  rw [bitsOf, bitsOf, hsplit, Nat.add_mul_div_left _ _ (Nat.two_pow_pos lo), Nat.add_mul_mod_self_left]

/-! Cells. -/

/-- The bytes of the four items of a control cell are its digits of 256 bits. -/
theorem leNat_flatMap_itemBytes (is : List LinkItem) :
    leNat (is.flatMap itemBytes) = packDigits 256 (is.map fun i => leNat (itemBytes i)) := by
  induction is with
  | nil => rfl
  | cons i is ih =>
    rw [List.flatMap_cons, leNat_append, ih, itemBytes_length, List.map_cons, packDigits]
    norm_num

theorem leNat_itemBytes_lt (i : LinkItem) : leNat (itemBytes i) < 2 ^ 256 := by
  have h := leNat_lt (itemBytes i)
  rw [itemBytes_length] at h
  exact h.trans_eq (by norm_num)

theorem cellBody_ctrl {is : List LinkItem} (h : is.length = 4) :
    cellBody (.ctrl is) = packDigits 256 (is.map fun i => leNat (itemBytes i)) := by
  match is, h with
  | [i, j, k, l], _ => exact leNat_flatMap_itemBytes [i, j, k, l]

/-- Cells that a block can carry: a control cell has four items (R383). -/
def CellFits (c : LinkCell) : Prop := ∀ is, c = .ctrl is → is.length = 4

theorem cellKind_lt (c : LinkCell) : cellKind c < 2 ^ 2 := by
  cases c <;> simp [cellKind]

theorem cellBody_lt {c : LinkCell} (h : CellFits c) : cellBody c < 2 ^ 1024 := by
  cases c with
  | idle => exact Nat.two_pow_pos _
  | reserved => exact Nat.two_pow_pos _
  | data b => exact b.isLt
  | ctrl is =>
    have hlen := h is rfl
    rw [cellBody_ctrl hlen]
    have hlt := packDigits_lt (w := 256) (ds := is.map fun i => leNat (itemBytes i))
      (List.forall_mem_map.2 fun i _ => leNat_itemBytes_lt i)
    rwa [List.length_map, hlen] at hlt

/-- A cell comes out of its kind and its body. -/
theorem cellOf_cellKind_cellBody {c : LinkCell} (h : CellFits c) : cellOf (cellKind c) (cellBody c) = c := by
  cases c with
  | idle => rfl
  | reserved => rfl
  | data b =>
    rw [cellKind, cellBody, cellOf, if_neg (by decide), if_pos rfl, BitVec.ofNat_toNat, BitVec.setWidth_eq]
  | ctrl is =>
    have hlen := h is rfl
    have hitem (k : Nat) (hk : k < is.length) :
        itemOf (leBytes 32 (bitsOf (cellBody (.ctrl is)) (256 * k) 256)) = is[k] := by
      have hbytes := leBytes_leNat (itemBytes is[k])
      rw [itemBytes_length] at hbytes
      rw [cellBody_ctrl hlen, bitsOf_packDigits (List.forall_mem_map.2 fun i _ => leNat_itemBytes_lt i),
        List.getD_eq_getElem _ _ (by simpa using hk), List.getElem_map, hbytes, itemOf_itemBytes]
    rw [cellKind, cellOf, if_neg (by decide), if_neg (by decide), if_pos rfl]
    congr 1
    apply List.ext_getElem (by simp [hlen])
    intro k _ hk
    rw [List.getElem_map, List.getElem_range, hitem k hk]

/-! Blocks. -/

/-- What a block reads at its five places are its cells. -/
theorem map_range_getD {α β : Type} (f : α → β) (l : List α) (d : α) :
    (List.range l.length).map (fun c => f (l.getD c d)) = l.map f := by
  apply List.ext_getElem (by simp)
  intro i _ hi
  have hi : i < l.length := by simpa using hi
  simp [List.getElem?_eq_getElem hi]

/-- A block's number: the BSN, the kinds of its cells, their bodies (Figure of R382). -/
theorem blockMsg_toNat {bsn : Nat} {cells : List LinkCell} (hb : bsn < 1024) (hlen : cells.length = 5)
    (hfit : ∀ c ∈ cells, CellFits c) :
    (blockMsg bsn cells).toNat =
      bsn + 2 ^ 10 * (packDigits 2 (cells.map cellKind) + 2 ^ 10 * packDigits 1024 (cells.map cellBody)) := by
  have hk := packDigits_lt (w := 2) (ds := cells.map cellKind) (List.forall_mem_map.2 fun c _ => cellKind_lt c)
  have hc := packDigits_lt (w := 1024) (ds := cells.map cellBody) (List.forall_mem_map.2 fun c hc => cellBody_lt (hfit c hc))
  rw [List.length_map, hlen] at hk hc
  have hlt : bsn + 2 ^ 10 * (packDigits 2 (cells.map cellKind) + 2 ^ 10 * packDigits 1024 (cells.map cellBody)) < 2 ^ 5140 := by
    have hpow : (2 : Nat) ^ 5140 = 2 ^ 20 * 2 ^ (1024 * 5) := by rw [← pow_add]
    rw [hpow]
    generalize 2 ^ (1024 * 5) = M at hc ⊢
    omega
  have hsum : (((List.range 5).map fun c => (c, cells.getD c .idle)).map fun x =>
      cellKind x.2 * 2 ^ (2 * x.1 + 10) + cellBody x.2 * 2 ^ (1024 * x.1 + 20)).sum =
      2 ^ 10 * (packDigits 2 (cells.map cellKind) + 2 ^ 10 * packDigits 1024 (cells.map cellBody)) := by
    rw [Nat.mul_add, ← Nat.mul_assoc, ← pow_add, List.map_map, ← map_range_getD cellKind cells .idle, ← map_range_getD cellBody cells .idle, hlen, ← sum_fields, ← sum_fields,
      ← List.sum_map_add]
    rfl
  rw [blockMsg, BitVec.toNat_ofNat, Nat.mod_eq_of_lt hb]
  exact (congrArg (fun n => (bsn + n) % 2 ^ 5140) hsum).trans (Nat.mod_eq_of_lt hlt)

theorem blockBsn_blockMsg {bsn : Nat} {cells : List LinkCell} (hb : bsn < 1024) (hlen : cells.length = 5)
    (hfit : ∀ c ∈ cells, CellFits c) : blockBsn (blockMsg bsn cells) = bsn := by
  rw [blockBsn, blockMsg_toNat hb hlen hfit, bitsOf_below (Nat.le_refl 10), bitsOf]
  omega

/-- Each cell of a block comes out at its place. -/
theorem blockCells_blockMsg {bsn : Nat} {cells : List LinkCell} (hb : bsn < 1024) (hlen : cells.length = 5)
    (hfit : ∀ c ∈ cells, CellFits c) : blockCells (blockMsg bsn cells) = cells := by
  have hkinds : ∀ k ∈ cells.map cellKind, k < 2 ^ 2 := List.forall_mem_map.2 fun c _ => cellKind_lt c
  have hbodies : ∀ b ∈ cells.map cellBody, b < 2 ^ 1024 := List.forall_mem_map.2 fun c hc => cellBody_lt (hfit c hc)
  have hk : packDigits 2 (cells.map cellKind) < 2 ^ 10 := by
    have h := packDigits_lt hkinds
    rwa [List.length_map, hlen] at h
  have hb' : bsn < 2 ^ 10 := hb
  apply List.ext_getElem (by simp [blockCells, hlen])
  intro i _ hi
  have hkind : bitsOf (blockMsg bsn cells).toNat (2 * i + 10) 2 = cellKind cells[i] := by
    rw [blockMsg_toNat hb hlen hfit, bitsOf_above hb', bitsOf_below (by omega), bitsOf_packDigits hkinds,
      List.getD_eq_getElem _ _ (by simpa using hi), List.getElem_map]
  have hbody : bitsOf (blockMsg bsn cells).toNat (1024 * i + 20) 1024 = cellBody cells[i] := by
    rw [blockMsg_toNat hb hlen hfit, show 1024 * i + 20 = (1024 * i + 10) + 10 by omega, bitsOf_above hb', bitsOf_above hk,
      bitsOf_packDigits hbodies, List.getD_eq_getElem _ _ (by simpa using hi), List.getElem_map]
  simp only [blockCells]
  rw [List.getElem_map, List.getElem_range, hkind, hbody, cellOf_cellKind_cellBody (hfit _ (List.getElem_mem hi))]

/-- Settles O51: items come out of their bytes, and a block's BSN and cells are digits of its number. -/
theorem linkBlocksRoundTrip : Obligations.LinkBlocksRoundTrip := by
  unfold Obligations.LinkBlocksRoundTrip
  refine ⟨itemOf_itemBytes, fun bsn cells hb hlen hctrl => ?_⟩
  have hfit : ∀ c ∈ cells, CellFits c := fun c hc is his => hctrl is (by rwa [his] at hc)
  exact ⟨blockBsn_blockMsg hb hlen hfit, blockCells_blockMsg hb hlen hfit⟩

end Sys2Proof.Machine
end

section
/-! PROOF. Register words by their keys, and plain writes by their access codes (spec/00_scope.md R9 to R12). -/

namespace Sys2Proof.Machine

/-! Keys. -/

/-- The codes of the map's registers all differ. -/
theorem allRegs_code_nodup : (allRegs.map (·.code)).Nodup := by decide +kernel

theorem reg_eq_of_code_eq {r q : Reg} (hr : r ∈ allRegs) (hq : q ∈ allRegs) (h : q.code = r.code) : q = r :=
  List.inj_on_of_nodup_map allRegs_code_nodup hq hr h

/-- A key says its register, its unit and its index. -/
theorem Reg.key_inj {r q : Reg} (hr : r ∈ allRegs) (hq : q ∈ allRegs) {u v i j : Nat} (hu : u < 4194304) (hv : v < 4194304)
    (hi : i < 4096) (hj : j < 4096) (h : q.key v j = r.key u i) : q = r ∧ v = u ∧ j = i := by
  simp only [Reg.key] at h
  exact ⟨reg_eq_of_code_eq hr hq (by omega), by omega, by omega⟩

/-- Settles O6: keys are injective, and the laws of stored fields. -/
theorem registerWritesAreIndependent : Obligations.RegisterWritesAreIndependent := by
  unfold Obligations.RegisterWritesAreIndependent
  refine ⟨fun d r q u v i j w hr hq hu hv hi hj => ?_, fun d f g u i v hf _ hreg => ?_⟩
  · split
    case isTrue h =>
      obtain ⟨rfl, rfl, rfl⟩ := h
      exact Dev.getR_setR_self ..
    case isFalse h => exact Dev.getR_setR_key d r q u v i j w fun hkey => h (Reg.key_inj hr hq hu hv hi hj hkey)
  · exact ⟨Dev.fld_setF_self hf d u v i, fun happart => Dev.fld_setF_apart hreg hf happart.symm d u v i⟩

/-! Plain writes. -/

/-- A bit of the complement of a mask. -/
theorem testBit_complement {x : Nat} (hx : x < 2 ^ 64) {b : Nat} (hb : b < 64) : (2 ^ 64 - 1 - x).testBit b = !x.testBit b := by
  rw [Nat.sub_sub, Nat.add_comm 1 x, Nat.testBit_two_pow_sub_succ hx, decide_eq_true hb, Bool.true_and]

/-- Settles O7: the written word bit by bit; another key keeps its word. -/
theorem plainWriteFollowsAccessCodes : Obligations.PlainWriteFollowsAccessCodes := by
  unfold Obligations.PlainWriteFollowsAccessCodes
  intro d r u i v hrw hw1c
  refine ⟨fun b hb => ?_, fun q w j hkey => Dev.getR_setR_key d r q u w i j _ hkey⟩
  have hclear : v &&& r.w1c < 2 ^ 64 := Nat.lt_of_le_of_lt Nat.and_le_right hw1c
  have hold : (d.getR r u i).toNat.testBit b = (d.getR r u i).getLsbD b := rfl
  rw [Dev.plainWrite, Dev.getR_setR_self, BitVec.getLsbD_ofNat, decide_eq_true hb, Bool.true_and, Nat.testBit_or, Nat.testBit_and,
    Nat.testBit_and, Nat.testBit_and, testBit_complement hrw hb, testBit_complement hclear hb, Nat.testBit_and, hold]
  cases r.rw.testBit b
  · simp [Bool.and_comm]
  · simp

end Sys2Proof.Machine
end

section
/-! PROOF. Register accesses by global address (spec/00_scope.md R9 to R11). -/

namespace Sys2Proof.Machine

/-- A write of a register that answers. -/
theorem exec_registerWrite_reg {s : State} {a : BitVec 48} {eight : Bool} {v : Word} {blk inst off : Nat}
    (hplace : s.dev.place s.dev.hostMap a.toNat = .reg blk inst off) (hok : accOk off (if eight then 8 else 4) = true)
    (hwaits : s.dev.regWaits blk inst = []) :
    exec (.registerWrite a eight v) s = s.done (s.regWrite blk inst off (if eight then 8 else 4) v.toNat) := by
  change execRegisterWrite a eight v s = _
  simp [execRegisterWrite, hplace, hok, hwaits]

/-- A read of a register that answers. -/
theorem exec_rcRegisterRead_reg {s : State} {a : BitVec 48} {eight : Bool} {blk inst off : Nat}
    (hplace : s.dev.place s.dev.hostMap a.toNat = .reg blk inst off) (hok : accOk off (if eight then 8 else 4) = true)
    (hwaits : s.dev.regWaits blk inst = []) :
    exec (.rcRegisterRead a eight) s = .next (s.onDev fun d =>
      (d.regRead blk inst off (if eight then 8 else 4)).1.emit
        (.regRead a.toNat (BitVec.ofNat 64 (d.regRead blk inst off (if eight then 8 else 4)).2))) := by
  change execRcRegisterRead a eight s = _
  simp [execRcRegisterRead, State.upd, State.onDev, hplace, hok, hwaits]

theorem exec_registerWrite_unmapped {s : State} {a : BitVec 48} (h : s.dev.place s.dev.hostMap a.toNat = .unmapped) (eight : Bool)
    (v : Word) : exec (.registerWrite a eight v) s = s.done s := by
  change execRegisterWrite a eight v s = _
  simp [execRegisterWrite, h]

theorem exec_rcRegisterRead_unmapped {s : State} {a : BitVec 48} (h : s.dev.place s.dev.hostMap a.toNat = .unmapped)
    (eight : Bool) : exec (.rcRegisterRead a eight) s = .next (s.onDev fun d => d.emit (.regRead a.toNat 0)) := by
  change execRcRegisterRead a eight s = _
  simp [execRcRegisterRead, State.upd, State.onDev, h]

/-- Settles O8: the four equations above. -/
theorem registerAccessByAddress : Obligations.RegisterAccessByAddress := by
  unfold Obligations.RegisterAccessByAddress
  refine ⟨fun s a eight v blk inst off hplace hok hwaits => ?_, fun s a eight blk inst off hplace hok hwaits => ?_,
    fun s a eight v hplace => ⟨?_, ?_⟩⟩
  · rw [exec_registerWrite_reg hplace hok hwaits]
    exact State.gives_done s _
  · exact exec_rcRegisterRead_reg hplace hok hwaits
  · rw [exec_registerWrite_unmapped hplace]
    exact State.gives_done s _
  · exact exec_rcRegisterRead_unmapped hplace eight

end Sys2Proof.Machine
end

section
/-! PROOF. What issuing a word leaves, and the sequencer words that go on or hold (spec/03_schedule_words.md R98, R99, R129 to R136).
First the frame of an issue; then an equation of `Dev.seqWord` where a word's meaning has cases; then the statements. -/

namespace Sys2Proof.Machine

/-! The frame of an issue (R99, R142). -/

/-- What an issue writes: the sleep hint of COR_SEQ_STATUS, the count of issued words, STATE, PC, and the core's held word and
hint. -/
theorem Dev.issued_of_running {d : Dev} {u pc : Nat} (h : (d.core u).halting = 0) (hpc : pc ≤ 8191) (b : WordBody) (x wasHeld : Bool) :
    ∃ (hint : Nat) (d0 : Dev), (d0 = d ∨ d0 = d.setF F.COR_SEQ_STATUS_SLEEP_HINT u 0) ∧
      d.issued u b pc x wasHeld false =
        (((d0.addWrap F.COR_STALL_CNT_ISSUED u 1).setF F.COR_STATUS_STATE u 1).modCore u fun y =>
          { y with held := none, sleepHint := hint }).setF F.COR_STATUS_PC u pc := by
  have hsettle : ∀ (d0 : Dev) (f : CoreS → CoreS) (hint : Nat), (d0 = d ∨ d0 = d.setF F.COR_SEQ_STATUS_SLEEP_HINT u 0) →
      (f = fun y => { y with held := none, sleepHint := hint }) →
      ∃ (hint : Nat) (d1 : Dev), (d1 = d ∨ d1 = d.setF F.COR_SEQ_STATUS_SLEEP_HINT u 0) ∧
        ((((d0.addWrap F.COR_STALL_CNT_ISSUED u 1).setF F.COR_STATUS_STATE u 1).modCore u f).setF F.COR_STATUS_PC u pc).settle u =
        (((d1.addWrap F.COR_STALL_CNT_ISSUED u 1).setF F.COR_STATUS_STATE u 1).modCore u fun y =>
          { y with held := none, sleepHint := hint }).setF F.COR_STATUS_PC u pc := by
    rintro d0 f hint hd0 rfl
    have hcore : (d0.core u).halting = 0 := by
      obtain rfl | rfl := hd0
      · exact h
      · exact h
    refine ⟨hint, d0, hd0, ?_⟩
    rw [Dev.settle_of_not_halting]
    rw [Dev.core_setF, Dev.core_modCore_self, Dev.core_setF, Dev.core_addWrap, hcore]
  unfold Dev.issued
  rw [if_neg (show ¬ pc > 8191 by omega)]
  exact hsettle _ _ _ (by exact ite_eq_or_eq _ _ _) (funext fun y => rfl)

@[simp] theorem Dev.fld_modCore (d : Dev) (u : Nat) (g : CoreS → CoreS) (f : Fld) (v i : Nat) :
    (d.modCore u g).fld f v i = d.fld f v i := rfl

@[simp] theorem Dev.getR_modCore (d : Dev) (u : Nat) (g : CoreS → CoreS) (r : Reg) (v i : Nat) :
    (d.modCore u g).getR r v i = d.getR r v i := rfl

/-- Settles O13: the frame of `Dev.issued_of_running`, register by register. -/
theorem issueChangesOnlyTheSequencer : Obligations.IssueChangesOnlyTheSequencer := by
  unfold Obligations.IssueChangesOnlyTheSequencer
  intro d u pc b x h hpc
  obtain ⟨hint, d0, hd0, he⟩ := Dev.issued_of_running h hpc b x false
  dsimp only
  rw [he]
  have hlt : pc < 2 ^ F.COR_STATUS_PC.width := by
    change pc < 2 ^ 13
    omega
  have hcnt : d0.fld F.COR_STALL_CNT_ISSUED u = d.fld F.COR_STALL_CNT_ISSUED u := by
    obtain rfl | rfl := hd0
    · rfl
    · exact Dev.fld_setF_other (f := F.COR_SEQ_STATUS_SLEEP_HINT) (g := F.COR_STALL_CNT_ISSUED) (by decide) d u 0 0
  have hregs : ∀ (r : Reg) (v i : Nat), r.key v i ≠ R.COR_SEQ_STATUS.key u 0 → d0.getR r v i = d.getR r v i := by
    intro r v i hkey
    obtain rfl | rfl := hd0
    · rfl
    · exact Dev.getR_setF_key d F.COR_SEQ_STATUS_SLEEP_HINT r u v 0 i 0 hkey
  have hcore : ∀ v, d0.core v = d.core v := by
    obtain rfl | rfl := hd0
    · exact fun _ => rfl
    · exact fun v => Dev.core_setF ..
  refine ⟨Dev.fld_setF_self_of_lt (by decide) hlt _ _ _, ?_, ?_, fun r v i hst hseq hcnt => ?_, fun v hv => ?_, ?_, ?_, ?_, ?_⟩
  · rw [Dev.coreState, Dev.fld_setF_apart (f := F.COR_STATUS_PC) (g := F.COR_STATUS_STATE) rfl (by decide) (by decide), Dev.fld_modCore,
      Dev.fld_setF_self_of_lt (by decide) (by decide)]
  · rw [Dev.fld_setF_other (f := F.COR_STATUS_PC) (g := F.COR_STALL_CNT_ISSUED) (by decide), Dev.fld_modCore,
      Dev.fld_setF_other (f := F.COR_STATUS_STATE) (g := F.COR_STALL_CNT_ISSUED) (by decide),
      Dev.addWrap, Dev.fld_setF_self (by decide), hcnt]
  · rw [Dev.getR_setF_key _ F.COR_STATUS_PC r u v 0 i _ hst, Dev.getR_modCore, Dev.getR_setF_key _ F.COR_STATUS_STATE r u v 0 i _ hst,
      Dev.addWrap, Dev.getR_setF_key _ F.COR_STALL_CNT_ISSUED r u v 0 i _ hcnt, hregs r v i hseq]
  · rw [Dev.core_setF, Dev.core_modCore, if_neg hv, Dev.core_setF, Dev.core_addWrap, hcore]
  · rw [Dev.core_setF, Dev.core_modCore_self]
  · rw [Dev.core_setF, Dev.core_modCore_self, Dev.core_setF, Dev.core_addWrap, hcore, h]
  · rw [Dev.core_setF, Dev.core_modCore_self, Dev.core_setF, Dev.core_addWrap, hcore]
  · obtain rfl | rfl := hd0
    · rfl
    · rfl

/-! Words with cases. -/

theorem Dev.seqWord_plog (d : Dev) (u pc : Nat) (pd pa pb : BitVec 3) (op : BitVec 2) :
    d.seqWord u pc (.plog pd pa pb op) = .go (d.setPred u pd.toNat
      (if op = 0 then d.predBit u pa.toNat && d.predBit u pb.toNat
        else if op = 1 then d.predBit u pa.toNat || d.predBit u pb.toNat
        else if op = 2 then d.predBit u pa.toNat != d.predBit u pb.toNat
        else d.predBit u pa.toNat && !d.predBit u pb.toNat)) (pc + 1) := by
  have hcases : op = 0 ∨ op = 1 ∨ op = 2 ∨ op = 3 := by revert op; decide
  obtain rfl | rfl | rfl | rfl := hcases <;> rfl

/-- Settles O14: each word issues with the device that its case of `Dev.seqWord` gives. -/
theorem registerWordsWriteTheirDestination : Obligations.RegisterWordsWriteTheirDestination := by
  unfold Obligations.RegisterWordsWriteTheirDestination
  intro s c g
  refine ⟨fun h => ?_, fun sd imm h => ?_, fun sd sa sb op h => ?_, fun sd sa op imm h => ?_, fun pd cmp sa imf sb imm h => ?_,
    fun pd pa pb op h => ?_, fun lc src sa imm h => ?_, fun dd imf sa imm h => ?_, fun mode h => ?_, fun ph h => ?_⟩
  · exact State.word_issues h rfl rfl
  · exact State.word_issues h rfl rfl
  · exact State.word_issues h rfl rfl
  · exact State.word_issues h rfl rfl
  · exact State.word_issues h rfl rfl
  · exact State.word_issues h rfl (Dev.seqWord_plog ..)
  · exact State.word_issues h rfl rfl
  · exact State.word_issues h rfl rfl
  · exact State.word_issues h rfl rfl
  · exact State.word_issues h rfl rfl

theorem Dev.seqWord_sleep (d : Dev) (u pc : Nat) (lvl : BitVec 2) (exp : BitVec 16) :
    d.seqWord u pc (.sleep lvl exp) =
      .go (if lvl = 3 then (d.setF F.COR_SEQ_STATUS_SLEEP_HINT u 3).modCore u fun x => { x with halting := 1 }
        else d.setF F.COR_SEQ_STATUS_SLEEP_HINT u lvl.toNat) (if lvl = 3 then pc else pc + 1) := by
  have hcases : lvl = 0 ∨ lvl = 1 ∨ lvl = 2 ∨ lvl = 3 := by revert lvl; decide
  obtain rfl | rfl | rfl | rfl := hcases <;> rfl

theorem Dev.fenceWord_of_met {d : Dev} {u kind eng : Nat} (heng : kind ≠ 1 → d.engBusy u eng = false)
    (hout : kind ≠ 0 → d.unacked u = false) (pc : Nat) : d.fenceWord u kind eng pc = .go d (pc + 1) := by
  rw [Dev.fenceWord, if_neg]
  by_cases h1 : kind = 1
  · subst h1
    simp only [ne_eq, not_true_eq_false, decide_false, Bool.false_and, hout Nat.one_ne_zero, Bool.and_false, Bool.or_false]
    exact Bool.false_ne_true
  · simp only [heng h1, Bool.and_false, Bool.false_or, Bool.and_eq_true, decide_eq_true_eq, not_and]
    exact fun h0 => Bool.eq_false_iff.1 (hout h0)

theorem Dev.fenceWord_of_busy {d : Dev} {u kind eng : Nat} (hkind : kind ≠ 1) (h : d.engBusy u eng = true) (pc : Nat) :
    d.fenceWord u kind eng pc = .hold 7 := by
  rw [Dev.fenceWord, h, decide_eq_true hkind]
  rfl

/-! SEM on the semaphores of the cluster and of the core (R131). -/

theorem Dev.semWord_wait_clu {d : Dev} {u idx n : Nat} (h : n ≤ d.fld F.CLU_SEM_V (u / 256) idx) (pc : Nat) :
    d.semWord u 0 true idx n pc = .go d (pc + 1) := if_pos h

theorem Dev.semWord_wait_core {d : Dev} {u idx n : Nat} (h : n ≤ d.fld F.COR_SEM_V u idx) (pc : Nat) :
    d.semWord u 0 false idx n pc = .go d (pc + 1) := if_pos h

theorem Dev.semWord_wait_core_below {d : Dev} {u idx n : Nat} (h : d.fld F.COR_SEM_V u idx < n) (pc : Nat) :
    d.semWord u 0 false idx n pc = .hold 5 := if_neg (Nat.not_le.2 h)

theorem Dev.semWord_add_clu {d : Dev} {u idx n : Nat} (h : d.fld F.CLU_SEM_V (u / 256) idx + n ≤ 0xFFFF) (pc : Nat) :
    d.semWord u 1 true idx n pc = .go (d.setF F.CLU_SEM_V (u / 256) (d.fld F.CLU_SEM_V (u / 256) idx + n) idx) (pc + 1) :=
  if_neg (Nat.not_lt.2 h)

theorem Dev.semWord_add_core {d : Dev} {u idx n : Nat} (h : d.fld F.COR_SEM_V u idx + n ≤ 0xFFFF) (pc : Nat) :
    d.semWord u 1 false idx n pc = .go (d.setF F.COR_SEM_V u (d.fld F.COR_SEM_V u idx + n) idx) (pc + 1) :=
  if_neg (Nat.not_lt.2 h)

theorem Dev.semWord_sub_clu {d : Dev} {u idx n : Nat} (h : n ≤ d.fld F.CLU_SEM_V (u / 256) idx) (pc : Nat) :
    d.semWord u 2 true idx n pc = .go (d.setF F.CLU_SEM_V (u / 256) (d.fld F.CLU_SEM_V (u / 256) idx - n) idx) (pc + 1) :=
  if_neg (Nat.not_lt.2 h)

theorem Dev.semWord_sub_core {d : Dev} {u idx n : Nat} (h : n ≤ d.fld F.COR_SEM_V u idx) (pc : Nat) :
    d.semWord u 2 false idx n pc = .go (d.setF F.COR_SEM_V u (d.fld F.COR_SEM_V u idx - n) idx) (pc + 1) :=
  if_neg (Nat.not_lt.2 h)

/-! QRD (R132). -/

theorem Dev.qrdWord_of_some {d : Dev} {u q : Nat} {m : QMsg} (h : d.qHead u q = some m) (sd w : Nat) (pop : Bool) (pc : Nat) :
    d.qrdWord u sd q w pop pc =
      .go (if pop then (d.setF F.COR_SCALAR_S u (if 4 * w ≥ m.body.length then 0 else leAt m.body (4 * w) 4) sd).qPop u q
        else d.setF F.COR_SCALAR_S u (if 4 * w ≥ m.body.length then 0 else leAt m.body (4 * w) 4) sd) (pc + 1) := by
  rw [Dev.qrdWord, h]

theorem Dev.qrdWord_of_none {d : Dev} {u q : Nat} (h : d.qHead u q = none) (sd w : Nat) (pop : Bool) (pc : Nat) :
    d.qrdWord u sd q w pop pc = .hold 6 := by
  rw [Dev.qrdWord, h]

/-- Settles O15: each word goes on with the device that its equation gives. -/
theorem controlWordsSteerIssue : Obligations.ControlWordsSteerIssue := by
  unfold Obligations.ControlWordsSteerIssue
  intro s c g
  refine ⟨fun h => ?_, fun lvl exp h => ?_, fun eng h hbusy => ?_, fun eng h hout => ?_, fun eng h hbusy hout => ?_,
    fun idx vs sv val h hv => ?_, fun idx vs sv val h hv => ?_, fun idx vs sv val h hv => ?_, fun idx vs sv val h hv => ?_,
    fun idx vs sv val h hv => ?_, fun idx vs sv val h hv => ?_, fun sd q w pop m h hm => ?_⟩
  · exact State.word_issues h rfl rfl
  · exact State.word_issues h rfl (Dev.seqWord_sleep ..)
  · exact State.word_issues h rfl (Dev.fenceWord_of_met (fun _ => hbusy) (fun h0 => absurd rfl h0) _)
  · exact State.word_issues h rfl (Dev.fenceWord_of_met (fun h1 => absurd rfl h1) (fun _ => hout) _)
  · exact State.word_issues h rfl (Dev.fenceWord_of_met (fun _ => hbusy) (fun _ => hout) _)
  · exact State.word_issues h rfl (Dev.semWord_wait_clu hv _)
  · exact State.word_issues h rfl (Dev.semWord_wait_core hv _)
  · exact State.word_issues h rfl (Dev.semWord_add_clu hv _)
  · exact State.word_issues h rfl (Dev.semWord_add_core hv _)
  · exact State.word_issues h rfl (Dev.semWord_sub_clu hv _)
  · exact State.word_issues h rfl (Dev.semWord_sub_core hv _)
  · exact State.word_issues h rfl (Dev.qrdWord_of_some hm _ _ _ _)

/-! Words that hold issue (R98). -/

/-- A sequencer word that is ready but cannot go on holds issue. -/
theorem State.issueWord_of_hold {s : State} {u code : Nat} {g : Guard} {b : WordBody} (h : s.Ready u g b)
    (hq : queueOf b = none) (hhold : s.dev.seqWord u (s.dev.pc u) b = .hold code) (wasHeld step : Bool) :
    s.issueWord u ⟨g, b⟩ wasHeld step = { s with dev := s.dev.holdIssue u ⟨g, b⟩ step code } := by
  obtain ⟨-, hmark, hguard, hlegal, hblocked⟩ := h
  rw [Dev.pc] at hhold
  simp only [State.issueWord, hmark, hguard, hlegal, hblocked, hq, hhold, Bool.false_eq_true, Bool.true_eq_false, Bool.not_true,
    if_false, State.onDev]

theorem State.word_holds {s : State} {c : Core} {code : Nat} {g : Guard} {b : WordBody} (h : s.Ready (coreU c) g b)
    (hq : queueOf b = none) (hhold : s.dev.seqWord (coreU c) (s.dev.pc (coreU c)) b = .hold code) :
    s.Gives (s.word c g b) { s with dev := s.dev.holdIssue (coreU c) ⟨g, b⟩ false code } := by
  have hgives := State.gives_word h.1 g b
  rwa [State.issueWord_of_hold h hq hhold] at hgives

/-- Settles O16: the three holds, and the fields that a hold writes. -/
theorem unmetWordsHoldIssue : Obligations.UnmetWordsHoldIssue := by
  unfold Obligations.UnmetWordsHoldIssue
  intro s c g
  refine ⟨fun idx vs sv val h hv => ?_, fun sd q w pop h hq => ?_, fun eng h hbusy => ?_, fun w code h5 h7 => ?_⟩
  · exact State.word_holds h rfl (Dev.semWord_wait_core_below hv _)
  · exact State.word_holds h rfl (Dev.qrdWord_of_none hq _ _ _ _)
  · exact State.word_holds h rfl (Dev.fenceWord_of_busy (by decide) hbusy _)
  · have hwait : code = 5 ∨ code = 6 ∨ code = 7 := by omega
    have hcode : code < 2 ^ F.COR_STATUS_STALL.width := by
      change code < 2 ^ 4
      omega
    have hstate : (if code = 5 || code = 6 || code = 7 then 2 else 1) = 2 := if_pos (by simpa [or_assoc] using hwait)
    dsimp only [Dev.holdIssue]
    rw [hstate]
    refine ⟨?_, ?_, ?_, ?_, fun r v i hkey => ?_, fun v hv => ?_⟩
    · rw [Dev.coreState, Dev.fld_modCore, Dev.fld_setF_self_of_lt (by decide) (by decide)]
    · rw [Dev.fld_modCore, Dev.fld_setF_apart (f := F.COR_STATUS_STATE) (g := F.COR_STATUS_STALL) rfl (by decide) (by decide),
        Dev.fld_setF_self_of_lt (by decide) hcode]
    · rw [Dev.core_modCore_self]
    · rw [Dev.pc, Dev.fld_modCore, Dev.fld_setF_apart (f := F.COR_STATUS_STATE) (g := F.COR_STATUS_PC) rfl (by decide) (by decide),
        Dev.fld_setF_apart (f := F.COR_STATUS_STALL) (g := F.COR_STATUS_PC) rfl (by decide) (by decide), Dev.pc]
    · rw [Dev.getR_modCore, Dev.getR_setF_key _ F.COR_STATUS_STATE r _ v 0 i _ hkey,
        Dev.getR_setF_key _ F.COR_STATUS_STALL r _ v 0 i _ hkey]
    · rw [Dev.core_modCore, if_neg hv, Dev.core_setF, Dev.core_setF]

end Sys2Proof.Machine
end

section
/-! PROOF. Engine words at issue and at their start (spec/03_schedule_words.md R91, R92, R97, R102). First: no stop of a core puts a
word into its engine queues; then the head of a queue starts; then the statement. -/

namespace Sys2Proof.Machine

/-! Words that a queue holds after a stop of its core were there before (R102). -/

/-- A core of `e` holds no engine word that it does not hold in `d`. -/
structure Dev.NoNewWords (d e : Dev) : Prop where
  words : ∀ u q, ∀ w ∈ (e.core u).queue q, w ∈ (d.core u).queue q

theorem Dev.NoNewWords.refl (d : Dev) : d.NoNewWords d := ⟨fun _ _ _ hw => hw⟩

theorem Dev.NoNewWords.trans {d e f : Dev} (h1 : d.NoNewWords e) (h2 : e.NoNewWords f) : d.NoNewWords f :=
  ⟨fun u q w hw => h1.words u q w (h2.words u q w hw)⟩

theorem Dev.noNewWords_of_cores {d e : Dev} (h : e.cores = d.cores) : d.NoNewWords e := by
  constructor
  intro u q w hw
  rwa [Dev.core, h] at hw

theorem Dev.noNewWords_modCore (d : Dev) (u : Nat) (f : CoreS → CoreS) (h : ∀ q, ∀ w ∈ (f (d.core u)).queue q, w ∈ (d.core u).queue q) :
    d.NoNewWords (d.modCore u f) := by
  constructor
  intro v q w hw
  rw [Dev.core_modCore] at hw
  split at hw
  case isTrue hv => exact hv ▸ h q w hw
  case isFalse => exact hw

theorem Dev.noNewWords_each {α : Type} (f : Dev → α → Dev) (h : ∀ (d : Dev) (x : α), d.NoNewWords (f d x)) (xs : List α) (d : Dev) :
    d.NoNewWords (d.each xs f) := by
  induction xs generalizing d with
  | nil => exact Dev.NoNewWords.refl d
  | cons x xs ih => exact (h d x).trans (ih (f d x))

theorem CoreS.queue_of_words {x y : CoreS} (hcd : y.cd = x.cd) (hv : y.v = x.v) (hm : y.m = x.m) (q : EngQ) : y.queue q = x.queue q := by
  cases q
  · exact hcd
  · exact hv
  · exact hm

theorem Dev.arrive_cores (d : Dev) (site port : Nat) (p : Packet) : (d.arrive site port p).cores = d.cores := by
  rw [Dev.arrive]
  dsimp only
  split
  · rfl
  · rfl

theorem Dev.inPort_cores (d : Dev) (site port : Nat) (p : Packet) : (d.inPort site port p).cores = d.cores := by
  rw [Dev.inPort]
  split
  · exact Dev.arrive_cores ..
  · exact Dev.arrive_cores ..

theorem Dev.reply_cores (d : Dev) (site port : Nat) (p : Packet) : (d.reply site port p).cores = d.cores := by
  rw [Dev.reply, Dev.send1]
  split
  · exact Dev.inPort_cores ..
  · rfl

theorem Dev.noNewWords_freeCredit (d : Dev) (u q site core chan n : Nat) : d.NoNewWords (d.freeCredit u q site core chan n) := by
  rw [Dev.freeCredit]
  split
  · exact Dev.NoNewWords.refl d
  · refine (Dev.noNewWords_modCore d u _ fun q w hw => ?_).trans (Dev.noNewWords_of_cores (Dev.reply_cores ..))
    rwa [CoreS.queue_of_words rfl rfl rfl] at hw

theorem Dev.noNewWords_closeQ (d : Dev) (u q : Nat) : d.NoNewWords (d.closeQ u q) := by
  rw [Dev.closeQ]
  have hstart : d.NoNewWords (d.modCore u fun x => { x with qs := x.qs.filter fun m => m.q != q, qhead := x.qhead.set q 0 }) :=
    Dev.noNewWords_modCore d u _ fun p w hw => by rwa [CoreS.queue_of_words rfl rfl rfl] at hw
  exact (hstart.trans (Dev.noNewWords_each _ (fun e m => Dev.noNewWords_freeCredit e ..) _ _)).trans
    (Dev.noNewWords_of_cores rfl)

theorem Dev.noNewWords_coreOff (d : Dev) (u st : Nat) : d.NoNewWords (d.coreOff u st) :=
  (Dev.noNewWords_of_cores (Dev.setF_cores ..)).trans (Dev.noNewWords_each _ (fun e q => Dev.noNewWords_closeQ e u q) _ _)

theorem CoreS.mem_queue_of_keepWords {x : CoreS} {seq : Nat} {q : EngQ} {w : QWord}
    (h : w ∈ CoreS.queue { x with cd := keepWords seq x.cd, v := keepWords seq x.v, m := keepWords seq x.m, held := none, halting := 0 } q) :
    w ∈ x.queue q := by
  cases q
  · exact List.mem_of_mem_filter h
  · exact List.mem_of_mem_filter h
  · exact List.mem_of_mem_filter h

theorem CoreS.not_mem_queue_of_init {creds : List CredEnt} {q : EngQ} {w : QWord} :
    w ∉ CoreS.queue { CoreS.init with creds := creds } q := by
  cases q
  · exact List.not_mem_nil
  · exact List.not_mem_nil
  · exact List.not_mem_nil

/-- A stop keeps some of the words. -/
theorem Dev.noNewWords_stopAt (d : Dev) (u seq pc opc code : Nat) : d.NoNewWords (d.stopAt u seq pc opc code) := by
  rw [Dev.stopAt]
  have herr : d.NoNewWords ((((d.setF F.COR_SEQ_ERR_VALID u 1).setF F.COR_SEQ_ERR_PC u pc).setF F.COR_SEQ_ERR_OPC u opc).setF
      F.COR_SEQ_ERR_CODE u code) := Dev.noNewWords_of_cores rfl
  have hoff := herr.trans (Dev.noNewWords_coreOff _ u 3)
  dsimp only
  revert hoff
  generalize Dev.coreOff _ u 3 = e
  intro hoff
  exact hoff.trans (Dev.noNewWords_modCore e u _ fun q w hw => CoreS.mem_queue_of_keepWords hw)

theorem Dev.askCore_cores (d : Dev) (u : Nat) : (d.askCore u).cores = d.cores := by
  rw [Dev.askCore]
  split
  · rw [Dev.nwtAsk]
    split
    · rfl
    · dsimp only
      split
      · rfl
      · rfl
  · rfl

theorem Dev.noNewWords_retireCore (d : Dev) (u : Nat) : d.NoNewWords (d.retireCore u) := by
  rw [Dev.retireCore]
  split
  · exact Dev.NoNewWords.refl d
  · have hoff := Dev.noNewWords_coreOff d u 4
    revert hoff
    generalize d.coreOff u 4 = e
    intro hoff
    have hinit : e.NoNewWords (e.modCore u fun x => { CoreS.init with creds := x.creds }) :=
      Dev.noNewWords_modCore e u _ fun q w hw => absurd hw CoreS.not_mem_queue_of_init
    exact (hoff.trans hinit).trans (Dev.noNewWords_of_cores (Dev.askCore_cores ..))

theorem Dev.sendEvt_cores (d : Dev) (eu n : Nat) : (d.sendEvt eu n).cores = d.cores := rfl

theorem Dev.alert_cores (d : Dev) (eu lvl : Nat) : (d.alert eu lvl).cores = d.cores := by
  rw [Dev.alert]
  dsimp only
  split
  · split
    · rfl
    · rfl
  · split
    · rfl
    · rfl

theorem Dev.record_cores (d : Dev) (eu c base detail : Nat) (skink : Bool) : (d.record eu c base detail skink).cores = d.cores := by
  have hdeliver (p : Prop) [Decidable p] (e : Dev) (n : Nat) : (if p then e.sendEvt eu n else e).cores = e.cores := by
    split
    · rfl
    · rfl
  have hpend (p : Prop) [Decidable p] (e : Dev) (v : Nat) : (if p then e else e.setPend eu c v).cores = e.cores := by
    split
    · rfl
    · rfl
  have halert (p : Prop) [Decidable p] (e : Dev) (lvl : Nat) : (if p then e.alert eu lvl else e).cores = e.cores := by
    split
    · exact Dev.alert_cores ..
    · rfl
  rw [Dev.record]
  dsimp only
  split
  · rfl
  · rw [halert, hdeliver, hpend]
    rfl

/-- An event of a core whose level is below 3, and of no class that is observed, escalates to the retirement of a core at most
(R556, R557). -/
theorem Dev.noNewWords_raise_core (d : Dev) {eu c base detail : Nat} (hblk : eu / 65536 = 1) (hc : c ≠ 1 ∧ c ≠ 2) (hbase : base ≤ 1) :
    d.NoNewWords (d.raise eu c base detail false) := by
  have hlvl : (d.verdict eu c base false).2.1 ≤ 2 := by
    rw [Dev.verdict]
    split
    · exact Nat.le_trans hbase (by decide)
    · split
      · exact Nat.le_trans (Nat.min_le_right ..) (Nat.succ_le_succ hbase)
      · exact Nat.le_trans (Nat.min_le_right ..) (Nat.succ_le_succ hbase)
  rcases hverdict : d.verdict eu c base false with ⟨ok, lvl, esc⟩
  rw [hverdict] at hlvl
  change lvl ≤ 2 at hlvl
  have hobs : (eu / 65536 = 1 && !false && (c = 1 || c = 2)) = false := by simp [hc.1, hc.2]
  have hesc (e : Dev) : e.NoNewWords (e.escalate (eu / 65536) (eu % 65536) lvl detail) := by
    rw [Dev.escalate, if_pos hblk]
    dsimp only
    split
    · exact Dev.noNewWords_retireCore ..
    · rw [if_neg (by omega), if_neg (by omega)]
      exact Dev.NoNewWords.refl e
  rw [Dev.raise, hverdict]
  have hrec := Dev.noNewWords_of_cores (Dev.record_cores d eu c base detail false)
  revert hrec
  dsimp only
  generalize d.record eu c base detail = e
  intro hrec
  split
  · exact hrec
  · rw [hobs, if_neg Bool.false_ne_true, if_neg (by omega)]
    split
    · exact hrec.trans (hesc e)
    · exact hrec

theorem Dev.noNewWords_descErr (d : Dev) (u seq pc opc code : Nat) (hu : u < 65536) : d.NoNewWords (d.descErr u seq pc opc code) := by
  have hblk : evU bCOR u / 65536 = 1 := by
    simp only [evU, bCOR]
    omega
  exact (Dev.noNewWords_stopAt d u seq pc opc code).trans (Dev.noNewWords_raise_core _ hblk (by decide) (by decide))

/-! Issue to an engine queue (R91). -/

theorem coreU_lt (c : Core) : coreU c < 65536 := by
  have hsite := c.site.isLt
  have hcore := c.core.isLt
  rw [coreU, cu]
  omega

/-- Every word that core u holds after an issue stood in its queues before. -/
theorem Dev.mem_queue_of_issued {d : Dev} {u pc : Nat} (hu : u < 65536) (h : (d.core u).halting = 0) {b : WordBody} {x wasHeld : Bool}
    {q : EngQ} {w : QWord} (hw : w ∈ ((d.issued u b pc x wasHeld false).core u).queue q) : w ∈ (d.core u).queue q := by
  by_cases hpc : pc ≤ 8191
  · rwa [Dev.queue_issued h hpc] at hw
  · have hstop : d.NoNewWords (d.issued u b pc x wasHeld false) := by
      have hbefore (p : Prop) [Decidable p] (f : CoreS → CoreS) (hf : ∀ y q, (f y).queue q = y.queue q) :
          d.NoNewWords (((((if p then d else d.setF F.COR_SEQ_STATUS_SLEEP_HINT u 0).addWrap F.COR_STALL_CNT_ISSUED u 1).setF
            F.COR_STATUS_STATE u 1).modCore u f).setF F.COR_STATUS_PC u (d.fld F.COR_STATUS_PC u)) := by
        have hcores : (((if p then d else d.setF F.COR_SEQ_STATUS_SLEEP_HINT u 0).addWrap F.COR_STALL_CNT_ISSUED u 1).setF
            F.COR_STATUS_STATE u 1).cores = d.cores := by
          split
          · rfl
          · rfl
        refine ((Dev.noNewWords_of_cores hcores).trans (Dev.noNewWords_modCore _ u f fun q w hw => ?_)).trans
          (Dev.noNewWords_of_cores (Dev.setF_cores ..))
        rwa [hf] at hw
      unfold Dev.issued
      rw [if_pos (show pc > 8191 by omega)]
      refine Dev.NoNewWords.trans ?_ (Dev.noNewWords_descErr _ u _ _ _ _ hu)
      refine hbefore _ _ ?_
      exact fun y q => CoreS.queue_of_words rfl rfl rfl q
    exact hstop.words u q w hw

/-- An engine word that is ready, with room in its queue, issues to the queue's tail, and the head of the queue may start (R91, R96). -/
theorem State.issueWord_of_queue {s : State} {u : Nat} {g : Guard} {b : WordBody} {q : EngQ} (h : s.Ready u g b)
    (hq : queueOf b = some q) (hlen : ((s.dev.core u).queue q).length < 8) (wasHeld step : Bool) :
    s.issueWord u ⟨g, b⟩ wasHeld step =
      ((s.onDev fun d => (d.dispatch u (d.pc u) q b).issued u b (d.pc u + 1) true wasHeld step).startHead u q).onDev
        fun d => d.settle u := by
  obtain ⟨-, hmark, hguard, hlegal, hblocked⟩ := h
  have hroom : ¬ ((s.dev.core u).queue q).length ≥ 8 := Nat.not_le.2 hlen
  simp only [State.issueWord, hmark, hguard, hlegal, hblocked, hq, hroom, Bool.false_eq_true, Bool.true_eq_false, Bool.not_true,
    if_false, State.onDev, Dev.pc]

/-- The start of the only word of a queue, where nothing holds it and its operands can be read (R96, R97, R463). -/
theorem State.startHead_of_ok {s t : State} {u : Nat} {q : EngQ} {w : QWord} {rest : List QWord} {r : WordRes}
    (hq : (s.dev.core u).queue q = w :: rest)
    (hnew : w.started = false) (hwait : (syncOf w.body).waitEn = false)
    (hramp : isMac w.body = true →
      ((if isMac w.body then s.onDev fun d => d.rampAsk (u / 256) else s) : State).dev.rampHeld (u / 256) = false)
    (hstart : ((if isMac w.body then s.onDev fun d => d.rampAsk (u / 256) else s) : State).wordStart u w = .ok t r) :
    s.startHead u q = t.onDev fun d => (d.macTook u w.body).modWord u w.seq fun x =>
      { x with started := true, res := if r = WordRes.none then x.res else r } := by
  have hasked : s.rampAsked u w = if isMac w.body then s.onDev fun d => d.rampAsk (u / 256) else s := by
    rw [State.rampAsked, hnew, hwait]
    cases isMac w.body <;> rfl
  rw [State.startHead_of_cons hq, hasked]
  have hheld : (isMac w.body && ((if isMac w.body then s.onDev fun d => d.rampAsk (u / 256) else s) : State).dev.rampHeld (u / 256)) =
      false := by
    cases hmac : isMac w.body
    · rfl
    · rw [hmac] at hramp
      exact hramp rfl
  rw [State.startAsked, hnew, hwait, hheld, hstart]
  rfl

/-! The statement, for any engine word. -/

theorem CoreS.halting_setQueue (x : CoreS) (q : EngQ) (ws : List QWord) : (x.setQueue q ws).halting = x.halting := by
  cases q <;> rfl

theorem Dev.halting_modWord (d : Dev) (u seq : Nat) (f : QWord → QWord) :
    ((d.modWord u seq f).core u).halting = (d.core u).halting := by
  rw [Dev.modWord, Dev.core_modCore_self]

theorem Dev.core_macTook (d : Dev) (u v : Nat) (b : WordBody) : (d.macTook u b).core v = d.core v := by
  rw [Dev.macTook]
  split
  · rfl
  · rfl

/-- The state that the issue of an engine word leaves before the head of its queue starts (R91). -/
def State.dispatched (s : State) (u : Nat) (q : EngQ) (b : WordBody) : State :=
  s.onDev fun d => (d.dispatch u (d.pc u) q b).issued u b (d.pc u + 1) true false false

/-- The only word of a queue that was empty before a dispatch is the one dispatched. -/
theorem State.only_dispatched {s : State} {u : Nat} {q : EngQ} {b : WordBody} {w : QWord} (hu : u < 65536)
    (hhalt : (s.dev.core u).halting = 0) (hempty : (s.dev.core u).queue q = [])
    (hq : ((s.dispatched u q b).dev.core u).queue q = [w]) : w = s.dev.captured u (s.dev.pc u) b := by
  have hdisp : ((s.dev.dispatch u (s.dev.pc u) q b).core u).halting = 0 := by
    rw [Dev.core_dispatch, CoreS.halting_setQueue, hhalt]
  have hmem : w ∈ ((s.dispatched u q b).dev.core u).queue q := by
    rw [hq]
    exact List.mem_singleton_self w
  have hbefore := Dev.mem_queue_of_issued hu hdisp hmem
  rw [Dev.queue_dispatch_self, hempty] at hbefore
  exact List.mem_singleton.1 hbefore

theorem State.engineWord_issues {s : State} {c : Core} {g : Guard} {b : WordBody} {q : EngQ} (h : s.Ready (coreU c) g b)
    (hq : queueOf b = some q) (hlen : ((s.dev.core (coreU c)).queue q).length < 8) :
    s.Gives (s.word c g b) (((s.dispatched (coreU c) q b).startHead (coreU c) q).onDev fun d => d.settle (coreU c)) := by
  have hgives := State.gives_word h.1 g b
  rwa [State.issueWord_of_queue h hq hlen] at hgives

theorem State.engineWord_starts {s t : State} {c : Core} {g : Guard} {b : WordBody} {q : EngQ} {w : QWord} {r : WordRes}
    (h : s.Ready (coreU c) g b) (hq : queueOf b = some q) (hempty : (s.dev.core (coreU c)).queue q = [])
    (hw : ((s.dispatched (coreU c) q b).dev.core (coreU c)).queue q = [w]) (hwait : (syncOf b).waitEn = false)
    (hramp : isMac b = true →
      ((if isMac b then (s.dispatched (coreU c) q b).onDev fun d => d.rampAsk (coreU c / 256)
        else s.dispatched (coreU c) q b) : State).dev.rampHeld (coreU c / 256) = false)
    (hstart : ((if isMac b then (s.dispatched (coreU c) q b).onDev fun d => d.rampAsk (coreU c / 256)
      else s.dispatched (coreU c) q b) : State).wordStart (coreU c) w = .ok t r)
    (hhalt : (t.dev.core (coreU c)).halting = 0) :
    s.Gives (s.word c g b) (t.onDev fun d => (d.macTook (coreU c) b).modWord (coreU c) w.seq fun x =>
      { x with started := true, res := if r = WordRes.none then x.res else r }) := by
  have hword := State.only_dispatched (coreU_lt c) (Dev.halting_of_issues h.1) hempty hw
  have hbody : w.body = b := by rw [hword]; rfl
  have hnew : w.started = false := by rw [hword]; rfl
  have hgives := State.engineWord_issues h hq (by rw [hempty]; decide)
  subst hbody
  have hsettled : ((t.dev.macTook (coreU c) w.body).modWord (coreU c) w.seq fun x =>
      { x with started := true, res := if r = WordRes.none then x.res else r }).settle (coreU c) =
      (t.dev.macTook (coreU c) w.body).modWord (coreU c) w.seq fun x =>
        { x with started := true, res := if r = WordRes.none then x.res else r } :=
    Dev.settle_of_not_halting (by rw [Dev.halting_modWord, Dev.core_macTook, hhalt])
  rw [State.startHead_of_ok hw hnew hwait hramp hstart] at hgives
  simp only [State.onDev, hsettled] at hgives ⊢
  exact hgives

/-- Settles O17: each word's row issues it, to the queue of its engine. -/
theorem engineWordsIssueAndStart : Obligations.EngineWordsIssueAndStart := by
  unfold Obligations.EngineWordsIssueAndStart
  intro s c g
  have hgood (b : WordBody) (q : EngQ) (hq : queueOf b = some q) : s.Ready (coreU c) g b →
      (((s.dev.core (coreU c)).queue q).length < 8 → (s.dev.core (coreU c)).queue q ≠ [] →
        s.Gives (s.word c g b) (((s.dispatched (coreU c) q b).startHead (coreU c) q).onDev fun d => d.settle (coreU c))) ∧
      (∀ (w : QWord) (t : State) (r : WordRes), (s.dev.core (coreU c)).queue q = [] →
        ((s.dispatched (coreU c) q b).dev.core (coreU c)).queue q = [w] → (syncOf b).waitEn = false →
        (isMac b = true → ((if isMac b then (s.dispatched (coreU c) q b).onDev fun d => d.rampAsk (coreU c / 256)
          else s.dispatched (coreU c) q b) : State).dev.rampHeld (coreU c / 256) = false) →
        ((if isMac b then (s.dispatched (coreU c) q b).onDev fun d => d.rampAsk (coreU c / 256)
          else s.dispatched (coreU c) q b) : State).wordStart (coreU c) w = .ok t r →
        (t.dev.core (coreU c)).halting = 0 →
        s.Gives (s.word c g b) (t.onDev fun d => (d.macTook (coreU c) b).modWord (coreU c) w.seq fun x =>
          { x with started := true, res := if r = WordRes.none then x.res else r })) := fun h =>
    ⟨fun hlen _ => State.engineWord_issues h hq hlen, fun _ _ _ hempty hw hwait hramp hstart hhalt =>
      State.engineWord_starts h hq hempty hw hwait hramp hstart hhalt⟩
  refine ⟨fun y ds dd => ?_, fun y q dd drop => ?_, fun y ds chan sig sign sten sreg => ?_, fun y slot count chan => ?_,
    fun y ds clu slot => ?_, fun y sr sa off => ?_, fun y sr sa off => ?_, fun y sr sa dd off => ?_, fun y da dw dp acc => ?_,
    fun y da dw dp acc => ?_, fun y fn da db dc dd bs => ?_, fun y rfn da sd => ?_,
    fun y ds dd db ben ss sen sc cen rnd de een => ?_, fun y cfn da db pd sd => ?_⟩
  · exact hgood _ .m rfl
  · exact hgood _ .m rfl
  · exact hgood _ .m rfl
  · exact hgood _ .m rfl
  · exact hgood _ .m rfl
  · exact hgood _ .m rfl
  · exact hgood _ .m rfl
  · exact hgood _ .m rfl
  · exact hgood _ .cd rfl
  · exact hgood _ .cd rfl
  · exact hgood _ .v rfl
  · exact hgood _ .v rfl
  · exact hgood _ .v rfl
  · exact hgood _ .v rfl

end Sys2Proof.Machine
end

section
/-! PROOF. The statement on SLD, SST and DLD fails: its frame ranges over registers outside the map (spec/03_schedule_words.md R97,
R119; spec/00_scope.md R9). -/

namespace Sys2Proof.Machine

/-- A device after reset whose map of register words holds a cell for COR_FP_FLAGS of core 0 that says 0, the reset value: a map that
no step of the model leaves, but one that a `State` may hold. -/
def flagsCellState : State := { State.reset with dev := { State.reset.dev with regs := [(R.COR_FP_FLAGS.key 0 0, 0)] } }

/-- A register with the code of COR_FP_FLAGS and another reset value: it is not in the map. -/
def flagsAlias : Reg := { R.COR_FP_FLAGS with reset := 1 }

/-- SST's completion stores COR_FP_FLAGS again, with no flag added; storing the reset value removes the cell, and `flagsAlias` reads
its own reset value from then on. -/
theorem flagsAlias_changes : ((flagsCellState.applyRes 0 0 (WordRes.ofMem [(0, 0, leBytes 4 0)])).dev.getR flagsAlias 0 0) = 1 ∧
    flagsCellState.dev.getR flagsAlias 0 0 = 0 := by decide +kernel

/-- Refutes O19: the frame of SST's completion, "every register word stands", fails at `flagsAlias`. -/
theorem not_loadsAndStoresMoveTheirBytes : ¬ Obligations.LoadsAndStoresMoveTheirBytes := by
  unfold Obligations.LoadsAndStoresMoveTheirBytes
  intro h
  obtain ⟨-, -, -, -, hsst, -, -⟩ := h flagsCellState 0 0 0 0
  obtain ⟨-, -, hregs, -, -⟩ := hsst 0 (by decide)
  obtain ⟨hafter, hbefore⟩ := flagsAlias_changes
  have hsame := hregs flagsAlias 0 0
  rw [hbefore] at hsame
  exact absurd (hafter.symm.trans hsame) (by decide)

end Sys2Proof.Machine
end

section
/-! PROOF. The generator of the sampling unit, the router's choice of experts and the block selection
(spec/05_conditional_computation.md R188, R189, R207, R218). -/

namespace Sys2Proof.Machine

/-! The generator: each of its three steps takes no value but 0 to 0 (R218). -/

/-- A word that its own left shift equals is 0: bit by bit from the low end. -/
theorem eq_zero_of_xor_shiftLeft {n : Nat} (hn : 0 < n) {x : Word} (h : x ^^^ (x <<< n) = 0) : x = 0 := by
  have hself : x = x <<< n := BitVec.xor_eq_zero_iff.1 h
  have hbit : ∀ i, x.getLsbD i = false := by
    intro i
    induction i using Nat.strongRecOn with
    | _ i ih =>
      rw [hself, BitVec.getLsbD_shiftLeft]
      by_cases hi : i < n
      · simp [hi]
      · simp [ih (i - n) (by omega)]
  exact BitVec.eq_of_getLsbD_eq fun i _ => by simp [hbit i]

/-- A word that its own right shift equals is 0: bit by bit from the high end. -/
theorem eq_zero_of_xor_ushiftRight {n : Nat} (hn : 0 < n) {x : Word} (h : x ^^^ (x >>> n) = 0) : x = 0 := by
  have hself : x = x >>> n := BitVec.xor_eq_zero_iff.1 h
  have hbit : ∀ m i, 64 - i = m → x.getLsbD i = false := by
    intro m
    induction m using Nat.strongRecOn with
    | _ m ih =>
      intro i hm
      by_cases hi : i < 64
      · rw [hself, BitVec.getLsbD_ushiftRight]
        exact ih (64 - (n + i)) (by omega) (n + i) rfl
      · exact BitVec.getLsbD_of_ge x i (by omega)
  exact BitVec.eq_of_getLsbD_eq fun i _ => by simp [hbit _ i rfl]

/-- Settles O40: the three shifts, each of which keeps a word from 0. -/
theorem generatorStepsAsStated : Obligations.GeneratorStepsAsStated := by
  unfold Obligations.GeneratorStepsAsStated
  exact ⟨fun _ => rfl, fun _ h => eq_zero_of_xor_shiftLeft (by decide) (eq_zero_of_xor_ushiftRight (by decide)
    (eq_zero_of_xor_shiftLeft (by decide) h))⟩

/-! Sorting keeps the elements. -/

theorem perm_insertBy {α : Type} (lt : α → α → Bool) (x : α) (xs : List α) : (insertBy lt x xs).Perm (x :: xs) := by
  induction xs with
  | nil => exact List.Perm.refl _
  | cons y ys ih =>
    rw [insertBy]
    split
    · exact List.Perm.refl _
    · exact (ih.cons y).trans (List.Perm.swap x y ys)

theorem perm_sortBy {α : Type} (lt : α → α → Bool) (xs : List α) : (sortBy lt xs).Perm xs := by
  have hfold : ∀ acc : List α, (xs.foldl (fun a x => insertBy lt x a) acc).Perm (xs ++ acc) := by
    induction xs with
    | nil => exact fun acc => List.Perm.refl acc
    | cons x xs ih =>
      intro acc
      exact (ih _).trans (((perm_insertBy lt x acc).append_left xs).trans List.perm_middle)
  have h := hfold []
  rwa [List.append_nil] at h

/-! The choice of experts (R188, R189). -/

/-- What the choice keeps of an expert: it exists, and its score is a number above minus infinity. -/
def Choosable (scores : List Nat) (e : Nat) : Prop := e < scores.length ∧ negInf < scoreKey (scores.getD e 0)

/-- The choice adds to what is chosen some of the candidates, each once and choosable, up to k. -/
theorem routePick_chooses (k cap : Nat) (scores : List Nat) (cand ch : List Nat) (cnt : SMap Nat) (ov : Nat) (hlen : ch.length ≤ k)
    (hnodup : (ch ++ cand).Nodup) (hch : ∀ e ∈ ch, Choosable scores e) (hcand : ∀ e ∈ cand, e < scores.length) :
    (routePick k cap scores cand (ch, cnt, ov)).1.length ≤ k ∧ (routePick k cap scores cand (ch, cnt, ov)).1.Nodup ∧
      ∀ e ∈ (routePick k cap scores cand (ch, cnt, ov)).1, Choosable scores e := by
  induction cand generalizing ch cnt ov with
  | nil => exact ⟨hlen, by rwa [List.append_nil] at hnodup, hch⟩
  | cons e r ih =>
    obtain ⟨he, hr⟩ := List.forall_mem_cons.1 hcand
    have hperm : (ch ++ e :: r).Nodup ↔ (e :: (ch ++ r)).Nodup := List.perm_middle.nodup_iff
    rw [routePick]
    split
    case isTrue => exact ⟨hlen, (List.nodup_append.1 hnodup).1, hch⟩
    case isFalse hgo =>
      simp only [Bool.or_eq_true, decide_eq_true_eq, not_or, not_le] at hgo
      obtain ⟨hfull, hscore⟩ := hgo
      split
      · exact ih ch cnt (ov + 1) hlen (List.nodup_cons.1 (hperm.1 hnodup)).2 hch hr
      · refine ih (ch ++ [e]) _ ov ?_ (by simpa using hnodup) ?_ hr
        · rw [List.length_append, List.length_singleton]
          omega
        · intro x hx
          rcases List.mem_append.1 hx with hx | hx
          · exact hch x hx
          · exact List.mem_singleton.1 hx ▸ ⟨he, hscore⟩

/-- Settles O37: the candidates are the experts in some order, each once. -/
theorem routingChoosesDistinctExperts : Obligations.RoutingChoosesDistinctExperts := by
  unfold Obligations.RoutingChoosesDistinctExperts
  intro k cap scores cnt ov
  have hcand : (routeCand scores).Perm (List.range scores.length) := perm_sortBy _ _
  refine routePick_chooses k cap scores _ [] cnt ov (Nat.zero_le k) ?_ (fun e he => absurd he List.not_mem_nil) fun e he => ?_
  · exact (hcand.nodup_iff.2 List.nodup_range).sublist (List.take_sublist _ _)
  · exact List.mem_range.1 (hcand.mem_iff.1 (List.mem_of_mem_take he))

/-! The block selection (R207). -/

/-- The blocks that a request forces: the first, where KEEP asks for it, and the most recent ones. -/
def forcedBlocks (nblk nrec : Nat) (keep : Bool) : List Nat :=
  (if keep then [0] else []) ++ ((List.range nblk).filter fun b => b + nrec ≥ nblk && !(keep && b == 0))

theorem mem_forcedBlocks_first {nblk nrec : Nat} : 0 ∈ forcedBlocks nblk nrec true := List.mem_cons_self

theorem mem_forcedBlocks_recent {nblk nrec b : Nat} {keep : Bool} (hb : b < nblk) (hrec : nblk ≤ b + nrec) :
    b ∈ forcedBlocks nblk nrec keep := by
  by_cases hfirst : keep = true ∧ b = 0
  · obtain ⟨rfl, rfl⟩ := hfirst
    exact mem_forcedBlocks_first
  · refine List.mem_append_right _ (List.mem_filter.2 ⟨List.mem_range.2 hb, ?_⟩)
    have hother : keep = false ∨ b ≠ 0 := by
      cases keep
      · exact Or.inl rfl
      · exact Or.inr fun h0 => hfirst ⟨rfl, h0⟩
    simpa [hrec] using hother

/-- The most recent blocks are NREC at most. -/
theorem length_recent_le (nblk nrec : Nat) : ((List.range nblk).filter fun b => decide (b + nrec ≥ nblk)).length ≤ nrec := by
  have hsub : ((List.range nblk).filter fun b => decide (b + nrec ≥ nblk)) ⊆ List.range' (nblk - nrec) nrec := by
    intro b hb
    obtain ⟨hlt, hrec⟩ := List.mem_filter.1 hb
    rw [List.mem_range] at hlt
    rw [decide_eq_true_eq] at hrec
    rw [List.mem_range'_1]
    omega
  have hle := (List.Nodup.filter _ List.nodup_range).subperm hsub |>.length_le
  rwa [List.length_range'] at hle

theorem length_forcedBlocks_le (nblk nrec : Nat) (keep : Bool) : (forcedBlocks nblk nrec keep).length ≤ b2n keep + nrec := by
  have hfirst : (if keep then [0] else [] : List Nat).length = b2n keep := by cases keep <;> rfl
  have hrec : ((List.range nblk).filter fun b => b + nrec ≥ nblk && !(keep && b == 0)).length ≤ nrec := by
    refine Nat.le_trans (List.Sublist.length_le ?_) (length_recent_le nblk nrec)
    exact List.monotone_filter_right _ fun b hb => (Bool.and_eq_true_iff.1 hb).1
  rw [forcedBlocks, List.length_append, hfirst]
  exact Nat.add_le_add_left hrec _

/-- A selection: the blocks, in order, that are forced or among the best of the others, and every block with a token where all are
allowed. -/
theorem selChoose_eq (nblk nsel nrec : Nat) (keep : Bool) (full : Nat → Bool) (score : Nat → Int) :
    ∃ order : List Nat, selChoose nblk nsel nrec keep full score =
      (List.range nblk).filter fun b =>
        (forcedBlocks nblk nrec keep ++ order.take (nsel - (forcedBlocks nblk nrec keep).length)).contains b ||
          (decide (nblk ≤ nsel) && full b) :=
  ⟨_, rfl⟩

/-- A selection that may not hold every block holds no more than its forced blocks and the best of the others. -/
theorem length_selection_le {nblk nsel : Nat} {sel : List Nat} (hsel : sel.length ≤ nsel) (full : Nat → Bool) :
    ((List.range nblk).filter fun b => sel.contains b || (decide (nblk ≤ nsel) && full b)).length ≤ nsel := by
  by_cases hall : nblk ≤ nsel
  · refine Nat.le_trans (List.length_filter_le _ _) ?_
    rwa [List.length_range]
  · have hsub : ((List.range nblk).filter fun b => sel.contains b || (decide (nblk ≤ nsel) && full b)) ⊆ sel := by
      intro b hb
      simpa [hall] using (List.mem_filter.1 hb).2
    exact Nat.le_trans ((List.Nodup.filter _ List.nodup_range).subperm hsub).length_le hsel

/-- Settles O36, by what the selection filters from the blocks. -/
theorem selectionsHoldTheForcedBlocks : Obligations.SelectionsHoldTheForcedBlocks := by
  unfold Obligations.SelectionsHoldTheForcedBlocks
  intro nblk nsel nrec keep full score hforced hnblk
  obtain ⟨order, heq⟩ := selChoose_eq nblk nsel nrec keep full score
  have hbase := length_forcedBlocks_le nblk nrec keep
  have hmem {b : Nat} (hb : b < nblk) (h : b ∈ forcedBlocks nblk nrec keep) : b ∈ selChoose nblk nsel nrec keep full score := by
    rw [heq]
    refine List.mem_filter.2 ⟨List.mem_range.2 hb, Bool.or_eq_true_iff.2 (Or.inl ?_)⟩
    exact List.contains_iff_mem.2 (List.mem_append_left _ h)
  refine ⟨fun b hb => ?_, ?_, ?_, fun hkeep => ?_, fun b hb hrec => hmem hb (mem_forcedBlocks_recent hb hrec), fun hall b hb hfull => ?_⟩
  · rw [heq] at hb
    exact List.mem_range.1 (List.mem_of_mem_filter hb)
  · rw [heq]
    exact List.pairwise_lt_range.filter _
  · rw [heq]
    refine length_selection_le ?_ full
    rw [List.length_append]
    have htake := List.length_take_le (nsel - (forcedBlocks nblk nrec keep).length) order
    omega
  · subst hkeep
    exact hmem hnblk mem_forcedBlocks_first
  · rw [heq]
    refine List.mem_filter.2 ⟨List.mem_range.2 hb, Bool.or_eq_true_iff.2 (Or.inr ?_)⟩
    simp [hall, hfull]

end Sys2Proof.Machine
end

section
/-! PROOF. Reads of HBM, and APPLY of a Hallway (spec/08_memory_tiers.md R308, R310; spec/01_fields_seams_and_package.md R32). -/

namespace Sys2Proof.Machine

/-! HBM reads. -/

theorem isEmpty_filter_eq_any {α : Type} (p : α → Bool) (xs : List α) : (!(xs.filter p).isEmpty) = xs.any p := by
  induction xs with
  | nil => rfl
  | cons x xs ih =>
    rw [List.any_cons, List.filter_cons]
    cases hp : p x
    · simpa using ih
    · rfl

/-- Settles O45: what is read depends on the marks alone, and only the device records the errors. -/
theorem hbmReadsCarryZerosOnErrors : Obligations.HbmReadsCarryZerosOnErrors := by
  unfold Obligations.HbmReadsCarryZerosOnErrors
  intro s a n
  have hbad := isEmpty_filter_eq_any (fun g => sget s.ecc 0 g == 2) (granules 32 a n)
  refine ⟨⟨rfl, rfl, rfl, rfl⟩, rfl, hbad, ?_⟩
  rw [← hbad]
  cases h : ((granules 32 a n).filter fun g => sget s.ecc 0 g == 2).isEmpty
  · simp only [State.hbmRead, h]
    rfl
  · simp only [State.hbmRead, h]
    rfl

/-! APPLY. -/

/-- One entry of the active tables takes the staged one. -/
def Dev.takeStaged (d : Dev) (x : Nat) : Dev := { d with hw := { d.hw with act := sset d.hw.act 0 x (sget d.hw.staged 0 x) } }

/-- The entries of a Hallway's tables. -/
def hwKeys (n k : Nat) : List Nat := [false, true].flatMap fun dr => (List.range 34).map fun b => hwKey n k dr b

theorem mem_hwKeys {n k x : Nat} : x ∈ hwKeys n k ↔ ∃ dr b, b < 34 ∧ x = hwKey n k dr b := by
  simp only [hwKeys, List.mem_flatMap, List.mem_map, List.mem_range]
  constructor
  · rintro ⟨dr, -, b, hb, rfl⟩
    exact ⟨dr, b, hb, rfl⟩
  · rintro ⟨dr, b, hb, rfl⟩
    exact ⟨dr, by cases dr <;> decide, b, hb, rfl⟩

theorem Dev.takeStaged_each_frame (xs : List Nat) (d : Dev) : (d.each xs Dev.takeStaged).hw.staged = d.hw.staged ∧
    (d.each xs Dev.takeStaged).regs = d.regs := by
  induction xs generalizing d with
  | nil => exact ⟨rfl, rfl⟩
  | cons x xs ih => exact ih (d.takeStaged x)

theorem Dev.takeStaged_each_act (xs : List Nat) (d : Dev) (y : Nat) :
    sget (d.each xs Dev.takeStaged).hw.act 0 y = if y ∈ xs then sget d.hw.staged 0 y else sget d.hw.act 0 y := by
  induction xs generalizing d with
  | nil => rfl
  | cons x xs ih =>
    have hx : sget (d.takeStaged x).hw.act 0 y = if y = x then sget d.hw.staged 0 x else sget d.hw.act 0 y := sget_sset ..
    have h := ih (d.takeStaged x)
    rw [hx] at h
    refine h.trans ?_
    by_cases hy : y = x
    · subst hy
      simp [Dev.takeStaged]
    · simp [hy, Dev.takeStaged]

theorem Dev.each_each {α : Type} (d : Dev) (xs ys : List α) (f : Dev → α → Dev) : (d.each xs f).each ys f = d.each (xs ++ ys) f :=
  List.foldl_append.symm

theorem Dev.each_map {α β : Type} (d : Dev) (g : α → β) (xs : List α) (f : Dev → β → Dev) :
    d.each (xs.map g) f = d.each xs fun d x => f d (g x) := List.foldl_map

theorem Dev.each_pair {α : Type} (d : Dev) (x y : α) (f : Dev → α → Dev) : d.each [x, y] f = f (f d x) y := rfl

/-- APPLY takes every staged entry, where no staged entry names one position twice (R32). -/
theorem Dev.hwApply_of_ok {d : Dev} {n k : Nat} (hstate : d.hwState n k = 2) (hok : d.hwStagedOk n k = true) :
    d.hwApply n k = (d.each (hwKeys n k) Dev.takeStaged).showBad n k := by
  have hkeys : hwKeys n k = (List.range 34).map (hwKey n k false) ++ (List.range 34).map (hwKey n k true) := by
    rw [hwKeys, List.flatMap_cons, List.flatMap_cons, List.flatMap_nil, List.append_nil]
  rw [hkeys, ← Dev.each_each, Dev.each_map, Dev.each_map, Dev.hwApply, if_pos (by rw [hstate, hok]; rfl), Dev.each_pair]
  simp only [Dev.takeStaged]

theorem Dev.hwApply_of_rejected {d : Dev} {n k : Nat} (h : (d.hwState n k = 2 && d.hwStagedOk n k) = false) :
    d.hwApply n k = d.setF F.FLD_HW_STATUS_APPLY_REJ n 1 k := by
  rw [Dev.hwApply, h]
  rfl

/-- A staged entry that names one position twice. -/
def Dev.StagedTwice (d : Dev) (n k : Nat) : Prop :=
  ∃ dr b, b < 34 ∧ bitOf (sget d.hw.staged 0 (hwKey n k dr b)) 5 = true ∧
    bitOf (sget d.hw.staged 0 (hwKey n k dr b)) 13 = true ∧
    bitsOf (sget d.hw.staged 0 (hwKey n k dr b)) 0 5 = bitsOf (sget d.hw.staged 0 (hwKey n k dr b)) 8 5

theorem Dev.hwStagedOk_iff {d : Dev} {n k : Nat} : d.hwStagedOk n k = true ↔ ¬ d.StagedTwice n k := by
  simp only [Dev.hwStagedOk, Dev.StagedTwice, List.all_eq_true, List.mem_range, Bool.not_eq_true', Bool.and_eq_false_iff,
    beq_eq_false_iff_ne, not_exists, not_and]
  constructor
  · intro h dr b hb h5 h13 hsame
    rcases h dr (by cases dr <;> decide) b hb with (h | h) | h
    · exact absurd h5 (by rw [h]; decide)
    · exact absurd h13 (by rw [h]; decide)
    · exact h hsame
  · intro h dr _ b hb
    by_cases h5 : bitOf (sget d.hw.staged 0 (hwKey n k dr b)) 5 = true
    · by_cases h13 : bitOf (sget d.hw.staged 0 (hwKey n k dr b)) 13 = true
      · exact Or.inr (h dr b hb h5 h13)
      · exact Or.inl (Or.inr (Bool.eq_false_iff.2 h13))
    · exact Or.inl (Or.inl (Bool.eq_false_iff.2 h5))

theorem exec_apply {s : State} {f : FieldN} {h : Fin 8} (hreach : s.dev.hwReach f.val h.val = true) :
    exec (.apply f h) s = .next (s.onDev fun d => d.hwApply f.val h.val) := by
  change execApply f h s = _
  simp only [execApply, State.upd, State.onDev, hreach, if_true]

/-- Settles O23: APPLY takes the staged entries, and shows the positions that are bad now in STATUS. -/
theorem applyMakesTheStagedTableActive : Obligations.ApplyMakesTheStagedTableActive := by
  unfold Obligations.ApplyMakesTheStagedTableActive
  intro s f h d n k twice hreach
  rw [exec_apply hreach]
  refine ⟨fun hstate htwice => ?_, fun hrej => ?_⟩
  · obtain ⟨hstaged, hregs⟩ := Dev.takeStaged_each_frame (hwKeys n k) d
    have hact := Dev.takeStaged_each_act (hwKeys n k) d
    refine ⟨_, rfl, ⟨rfl, rfl, rfl, rfl⟩, ?_⟩
    have happly : (s.onDev fun d => d.hwApply f.val h.val).dev = (d.each (hwKeys n k) Dev.takeStaged).showBad n k :=
      Dev.hwApply_of_ok hstate (Dev.hwStagedOk_iff.2 htwice)
    rw [happly]
    generalize d.each (hwKeys n k) Dev.takeStaged = e at hstaged hregs hact
    refine ⟨fun dr b hb => ?_, fun x hx => ?_, hstaged, ?_, fun r v i hkey => ?_⟩
    · exact (hact _).trans (if_pos (mem_hwKeys.2 ⟨dr, b, hb, rfl⟩))
    · refine (hact x).trans (if_neg fun hmem => ?_)
      obtain ⟨dr, b, hb, rfl⟩ := mem_hwKeys.1 hmem
      exact hx dr b hb rfl
    · rw [Dev.showBad, Dev.hwState, Dev.fld_setF_apart (f := F.FLD_HW_STATUS_BAD_IN) (g := F.FLD_HW_STATUS_STATE) rfl (by decide) (by decide),
        Dev.fld_setF_apart (f := F.FLD_HW_STATUS_BAD_OUT) (g := F.FLD_HW_STATUS_STATE) rfl (by decide) (by decide),
        Dev.fld_congr hregs]
      exact hstate
    · rw [Dev.showBad, Dev.getR_setF_key _ F.FLD_HW_STATUS_BAD_IN r n v k i _ hkey,
        Dev.getR_setF_key _ F.FLD_HW_STATUS_BAD_OUT r n v k i _ hkey, Dev.getR, hregs, Dev.getR]
  · have hno : (d.hwState n k = 2 && d.hwStagedOk n k) = false := by
      rw [Bool.and_eq_false_iff]
      rcases hrej with hstate | htwice
      · exact Or.inl (decide_eq_false hstate)
      · exact Or.inr (Bool.eq_false_iff.2 fun hok => Dev.hwStagedOk_iff.1 hok htwice)
    have hrejected := Dev.hwApply_of_rejected hno
    exact congrArg (fun e => Host.Outcome.next { s with dev := e }) hrejected

end Sys2Proof.Machine
end

section
/-! PROOF. What a receiver finds in a flit (spec/06_fabric.md R236, R237, R260). First the CRC: one inverted bit changes it; then the
flit that is sent; then the statement. -/

namespace Sys2Proof.Machine

/-! The CRC tells two words that differ in one bit apart (Table 6-3). -/

/-- One step of the CRC. -/
def crcStep (c : Nat) (b : Bool) : Nat := if bitOf c 0 != b then c / 2 ^^^ 0xEDB88320 else c / 2

theorem crcRun_cons (b : Bool) (bs : List Bool) (c : Nat) : crcRun (b :: bs) c = crcRun bs (crcStep c b) := by
  rw [crcRun, crcStep]
  split <;> rfl

theorem crcRun_append (xs ys : List Bool) (c : Nat) : crcRun (xs ++ ys) c = crcRun ys (crcRun xs c) := by
  induction xs generalizing c with
  | nil => rfl
  | cons x xs ih => rw [List.cons_append, crcRun_cons, crcRun_cons, ih]

theorem crcStep_lt {c : Nat} (h : c < 2 ^ 32) (b : Bool) : crcStep c b < 2 ^ 32 := by
  have hhalf : c / 2 < 2 ^ 32 := Nat.lt_of_le_of_lt (Nat.div_le_self c 2) h
  rw [crcStep]
  split
  · exact Nat.xor_lt_two_pow hhalf (by decide)
  · exact hhalf

theorem crcRun_lt (bs : List Bool) {c : Nat} (h : c < 2 ^ 32) : crcRun bs c < 2 ^ 32 := by
  induction bs generalizing c with
  | nil => exact h
  | cons b bs ih =>
    rw [crcRun_cons]
    exact ih (crcStep_lt h b)

theorem crc32_lt (bs : List Bool) : crc32 bs < 2 ^ 32 := Nat.xor_lt_two_pow (crcRun_lt bs (by decide)) (by decide)

/-- The top bit after a step says whether the polynomial was added. -/
theorem testBit_crcStep {c : Nat} (h : c < 2 ^ 32) (b : Bool) : (crcStep c b).testBit 31 = (bitOf c 0 != b) := by
  have hhalf : (c / 2).testBit 31 = false := Nat.testBit_lt_two_pow (by omega)
  have hpoly : (0xEDB88320 : Nat).testBit 31 = true := by decide
  rw [crcStep]
  cases bitOf c 0 != b
  · exact hhalf
  · exact (Nat.testBit_xor ..).trans (by rw [hhalf, hpoly]; rfl)

theorem crcStep_inj {c c' : Nat} (h : c < 2 ^ 32) (h' : c' < 2 ^ 32) {b : Bool} (heq : crcStep c b = crcStep c' b) : c = c' := by
  have hflag : (bitOf c 0 != b) = (bitOf c' 0 != b) := by rw [← testBit_crcStep h, heq, testBit_crcStep h']
  have hlow : bitOf c 0 = bitOf c' 0 := by
    revert hflag
    cases bitOf c 0 <;> cases bitOf c' 0 <;> cases b <;> decide
  have hhalf : c / 2 = c' / 2 := by
    rw [crcStep, crcStep, hflag] at heq
    split at heq
    · exact (xor_left_involutive _).injective heq
    · exact heq
  have hmod : c % 2 = c' % 2 := by
    simp only [bitOf, Nat.pow_zero, Nat.div_one] at hlow
    have h2 := Nat.mod_two_eq_zero_or_one c
    have h2' := Nat.mod_two_eq_zero_or_one c'
    rcases h2 with h2 | h2 <;> rcases h2' with h2' | h2' <;> simp_all
  omega

theorem crcRun_inj (bs : List Bool) {c c' : Nat} (h : c < 2 ^ 32) (h' : c' < 2 ^ 32) (heq : crcRun bs c = crcRun bs c') : c = c' := by
  induction bs generalizing c c' with
  | nil => exact heq
  | cons b bs ih =>
    rw [crcRun_cons, crcRun_cons] at heq
    exact crcStep_inj h h' (ih (crcStep_lt h b) (crcStep_lt h' b) heq)

/-- One inverted bit changes the CRC. -/
theorem crc32_ne_of_flip (xs ys : List Bool) (b : Bool) : crc32 (xs ++ (!b) :: ys) ≠ crc32 (xs ++ b :: ys) := by
  intro heq
  have hrun := (xor_left_involutive _).injective heq
  rw [crcRun_append, crcRun_append, crcRun_cons, crcRun_cons] at hrun
  have hx : crcRun xs 0xFFFFFFFF < 2 ^ 32 := crcRun_lt xs (by decide)
  have hstep := congrArg (fun n => n.testBit 31) (crcRun_inj ys (crcStep_lt hx _) (crcStep_lt hx _) hrun)
  rw [testBit_crcStep hx, testBit_crcStep hx] at hstep
  revert hstep
  cases bitOf (crcRun xs 0xFFFFFFFF) 0 <;> cases b <;> decide

/-! The flit as it is sent (R236). -/

/-- The low bits of a number are those of its lowest field. -/
theorem natBits_bitsOf (x n : Nat) : natBits (bitsOf x 0 n) n = natBits x n := by
  unfold natBits
  refine List.map_congr_left fun i hi => ?_
  rw [bitOf_bitsOf, decide_eq_true (List.mem_range.1 hi), Bool.true_and, Nat.zero_add]

theorem bitsOf_of_lt {x w : Nat} (h : x < 2 ^ w) : bitsOf x 0 w = x := by
  rw [bitsOf, Nat.pow_zero, Nat.div_one, Nat.mod_eq_of_lt h]

theorem b2n_le (b : Bool) : b2n b ≤ 1 := by
  cases b <;> decide

/-- The three fields of a flit that its receiver checks, out of `data`, a high field and a low one of the sideband, and a check. -/
theorem bitsOf_flit {data crc hi low : Nat} (w : Nat) (hdata : data < 2 ^ w) (hcrc : crc < 2 ^ 32) (hhi : hi < 2 ^ 16)
    (hlow : low < 2 ^ 16) :
    bitsOf (data + (crc * 2 ^ 32 + hi * 2 ^ 16 + low) * 2 ^ w) 0 w = data ∧
    bitsOf (data + (crc * 2 ^ 32 + hi * 2 ^ 16 + low) * 2 ^ w) (0 + w) 16 = low ∧
    bitsOf (data + (crc * 2 ^ 32 + hi * 2 ^ 16 + low) * 2 ^ w) (32 + w) 32 = crc := by
  have hside : crc * 2 ^ 32 + hi * 2 ^ 16 + low = low + 2 ^ 16 * (hi + 2 ^ 16 * crc) := by ring
  have hside' : low + 2 ^ 16 * (hi + 2 ^ 16 * crc) = (low + 2 ^ 16 * hi) + 2 ^ 32 * crc := by ring
  rw [Nat.mul_comm _ (2 ^ w), hside]
  refine ⟨?_, ?_, ?_⟩
  · rw [bitsOf_below (by omega), bitsOf_of_lt hdata]
  · rw [bitsOf_above hdata, bitsOf_below (by omega), bitsOf_of_lt hlow]
  · rw [bitsOf_above hdata, hside', bitsOf_above (lo := 0) (a := 32) (by omega), bitsOf_of_lt hcrc]

/-- The sideband of a flit above its CSEQ field, and that field. -/
theorem mkFlit_eq (data : Nat) (circ : Bool) (ft : Nat) (vc ep kill : Bool) (crd0 crd1 cseq : Nat) (hft : ft < 4) :
    ∃ hi low, hi < 2 ^ 16 ∧ low < 2 ^ 16 ∧ mkFlit data circ ft vc ep kill crd0 crd1 cseq =
      data + (crc32 (natBits data 1024 ++ natBits low 16) * 2 ^ 32 + hi * 2 ^ 16 + low) * 2 ^ 1024 := by
  have hcirc := b2n_le circ
  have hvc := b2n_le vc
  have hep := b2n_le ep
  have hkill := b2n_le kill
  have hhi : 2 ^ 10 + b2n circ * 2 ^ 9 + ft * 2 ^ 7 + b2n vc * 2 ^ 6 + b2n ep * 2 ^ 5 + b2n kill * 2 ^ 4 + crd0 % 4 * 4 +
      crd1 % 4 < 2 ^ 11 := by omega
  rw [mkFlit]
  generalize 2 ^ 10 + b2n circ * 2 ^ 9 + ft * 2 ^ 7 + b2n vc * 2 ^ 6 + b2n ep * 2 ^ 5 + b2n kill * 2 ^ 4 + crd0 % 4 * 4 +
    crd1 % 4 = hi at hhi
  have hcheck : Config.sidebandCheck hi % 32 < 32 := Nat.mod_lt _ (by decide)
  have hhigh : hi * 2 ^ 5 + Config.sidebandCheck hi % 32 < 2 ^ 16 := by omega
  have hlow : cseq % 256 * 256 < 2 ^ 16 := by omega
  refine ⟨hi * 2 ^ 5 + Config.sidebandCheck hi % 32, cseq % 256 * 256, hhigh, hlow, ?_⟩
  rw [Nat.add_mul (hi * 2 ^ 5), Nat.mul_assoc hi, ← pow_add 2 5 16, ← Nat.add_assoc]

/-- What a receiver checks of a flit as it was sent. -/
theorem mkFlit_fields {data : Nat} (circ : Bool) {ft : Nat} (vc ep kill : Bool) (crd0 crd1 cseq : Nat) (hdata : data < 2 ^ 1024)
    (hft : ft < 4) :
    bitsOf (mkFlit data circ ft vc ep kill crd0 crd1 cseq) 0 1024 = data ∧
    crc32 (natBits (mkFlit data circ ft vc ep kill crd0 crd1 cseq) 1024 ++
      natBits (bitsOf (mkFlit data circ ft vc ep kill crd0 crd1 cseq) 1024 16) 16) =
      bitsOf (mkFlit data circ ft vc ep kill crd0 crd1 cseq) 1056 32 := by
  obtain ⟨hi, low, hhi, hlow, heq⟩ := mkFlit_eq data circ ft vc ep kill crd0 crd1 cseq hft
  obtain ⟨hd, hl, hc⟩ := bitsOf_flit 1024 hdata (crc32_lt (natBits data 1024 ++ natBits low 16)) hhi hlow
  rw [← heq] at hd hl hc
  generalize mkFlit data circ ft vc ep kill crd0 crd1 cseq = x at hd hl hc
  rw [Nat.zero_add] at hl
  refine ⟨hd, ?_⟩
  rw [← natBits_bitsOf x, hd, hl]
  exact hc.symm

/-! What the receiver finds (R237, R260). -/

/-- The bits that the CRC covers, when one data bit is inverted. -/
theorem natBits_flipAll {x k n : Nat} (hk : k < n) : ∃ xs ys b, natBits x n = xs ++ b :: ys ∧ natBits (flipAll x [k]) n = xs ++ (!b) :: ys := by
  have hset : natBits (flipAll x [k]) n = (natBits x n).set k (!bitOf x k) := by
    apply List.ext_getElem (by simp [natBits])
    intro i hi _
    have hlt : i < n := by simpa [natBits] using hi
    simp only [natBits, List.getElem_map, List.getElem_range, List.getElem_set, bitOf_flipAll _ _ _ (List.nodup_singleton k)]
    by_cases hik : k = i
    · subst hik
      simp
    · simp [hik, Ne.symm hik]
  have hlen : k < (natBits x n).length := by simpa [natBits] using hk
  have hget : (natBits x n)[k] = bitOf x k := by simp [natBits]
  refine ⟨(natBits x n).take k, (natBits x n).drop (k + 1), bitOf x k, ?_, ?_⟩
  · rw [← hget, List.getElem_cons_drop, List.take_append_drop]
  · rw [hset, List.set_eq_take_append_cons_drop, if_pos hlen]

/-- The protected sideband bits that differ are those inverted. -/
theorem protected_flips {ps : List Nat} (h : ps.Nodup) (x : Nat) :
    ((List.range 16).filter fun i => bitOf x (1040 + i) != bitOf (flipAll x ps) (1040 + i)) =
      (List.range 16).filter fun i => ps.contains (1040 + i) := by
  refine congrArg (fun p => (List.range 16).filter p) (funext fun i => ?_)
  rw [bitOf_flipAll _ _ _ h]
  cases bitOf x (1040 + i) <;> cases ps.contains (1040 + i) <;> rfl

/-- The find of a flit of which some positions were inverted. -/
theorem judgeFlit_cons {k : Nat} {ps : List Nat} (h : (k :: ps).Nodup) (x : Nat) :
    judgeFlit x (k :: ps) = ⟨((List.range 16).filter fun i => (k :: ps).contains (1040 + i)).length == 1,
      ((List.range 16).filter fun i => (k :: ps).contains (1040 + i)).length ≥ 2,
      crc32 (natBits (flipAll x (k :: ps)) 1024 ++ natBits (bitsOf (flipAll x (k :: ps)) 1024 16) 16) !=
        bitsOf (flipAll x (k :: ps)) 1056 32⟩ := by
  rw [← protected_flips h x]
  rfl

/-- Positions outside what the CRC covers leave it and its field. -/
theorem crc_flipAll_of_protected {x : Nat} {ps : List Nat} (h : ps.Nodup) (hps : ∀ k ∈ ps, 1040 ≤ k ∧ k < 1056)
    (hx : crc32 (natBits x 1024 ++ natBits (bitsOf x 1024 16) 16) = bitsOf x 1056 32) :
    (crc32 (natBits (flipAll x ps) 1024 ++ natBits (bitsOf (flipAll x ps) 1024 16) 16) != bitsOf (flipAll x ps) 1056 32) = false := by
  have hdata : bitsOf (flipAll x ps) 0 1024 = bitsOf x 0 1024 := bitsOf_flipAll h fun k hk => by have := hps k hk; omega
  have hcseq : bitsOf (flipAll x ps) 1024 16 = bitsOf x 1024 16 := bitsOf_flipAll h fun k hk => by have := hps k hk; omega
  have hfield : bitsOf (flipAll x ps) 1056 32 = bitsOf x 1056 32 := bitsOf_flipAll h fun k hk => by have := hps k hk; omega
  rw [← natBits_bitsOf (flipAll x ps), hdata, natBits_bitsOf, hcseq, hfield, hx]
  exact bne_self_eq_false _

/-- One inverted data bit fails the CRC, and no sideband bit (R260). -/
theorem judgeFlit_data {x k : Nat} (hk : k < 1024) (hx : crc32 (natBits x 1024 ++ natBits (bitsOf x 1024 16) 16) = bitsOf x 1056 32) :
    judgeFlit x [k] = ⟨false, false, true⟩ := by
  have hnodup := List.nodup_singleton k
  have hnone : ((List.range 16).filter fun i => [k].contains (1040 + i)) = [] := by
    rw [List.filter_eq_nil_iff]
    intro i _
    rw [List.contains_iff_mem, List.mem_singleton]
    omega
  have hcseq : bitsOf (flipAll x [k]) 1024 16 = bitsOf x 1024 16 :=
    bitsOf_flipAll hnodup fun j hj => Or.inl (List.mem_singleton.1 hj ▸ hk)
  have hfield : bitsOf (flipAll x [k]) 1056 32 = bitsOf x 1056 32 :=
    bitsOf_flipAll hnodup fun j hj => Or.inl (by rw [List.mem_singleton.1 hj]; omega)
  obtain ⟨xs, ys, b, hbits, hflip⟩ := natBits_flipAll (x := x) hk
  have hcrc : (crc32 (natBits (flipAll x [k]) 1024 ++ natBits (bitsOf x 1024 16) 16) != bitsOf x 1056 32) = true := by
    rw [bne_iff_ne, ← hx, hbits, hflip, List.append_assoc, List.append_assoc]
    exact crc32_ne_of_flip xs _ b
  rw [judgeFlit_cons hnodup, hnone, hcseq, hfield, hcrc]
  rfl

/-- Settles O30: data bits by the CRC, protected sideband bits by their number. -/
theorem receiversFindFlitErrors : Obligations.ReceiversFindFlitErrors := by
  unfold Obligations.ReceiversFindFlitErrors
  refine ⟨fun data circ vc ep kill ft crd0 crd1 cseq hdata hft => mkFlit_fields circ vc ep kill crd0 crd1 cseq hdata hft,
    fun x hx => ⟨rfl, fun k hk => judgeFlit_data hk hx, fun k hk => ?_, fun j k hjk hk => ?_⟩⟩
  · have hcount : ∀ k < 16, ((List.range 16).filter fun i => [1040 + k].contains (1040 + i)).length = 1 := by decide
    have hnodup := List.nodup_singleton (1040 + k)
    rw [judgeFlit_cons hnodup, hcount k hk, crc_flipAll_of_protected hnodup (by simp; omega) hx]
    rfl
  · have hcount : ∀ k < 16, ∀ j < k, ((List.range 16).filter fun i => [1040 + j, 1040 + k].contains (1040 + i)).length = 2 := by
      decide +kernel
    have hnodup : [1040 + j, 1040 + k].Nodup := by
      rw [List.nodup_cons]
      exact ⟨by rw [List.mem_singleton]; omega, List.nodup_singleton _⟩
    rw [judgeFlit_cons hnodup, hcount k hk j hjk, crc_flipAll_of_protected hnodup (by simp; omega) hx]
    rfl

end Sys2Proof.Machine
end

section
/-! PROOF. Commands to a core, and the progress of its words (spec/03_schedule_words.md R96 to R98, R139 to R141, R148). -/

namespace Sys2Proof.Machine

/-! The progress of words. -/

theorem exec_issueResume {s : State} {c : Core} {w : SWord} {st : Bool} (hawake : s.dev.awake (coreU c) = true)
    (hheld : (s.dev.core (coreU c)).held = some (w, st)) :
    exec (.issueResume c) s = s.done (s.issueWord (coreU c) w true st) := by
  change execIssueResume c s = _
  rw [coreU] at hawake hheld
  simp only [execIssueResume, hheld, hawake, if_true, coreU]

theorem exec_engineWordStart {s : State} {c : Core} (hawake : s.dev.awake (coreU c) = true) (q : EngQ) :
    exec (.engineWordStart c q) s = s.done ((s.startHead (coreU c) q).onDev fun d => d.settle (coreU c)) := by
  change execEngineWordStart c q s = _
  rw [coreU] at hawake
  simp only [execEngineWordStart, hawake, if_true, coreU]

theorem exec_engineWordComplete {s : State} {c : Core} (hawake : s.dev.awake (coreU c) = true) (q : EngQ) :
    exec (.engineWordComplete c q) s = s.done (s.finishHead (coreU c) q) := by
  change execEngineWordComplete c q s = _
  rw [coreU] at hawake
  simp only [execEngineWordComplete, hawake, if_true, coreU]

section
variable {s : State} {u : Nat} {q : EngQ} {w : QWord} {rest : List QWord}

/-- The head of a queue that has ended, with no writes of its own to send, leaves the queue (R97). -/
theorem State.finishHead_of_none (hq : (s.dev.core u).queue q = w :: rest) (hstarted : w.started = true) (hleft : w.left = 0)
    (hout : s.dev.wordOut u w = false) (hres : w.res.out = none) : s.finishHead u q = s.finishWord u q w rest := by
  simp only [State.finishHead, hq, hstarted, hleft, hout, hres, Bool.not_true, ne_eq, not_true_eq_false, decide_false, Bool.or_false,
    Bool.false_eq_true, if_false]

/-- The head of a queue that has ended sends its writes first (R97, R120). -/
theorem State.finishHead_of_some {ep : Nat} {rs : List (Nat × Nat)} {bs : List Byte} (hq : (s.dev.core u).queue q = w :: rest)
    (hstarted : w.started = true) (hleft : w.left = 0) (hout : s.dev.wordOut u w = false) (hres : w.res.out = some (ep, rs, bs))
    (hpost : (syncOf w.body).postEn = true → s.dev.fld F.COR_SEM_V u (syncOf w.body).postSem.toNat < 0xFFFF) :
    s.finishHead u q =
      let w' : QWord := { w with res := { w.res with out := none } }
      let t := s.onDev fun d => (d.issueWrites u ep w.seq w.pc rs bs).modWord u w.seq fun _ => w'
      if t.dev.wordOut u w' then t else t.finishWord u q w' rest := by
  have hsem : ((syncOf w.body).postEn && decide (s.dev.fld F.COR_SEM_V u (syncOf w.body).postSem.toNat ≥ 0xFFFF)) = false := by
    cases hen : (syncOf w.body).postEn
    · rfl
    · rw [Bool.true_and, decide_eq_false_iff_not]
      exact Nat.not_le.2 (hpost hen)
  simp only [State.finishHead, hq, hstarted, hleft, hout, hres, hsem, Bool.not_true, ne_eq, not_true_eq_false, decide_false,
    Bool.or_false, Bool.false_eq_true, if_false]

/-- A word that posts writes its results once its semaphore is counted on (R97). -/
theorem State.finishWord_of_post (hen : (syncOf w.body).postEn = true)
    (hsem : s.dev.fld F.COR_SEM_V u (syncOf w.body).postSem.toNat < 0xFFFF) :
    s.finishWord u q w rest =
      ((((s.onDev fun d => (d.macTook u w.body).modCore u fun x => x.setQueue q rest).onDev fun e =>
        e.setF F.COR_SEM_V u (s.dev.fld F.COR_SEM_V u (syncOf w.body).postSem.toNat + 1) (syncOf w.body).postSem.toNat).applyRes u w.pc
          { w.res with evs := w.res.evs ++ wordEvs w }).onDev fun e => e.settle u) := by
  have hfull : (true && decide (s.dev.fld F.COR_SEM_V u (syncOf w.body).postSem.toNat ≥ 0xFFFF)) = false := by
    rw [Bool.true_and, decide_eq_false_iff_not]
    exact Nat.not_le.2 hsem
  simp only [State.finishWord, hen, hfull, Bool.false_eq_true, if_false, if_true]

/-- A word whose semaphore is full stops its core (R97, R137). -/
theorem State.finishWord_of_full (hen : (syncOf w.body).postEn = true)
    (hsem : 0xFFFF ≤ s.dev.fld F.COR_SEM_V u (syncOf w.body).postSem.toNat) :
    s.finishWord u q w rest = (s.onDev fun d => (d.macTook u w.body).modCore u fun x => x.setQueue q rest).onDev fun e =>
      e.descErr u w.seq w.pc (opcOf w.body).toNat eSemRange := by
  have hfull : (true && decide (s.dev.fld F.COR_SEM_V u (syncOf w.body).postSem.toNat ≥ 0xFFFF)) = true := by
    rw [Bool.true_and, decide_eq_true_eq]
    exact hsem
  simp only [State.finishWord, hen, hfull, if_true]

end

theorem exec_waitTmo {s : State} {c : Core} {wt : Option EngQ} {seq pc opc : Nat}
    (htmo : s.dev.fld F.COR_WAIT_TMO_TMO_US (coreU c) ≠ 0) (hwait : s.dev.waiter (coreU c) wt = some (seq, pc, opc)) :
    exec (.waitTmo c wt) s = .next (s.onDev fun _ =>
      (if s.dev.flag F.COR_WAIT_TMO_ACT (coreU c) then s.dev.stopAt (coreU c) seq pc opc eWaitTmo else s.dev).raise
        (evU bCOR (coreU c)) 10 1 pc) := by
  change execWaitTmo c wt s = _
  rw [coreU] at htmo hwait
  simp only [execWaitTmo, State.upd, State.onDev, htmo, hwait, if_false, coreU]
  rfl

/-- Settles O21: the rows above, by the state of the head of the queue. -/
theorem engineProgressCommands : Obligations.EngineProgressCommands := by
  unfold Obligations.EngineProgressCommands
  intro s c
  refine ⟨fun w st hawake hheld => ?_, fun q w rest t r hawake hq hnew hwait hramp hstart => ?_,
    fun q w rest hawake hq hstarted hleft hout hres hen => ⟨fun hsem => ?_, fun hsem => ?_⟩,
    fun q w rest ep rs bs hawake hq hstarted hleft hout hres hpost => ?_, fun wt seq pc opc htmo hwait => exec_waitTmo htmo hwait⟩
  · rw [exec_issueResume hawake hheld]
    exact State.gives_done s _
  · rw [exec_engineWordStart hawake, State.startHead_of_ok hq hnew hwait hramp hstart]
    exact State.gives_done s _
  · rw [exec_engineWordComplete hawake, State.finishHead_of_none hq hstarted hleft hout hres, State.finishWord_of_post hen hsem]
    exact State.gives_done s _
  · rw [exec_engineWordComplete hawake, State.finishHead_of_none hq hstarted hleft hout hres, State.finishWord_of_full hen hsem]
    exact State.gives_done s _
  · rw [exec_engineWordComplete hawake, State.finishHead_of_some hq hstarted hleft hout hres hpost]
    exact State.gives_done s _

end Sys2Proof.Machine
end

section
/-! PROOF. The commands of a core (spec/03_schedule_words.md R139 to R141; spec/02_core_engines_and_memories.md R58, R79). A STEP
counts the corrected errors of its fetch first; the event that this may raise leaves the core's PC, so the word is the one at it. -/

namespace Sys2Proof.Machine

/-! Registers that the record of an event leaves (R559 to R561). -/

section
variable {q : Reg} {v j eu : Nat}

/-- A register word that is none of a unit's event registers. -/
structure Reg.NotEvt (q : Reg) (v j eu : Nat) : Prop where
  hist0 : ∀ i < 8, q.key v j ≠ R.EVT_HIST0.key eu i
  hist1 : ∀ i < 8, q.key v j ≠ R.EVT_HIST1.key eu i
  status : q.key v j ≠ R.EVT_STATUS.key eu 0

theorem Dev.getR_history (h : q.NotEvt v j eu) (d : Dev) (c lvl : Nat) (esc skink rep : Bool) (detail : Nat) :
    (d.history eu c lvl esc skink rep detail).getR q v j = d.getR q v j := by
  have hi : sget d.evtCount 0 eu % 8 < 8 := Nat.mod_lt _ (by decide)
  rw [Dev.history]
  rw [Dev.getR_setF_key _ F.EVT_STATUS_NEWEST q eu v 0 j _ h.status, Dev.getR_setR_key _ R.EVT_HIST1 q eu v _ j _ (h.hist1 _ hi),
    Dev.getR_setR_key _ R.EVT_HIST0 q eu v _ j _ (h.hist0 _ hi)]
  rfl

theorem Dev.getR_setPend (h : q.NotEvt v j eu) (d : Dev) (c x : Nat) : (d.setPend eu c x).getR q v j = d.getR q v j := by
  rw [Dev.setPend, Dev.showPend]
  dsimp only
  rw [Dev.getR_setF_key _ F.EVT_STATUS_LEVEL q eu v 0 j _ h.status, Dev.setB, Dev.getR_setF_key _ F.EVT_STATUS_ANY q eu v 0 j _ h.status,
    Dev.getR_setF_key _ F.EVT_STATUS_PENDING q eu v 0 j _ h.status]
  rfl

theorem Dev.getR_sendEvt (d : Dev) (eu n : Nat) (q : Reg) (v j : Nat) : (d.sendEvt eu n).getR q v j = d.getR q v j := rfl

theorem Dev.getR_alert (d : Dev) (eu lvl : Nat) (q : Reg) (v j : Nat) : (d.alert eu lvl).getR q v j = d.getR q v j := by
  rw [Dev.alert]
  dsimp only
  split
  · split
    · rfl
    · rfl
  · split
    · rfl
    · rfl

/-- The record of an event writes the unit's event registers alone. -/
theorem Dev.getR_record (h : q.NotEvt v j eu) (d : Dev) (c base detail : Nat) (skink : Bool) :
    (d.record eu c base detail skink).getR q v j = d.getR q v j := by
  have hdeliver (p : Prop) [Decidable p] (e : Dev) (n : Nat) : (if p then e.sendEvt eu n else e).getR q v j = e.getR q v j := by
    split
    · exact Dev.getR_sendEvt ..
    · rfl
  have hpend (p : Prop) [Decidable p] (e : Dev) (x : Nat) : (if p then e else e.setPend eu c x).getR q v j = e.getR q v j := by
    split
    · rfl
    · exact Dev.getR_setPend h e c x
  have halert (p : Prop) [Decidable p] (e : Dev) (lvl : Nat) : (if p then e.alert eu lvl else e).getR q v j = e.getR q v j := by
    split
    · exact Dev.getR_alert ..
    · rfl
  rw [Dev.record]
  dsimp only
  split
  · rw [Dev.addSat, Dev.getR_setF_key _ F.EVT_STATUS_REPEATS q eu v 0 j _ h.status, Dev.getR_history h]
  · rw [halert, hdeliver, hpend, Dev.getR_history h]

end

/-! Corrected errors of a core's memories (R67). -/

/-- COR_STATUS of a core is none of the registers that a count of its corrected errors may write. -/
theorem status_notEvt {u eu : Nat} (hu : u < 65536) (heu : eu < 4194304) : R.COR_STATUS.NotEvt u 0 eu := by
  constructor
  · intro i hi
    simp only [Reg.key, R.COR_STATUS, R.EVT_HIST0]
    omega
  · intro i hi
    simp only [Reg.key, R.COR_STATUS, R.EVT_HIST1]
    omega
  · simp only [Reg.key, R.COR_STATUS, R.EVT_STATUS]
    omega

theorem Dev.status_observe {u : Nat} (hu : u < 65536) (d : Dev) (w c : Nat) :
    (d.observe w c).getR R.COR_STATUS u 0 = d.getR R.COR_STATUS u 0 := by
  have hskk : R.COR_STATUS.NotEvt u 0 (evU bSKK 0) := status_notEvt hu (by decide)
  have hobs : R.COR_STATUS.key u 0 ≠ R.SKK_STATUS.key 0 0 := by
    simp only [Reg.key, R.COR_STATUS, R.SKK_STATUS]
    omega
  rw [Dev.observe]
  split
  · rfl
  · split
    · exact Dev.getR_record hskk ..
    · dsimp only
      rw [Dev.getR_record hskk, Dev.getR_setF_key _ F.SKK_STATUS_OBS_N R.COR_STATUS 0 u 0 0 _ hobs]
      rfl

/-- The event of too many corrected errors has base level 0: it escalates to level 1, which isolates nothing (R556). -/
theorem Dev.status_raise {u : Nat} (hu : u < 65536) (d : Dev) (c detail : Nat) :
    (d.raise (evU bCOR u) c 0 detail).getR R.COR_STATUS u 0 = d.getR R.COR_STATUS u 0 := by
  have hblk : evU bCOR u / 65536 = 1 := by
    simp only [evU, bCOR]
    omega
  have hevt : R.COR_STATUS.NotEvt u 0 (evU bCOR u) := status_notEvt hu (by simp only [evU, bCOR]; omega)
  have hlvl : (d.verdict (evU bCOR u) c 0 false).2.1 ≤ 1 := by
    rw [Dev.verdict]
    split
    · exact Nat.zero_le 1
    · split
      · exact Nat.min_le_right ..
      · exact Nat.min_le_right ..
  rcases hverdict : d.verdict (evU bCOR u) c 0 false with ⟨ok, lvl, esc⟩
  rw [hverdict] at hlvl
  change lvl ≤ 1 at hlvl
  have hesc (e : Dev) : e.escalate (evU bCOR u / 65536) (evU bCOR u % 65536) lvl detail = e := by
    rw [Dev.escalate, if_pos hblk]
    dsimp only
    rw [if_neg (by omega), if_neg (by omega), if_neg (by omega)]
  have hrec := Dev.getR_record hevt d c 0 detail false
  rw [Dev.raise, hverdict]
  revert hrec
  dsimp only
  generalize d.record (evU bCOR u) c 0 detail = e
  intro hrec
  rw [if_neg (show ¬ lvl ≥ 4 by omega), hesc, ite_self]
  split
  · exact hrec
  · split
    · rw [Dev.status_observe hu, hrec]
    · exact hrec

theorem Dev.status_countCe {u : Nat} (hu : u < 65536) (las : List Nat) (d : Dev) :
    (d.countCe u las).getR R.COR_STATUS u 0 = d.getR R.COR_STATUS u 0 := by
  have hadd (d : Dev) (p : Prop) [Decidable p] : (d.addSat (if p then F.COR_ECC_STATUS_CE_WM else F.COR_ECC_STATUS_CE_OTHER) u 1).getR
      R.COR_STATUS u 0 = d.getR R.COR_STATUS u 0 := by
    split
    · exact Dev.getR_setF_key d F.COR_ECC_STATUS_CE_WM R.COR_STATUS u u 0 0 _ (Reg.key_ne_of_code_ne (by decide) u 0)
    · exact Dev.getR_setF_key d F.COR_ECC_STATUS_CE_OTHER R.COR_STATUS u u 0 0 _ (Reg.key_ne_of_code_ne (by decide) u 0)
  have hraise (p : Prop) [Decidable p] (e : Dev) : (if p then e.raise (evU bCOR u) 2 0 0 else e).getR R.COR_STATUS u 0 =
      e.getR R.COR_STATUS u 0 := by
    split
    · exact Dev.status_raise hu e 2 0
    · rfl
  induction las generalizing d with
  | nil => rfl
  | cons la las ih =>
    refine (ih _).trans ?_
    dsimp only
    rw [hraise, hadd]

/-! The commands. -/

theorem exec_run {s : State} {c : Core} (hreach : s.dev.coreReach (coreU c) = true) :
    exec (.run c) s = .next (s.onDev fun _ => s.dev.coreRun (coreU c)) := by
  change execRun c s = _
  rw [coreU] at hreach
  simp only [execRun, State.upd, State.onDev, hreach, if_true, coreU]

theorem exec_halt {s : State} {c : Core} (hreach : s.dev.coreReach (coreU c) = true) :
    exec (.halt c) s = .next (s.onDev fun _ => s.dev.coreHalt (coreU c)) := by
  change execHalt c s = _
  rw [coreU] at hreach
  simp only [execHalt, State.upd, State.onDev, hreach, if_true, coreU]

theorem exec_cubeRetired {s : State} {c : Core} (hreach : s.dev.coreReach (coreU c) = true) (v : Bool) :
    exec (.cubeRetired c v) s = .next (s.onDev fun _ => s.dev.setCubeRetired (coreU c) v) := by
  change execCubeRetired c v s = _
  rw [coreU] at hreach
  simp only [execCubeRetired, State.upd, State.onDev, hreach, if_true, coreU]

theorem exec_step {s : State} {c : Core} (hreach : s.dev.coreReach (coreU c) = true) :
    exec (.step c) s = s.done (s.coreStep (coreU c)) := by
  change execStep c s = _
  rw [coreU] at hreach
  simp only [execStep, hreach, if_true, coreU]

/-- The word at a core's PC after the corrected errors of a fetch are counted. -/
theorem State.fetchWord_countCe {u : Nat} (hu : u < 65536) (s : State) (las : List Nat) :
    (s.onDev fun d => d.countCe u las).fetchWord u = s.fetchWord u := by
  have hpc : (s.dev.countCe u las).fld F.COR_STATUS_PC u = s.dev.fld F.COR_STATUS_PC u := by
    rw [Dev.fld, Dev.status_countCe hu, Dev.fld]
  simp only [State.fetchWord, State.onDev, hpc]
  rfl

/-- STEP of a HALTED core issues the word at its PC (R139). -/
theorem State.coreStep_of_word {s : State} {u : Nat} {w : SWord} (hu : u < 65536) (hstate : s.dev.coreState u = 0)
    (hawake : s.dev.awake u = true) (hcore : (s.dev.lcoreOf u).isSome = true)
    (hmarked : s.marked u 2 [(0x140000 + 8 * s.dev.pc u, 8)] = []) (hw : decodeWord (s.fetchWord u) = some w) :
    s.coreStep u = (s.onDev fun d => d.countCe u (s.marked u 1 [(0x140000 + 8 * s.dev.pc u, 8)])).issueWord u w false true := by
  rw [Dev.pc] at hmarked ⊢
  rw [State.coreStep, if_pos (by rw [hstate, hawake, hcore]; rfl)]
  dsimp only
  rw [hmarked, if_neg (fun h => h rfl), State.fetchWord_countCe hu, hw]

/-- Settles O20: each command by the core's state. -/
theorem coreControlCommands : Obligations.CoreControlCommands := by
  unfold Obligations.CoreControlCommands
  intro s c u d hreach hcore
  have hnone : (d.lcoreOf u).isNone = false := by rw [← Option.not_isSome, hcore]; rfl
  refine ⟨fun hstate => ?_, fun hstate => ?_, fun h1 h3 => ?_, fun v hv => ?_, fun w hstate hawake hmarked hw => ?_⟩
  · rw [exec_run hreach, Dev.coreRun, hnone, if_neg Bool.false_ne_true, if_pos hstate]
  · rw [exec_run hreach, Dev.coreRun, hnone, if_neg Bool.false_ne_true, if_neg hstate]
  · have hst : d.coreState u = 1 ∨ d.coreState u = 2 ∨ d.coreState u = 3 := by omega
    rw [exec_halt hreach, Dev.coreHalt, if_pos (by simpa [or_assoc] using hst)]
  · rw [exec_cubeRetired hreach, Dev.setCubeRetired, if_neg (by simpa using hv)]
  · rw [exec_step hreach, State.coreStep_of_word (coreU_lt c) hstate hawake hcore hmarked hw]
    exact State.gives_done s _

end Sys2Proof.Machine
end

section
/-! PROOF. The Hallways (spec/01_fields_seams_and_package.md R25 to R34, Tables 1-4 and 1-7). -/

namespace Sys2Proof.Machine

/-! Fields of one register, whatever words they stand in. -/

theorem Dev.getR_congr_key (d : Dev) (r : Reg) {u v i j : Nat} (h : r.key v j = r.key u i) : d.getR r v j = d.getR r u i := by
  rw [Dev.getR, Dev.getR, h]

/-- A field of one register stands when another field of the register, whose bits lie apart, is stored in any word of it. -/
theorem Dev.fld_setF_apart_any {f g : Fld} (hreg : g.reg = f.reg) (h : f.lo + f.width ≤ 64)
    (hapart : g.lo + g.width ≤ f.lo ∨ f.lo + f.width ≤ g.lo) (d : Dev) (u v i j x : Nat) : (d.setF f u x i).fld g v j = d.fld g v j := by
  by_cases hkey : g.reg.key v j = g.reg.key u i
  · rw [Dev.fld, Dev.fld, Dev.getR_congr_key _ _ hkey, Dev.getR_congr_key _ _ hkey]
    exact Dev.fld_setF_apart hreg h hapart d u x i
  · exact Dev.fld_setF_key d f g u v i j x (by rwa [hreg] at hkey ⊢)

/-- A property that each step of a fold keeps. -/
theorem Dev.each_keeps {α β : Type} (d : Dev) (xs : List α) (f : Dev → α → Dev) (p : Dev → β) (h : ∀ (d : Dev) (x : α), p (f d x) = p d) :
    p (d.each xs f) = p d := by
  induction xs generalizing d with
  | nil => rfl
  | cons x xs ih => exact (ih (f d x)).trans (h d x)

/-! What clamping a field leaves (R27 to R29). -/

theorem Dev.hw_showClamp (d : Dev) (f : Nat) : (d.showClamp f).hw = d.hw :=
  Dev.each_keeps d _ _ (fun e => e.hw) fun _ _ => rfl

theorem Dev.fld_setF_pg {g j : Nat} (hg : g < 16) (hj : j < 8) {m : Nat} (hm : m < 32) {f : Fld} (hf : f.reg = R.FLD_PG_STATUS) (d : Dev)
    (x : Nat) : (d.setF f m x).hwState g j = d.hwState g j := by
  refine Dev.fld_setF_key d f F.FLD_HW_STATUS_STATE m g 0 j x ?_
  rw [hf]
  simp only [Reg.key, R.FLD_PG_STATUS, R.FLD_HW_STATUS]
  omega

theorem Dev.hwState_showClamp {g j : Nat} (hg : g < 16) (hj : j < 8) {m : Nat} (hm : m < 32) (d : Dev) :
    (d.showClamp m).hwState g j = d.hwState g j :=
  Dev.each_keeps d _ _ (fun e => e.hwState g j) fun e _ => Dev.fld_setF_pg hg hj hm rfl e _

/-- A neighbour is shown that a field has lost its fabric power-good. -/
theorem Dev.hwState_side {g j : Nat} (hg : g < 16) (hj : j < 8) {m : Nat} (hm : m < 32) (b : Nat) (p : Prop) [Decidable p] (d : Dev) :
    (if p then (d.setFbit F.FLD_PG_STATUS_NEIGH_PG m b false).showClamp m else d).hwState g j = d.hwState g j := by
  split
  · rw [Dev.hwState_showClamp hg hj hm]
    exact Dev.fld_setF_pg hg hj hm rfl d _
  · rfl

theorem Dev.hwState_purgeClamped (d : Dev) (g j : Nat) : d.purgeClamped.hwState g j = d.hwState g j := by
  refine (Dev.each_keeps _ _ _ (fun e => e.hwState g j) fun e x => ?_).trans rfl
  rw [Dev.hopDiscard]
  split
  · rfl
  · exact Dev.fld_setF_apart_any (f := F.FLD_HW_STATUS_DISCARDS) (g := F.FLD_HW_STATUS_STATE) rfl (by decide) (by decide) e ..

theorem Dev.hw_purgeClamped (d : Dev) : d.purgeClamped.hw = d.hw := by
  refine (Dev.each_keeps _ _ _ (fun e => e.hw) fun e x => ?_).trans rfl
  rw [Dev.hopDiscard]
  split
  · rfl
  · rfl

theorem Dev.hw_side (m b : Nat) (p : Prop) [Decidable p] (d : Dev) :
    (if p then (d.setFbit F.FLD_PG_STATUS_NEIGH_PG m b false).showClamp m else d).hw = d.hw := by
  split
  · rw [Dev.hw_showClamp]
    rfl
  · rfl

/-- The Hallways of a field. -/
def fieldHws (n : Nat) : List (Nat × Nat) :=
  (List.range 16).flatMap fun g => (List.range 8).filterMap fun h =>
    if ownsHw g h && (g == n || hwFar g h == n) then some (g, h) else none

theorem mem_fieldHws {n g j : Nat} (hg : g < 16) (hj : j < 8) (howns : ownsHw g j = true) (h : g = n ∨ hwFar g j = n) :
    (g, j) ∈ fieldHws n := by
  have hn : (g == n || hwFar g j == n) = true := by simpa using h
  refine List.mem_flatMap.2 ⟨g, List.mem_range.2 hg, List.mem_filterMap.2 ⟨j, List.mem_range.2 hj, ?_⟩⟩
  rw [howns, hn]
  rfl

/-- The receiver of a Hallway is clamped, where it has not failed (R29). -/
def Dev.clampHw (d : Dev) (x : Nat × Nat) : Dev := if d.flag F.FLD_HW_STATUS_FAILED x.1 x.2 then d else d.setF F.FLD_HW_STATUS_STATE x.1 1 x.2

theorem Dev.failed_clampHw (d : Dev) (x : Nat × Nat) (g j : Nat) :
    (d.clampHw x).flag F.FLD_HW_STATUS_FAILED g j = d.flag F.FLD_HW_STATUS_FAILED g j := by
  rw [Dev.clampHw]
  split
  · rfl
  · rw [Dev.flag, Dev.fld_setF_apart_any (f := F.FLD_HW_STATUS_STATE) (g := F.FLD_HW_STATUS_FAILED) rfl (by decide) (by decide), Dev.flag]

theorem Dev.hwState_clampHw_self {d : Dev} {g j : Nat} (h : d.flag F.FLD_HW_STATUS_FAILED g j = false) :
    (d.clampHw (g, j)).hwState g j = 1 := by
  rw [Dev.clampHw, h, if_neg Bool.false_ne_true]
  exact Dev.fld_setF_self_of_lt (by decide) (by decide) d g j

/-- A Hallway that is clamped stays so when another one is. -/
theorem Dev.hwState_clampHw {d : Dev} {g j : Nat} (h : d.hwState g j = 1) (x : Nat × Nat) : (d.clampHw x).hwState g j = 1 := by
  rw [Dev.clampHw]
  split
  · exact h
  · by_cases hkey : R.FLD_HW_STATUS.key g j = R.FLD_HW_STATUS.key x.1 x.2
    · have hword : ∀ e : Dev, e.hwState g j = e.hwState x.1 x.2 := fun e => by
        rw [Dev.hwState, Dev.hwState, Dev.fld, Dev.fld, Dev.getR_congr_key e _ hkey]
      rw [hword]
      exact Dev.fld_setF_self_of_lt (by decide) (by decide) d x.1 x.2
    · exact (Dev.fld_setF_key d F.FLD_HW_STATUS_STATE F.FLD_HW_STATUS_STATE x.1 g x.2 j 1 hkey).trans h

theorem Dev.hwState_clampHws {d : Dev} {g j : Nat} {xs : List (Nat × Nat)} (hfailed : d.flag F.FLD_HW_STATUS_FAILED g j = false)
    (h : (g, j) ∈ xs ∨ d.hwState g j = 1) : (d.each xs Dev.clampHw).hwState g j = 1 := by
  induction xs generalizing d with
  | nil => exact h.resolve_left List.not_mem_nil
  | cons x xs ih =>
    refine ih (d := d.clampHw x) (by rw [Dev.failed_clampHw]; exact hfailed) ?_
    rcases h with hmem | hstate
    · rcases List.mem_cons.1 hmem with rfl | hmem
      · exact Or.inr (Dev.hwState_clampHw_self hfailed)
      · exact Or.inl hmem
    · exact Or.inr (Dev.hwState_clampHw hstate x)

theorem Dev.hw_clampHws (d : Dev) (xs : List (Nat × Nat)) : (d.each xs Dev.clampHw).hw = d.hw := by
  refine Dev.each_keeps d xs _ (fun e => e.hw) fun e x => ?_
  rw [Dev.clampHw]
  split
  · rfl
  · rfl

/-- What is left to do when the receivers of a field are clamped: its neighbours are told, and what is inside is discarded. -/
def Dev.tellClamped (d : Dev) (n : Nat) : Dev :=
  let side (g b : Nat) (on : Bool) (d : Dev) : Dev := if on then (d.setFbit F.FLD_PG_STATUS_NEIGH_PG g b false).showClamp g else d
  let d := side (n - 4) 2 (decide (n ≥ 4)) d
  let d := side (n + 4) 0 (decide (n < 12)) d
  let d := side (n - 1) 1 (decide (n % 4 > 0)) d
  let d := side (n + 1) 3 (decide (n % 4 < 3)) d
  ((d.setF F.FLD_PG_STATUS_OWN_PG n 0).showClamp n).purgeClamped

theorem Dev.clampField_eq (d : Dev) (n : Nat) :
    d.clampField n =
      let e := (d.each (fieldHws n) Dev.clampHw).tellClamped n
      { e with hw := { e.hw with testing := e.hw.testing.filter fun x => x.1 != n && hwFar x.1 x.2.1 != n } } := rfl

theorem Dev.hw_tellClamped (d : Dev) (n : Nat) : (d.tellClamped n).hw = d.hw := by
  rw [Dev.tellClamped]
  dsimp only
  rw [Dev.hw_purgeClamped, Dev.hw_showClamp, Dev.setF_hw, Dev.hw_side, Dev.hw_side, Dev.hw_side, Dev.hw_side]

theorem Dev.hwState_tellClamped {n g j : Nat} (hn : n < 16) (hg : g < 16) (hj : j < 8) (d : Dev) :
    (d.tellClamped n).hwState g j = d.hwState g j := by
  have h1 : n + 1 < 32 := by omega
  have h2 : n - 1 < 32 := by omega
  have h3 : n + 4 < 32 := by omega
  have h4 : n - 4 < 32 := by omega
  have h0 : n < 32 := by omega
  rw [Dev.tellClamped]
  dsimp only
  rw [Dev.hwState_purgeClamped, Dev.hwState_showClamp hg hj h0, Dev.fld_setF_pg hg hj h0 rfl, Dev.hwState_side hg hj h1,
    Dev.hwState_side hg hj h2, Dev.hwState_side hg hj h3, Dev.hwState_side hg hj h4]

/-! What the rise of a field's power-good tells its neighbours (R30, Table 1-6). -/

/-- The neighbour of a field on a side: 0 north, 1 east, 2 south, 3 west. -/
def sideField (n side : Nat) : Nat := if side = 0 then n - 4 else if side = 1 then n + 1 else if side = 2 then n + 4 else n - 1

/-- One side of a field whose power-good rises: the neighbour there, if any, is shown it. -/
def Dev.tellRise (n : Nat) (d : Dev) (side : Nat) : Dev :=
  match sideHws n side with
  | [] => d
  | _ => d.setFbit F.FLD_PG_STATUS_NEIGH_PG (sideField n side) ((side + 2) % 4) true

theorem Dev.tellRise_of_neighbour {n side : Nat} (h : sideHws n side ≠ []) (d : Dev) :
    d.tellRise n side = d.setFbit F.FLD_PG_STATUS_NEIGH_PG (sideField n side) ((side + 2) % 4) true := by
  rw [Dev.tellRise]
  split
  · exact absurd ‹_› h
  · rfl

theorem Dev.tellRise_cases (n side : Nat) (d : Dev) : d.tellRise n side = d ∨ sideHws n side ≠ [] := by
  rw [Dev.tellRise]
  split
  case h_1 => exact Or.inl rfl
  case h_2 h => exact Or.inr h

theorem sideField_lt {n side : Nat} (hn : n < 16) (h : sideHws n side ≠ []) : sideField n side < 16 := by
  rw [sideHws] at h
  rw [sideField]
  split at h
  · split at h
    · split <;> omega
    · exact absurd rfl h
  · split at h
    · split at h
      · split <;> omega
      · exact absurd rfl h
    · split <;> omega

theorem Dev.pgRise_eq {d : Dev} {n : Nat} (h : d.fieldLost n = false) :
    d.pgRise n = ((d.setF F.FLD_PG_STATUS_OWN_PG n 1).setF F.FLD_RAIL_STATUS_FAB_PG n 1).each (List.range 4) (Dev.tellRise n) := by
  rw [Dev.pgRise, h]
  rfl

/-- What a bit of NEIGH_PG reads after one is set. -/
theorem bitOf_setFbit_true {d : Dev} {m b m' b' : Nat} (hb : b < 4) (h : (m' = m ∧ b' = b) ∨ bitOf (d.fld F.FLD_PG_STATUS_NEIGH_PG m') b' = true) :
    bitOf ((d.setFbit F.FLD_PG_STATUS_NEIGH_PG m b true).fld F.FLD_PG_STATUS_NEIGH_PG m') b' = true := by
  have hlt : putBit (d.fld F.FLD_PG_STATUS_NEIGH_PG m) b true < 2 ^ F.FLD_PG_STATUS_NEIGH_PG.width :=
    putBits_lt (show b + 1 ≤ 4 by omega) (Dev.fld_lt d F.FLD_PG_STATUS_NEIGH_PG m 0)
  by_cases hkey : R.FLD_PG_STATUS.key m' 0 = R.FLD_PG_STATUS.key m 0
  · have hword : ∀ e : Dev, e.fld F.FLD_PG_STATUS_NEIGH_PG m' = e.fld F.FLD_PG_STATUS_NEIGH_PG m := fun e => by
      rw [Dev.fld, Dev.fld, Dev.getR_congr_key e _ hkey]
    rw [hword, Dev.setFbit, Dev.fld_setF_self_of_lt (by decide) hlt, bitOf_putBit]
    split
    · rfl
    case isFalse hne =>
      rw [hword] at h
      exact h.resolve_left fun heq => hne heq.2
  · rw [Dev.setFbit, Dev.fld_setF_key d F.FLD_PG_STATUS_NEIGH_PG F.FLD_PG_STATUS_NEIGH_PG m m' 0 0 _ hkey]
    exact h.resolve_left fun heq => hkey (by rw [heq.1])

theorem Dev.tellRise_each_bit {n m b : Nat} {xs : List Nat} {d : Dev}
    (h : (∃ side ∈ xs, sideHws n side ≠ [] ∧ m = sideField n side ∧ b = (side + 2) % 4) ∨
      bitOf (d.fld F.FLD_PG_STATUS_NEIGH_PG m) b = true) :
    bitOf ((d.each xs (Dev.tellRise n)).fld F.FLD_PG_STATUS_NEIGH_PG m) b = true := by
  induction xs generalizing d with
  | nil => exact h.resolve_left fun ⟨_, hmem, _⟩ => absurd hmem List.not_mem_nil
  | cons x xs ih =>
    refine ih (d := d.tellRise n x) ?_
    have hkeep (hbit : bitOf (d.fld F.FLD_PG_STATUS_NEIGH_PG m) b = true) :
        bitOf ((d.tellRise n x).fld F.FLD_PG_STATUS_NEIGH_PG m) b = true := by
      rcases Dev.tellRise_cases n x d with hsame | hside
      · rwa [hsame]
      · rw [Dev.tellRise_of_neighbour hside]
        exact bitOf_setFbit_true (Nat.mod_lt _ (by decide)) (Or.inr hbit)
    rcases h with ⟨side, hmem, hside, rfl, rfl⟩ | hbit
    · rcases List.mem_cons.1 hmem with rfl | hmem
      · rw [Dev.tellRise_of_neighbour hside]
        exact Or.inr (bitOf_setFbit_true (Nat.mod_lt _ (by decide)) (Or.inl ⟨rfl, rfl⟩))
      · exact Or.inl ⟨side, hmem, hside, rfl, rfl⟩
    · exact Or.inr (hkeep hbit)

/-- The neighbours are told in FLD_PG_STATUS alone. -/
theorem Dev.getR_tellRise {n : Nat} (hn : n < 16) {r : Reg} {v i : Nat} (h : ∀ m, m < 16 → r.key v i ≠ R.FLD_PG_STATUS.key m 0) (xs : List Nat)
    (d : Dev) : (d.each xs (Dev.tellRise n)).getR r v i = d.getR r v i := by
  refine Dev.each_keeps d xs _ (fun e => e.getR r v i) fun e x => ?_
  rcases Dev.tellRise_cases n x e with hsame | hside
  · rw [hsame]
  · rw [Dev.tellRise_of_neighbour hside]
    exact Dev.getR_setF_key e F.FLD_PG_STATUS_NEIGH_PG r _ v 0 i _ (h _ (sideField_lt hn hside))

theorem Dev.ownPg_tellRise (n : Nat) (xs : List Nat) (d : Dev) :
    (d.each xs (Dev.tellRise n)).fld F.FLD_PG_STATUS_OWN_PG n = d.fld F.FLD_PG_STATUS_OWN_PG n := by
  refine Dev.each_keeps d xs _ (fun e => e.fld F.FLD_PG_STATUS_OWN_PG n) fun e x => ?_
  rcases Dev.tellRise_cases n x e with hsame | hside
  · rw [hsame]
  · rw [Dev.tellRise_of_neighbour hside]
    exact Dev.fld_setF_apart_any (f := F.FLD_PG_STATUS_NEIGH_PG) (g := F.FLD_PG_STATUS_OWN_PG) rfl (by decide) (by decide) e ..

theorem fld_rail_key {n m : Nat} (hn : n < 16) (hm : m < 16) : R.FLD_RAIL_STATUS.key n 0 ≠ R.FLD_PG_STATUS.key m 0 := by
  simp only [Reg.key, R.FLD_RAIL_STATUS, R.FLD_PG_STATUS]
  omega

theorem Dev.fabPg_tellRise {n : Nat} (hn : n < 16) (xs : List Nat) (d : Dev) :
    (d.each xs (Dev.tellRise n)).fld F.FLD_RAIL_STATUS_FAB_PG n = d.fld F.FLD_RAIL_STATUS_FAB_PG n := by
  rw [Dev.fld, Dev.getR_tellRise hn (fun m hm => fld_rail_key hn hm), Dev.fld]

/-! The rows. -/

section
variable {s : State} {f : FieldN} {h : Fin 8}

theorem exec_wireTestEnd {t : Nat × Nat × Bool} (ht : (s.dev.hw.testing.find? fun x => x.1 == f.val && x.2.1 == h.val) = some t)
    (found : List WireFault) :
    let e : Dev := { s.dev with hw := { s.dev.hw with testing := s.dev.hw.testing.filter fun x => !(x.1 == f.val && x.2.1 == h.val) } }
    exec (.wireTestEnd f h found) s = .next (s.onDev fun _ =>
      if !s.dev.hwPower f.val h.val || s.dev.hwState f.val h.val = 3 || (s.dev.hwState f.val h.val = 1 && t.2.2) then e
      else if (e.hwCover f.val h.val found).2 then ((e.hwCover f.val h.val found).1.showBad f.val h.val).hwFail f.val h.val
      else if t.2.2 then (e.hwCover f.val h.val found).1.showBad f.val h.val
      else (((e.hwCover f.val h.val found).1.showBad f.val h.val).setHw f.val h.val 2).hwOpen f.val h.val) := by
  change execWireTestEnd f h found s = _
  simp only [execWireTestEnd, State.upd, State.onDev, ht]
  rfl

theorem exec_hallwayWireTest (howns : ownsHw f.val h.val = true) (hpower : s.dev.hwPower f.val h.val = true)
    (hstate : s.dev.hwState f.val h.val = 1) (hfailed : s.dev.flag F.FLD_HW_STATUS_FAILED f.val h.val = false) :
    exec (.hallwayWireTest f h) s = .next (s.onDev fun d => d.hwStartTest f.val h.val false) := by
  change execHallwayWireTest f h s = _
  simp only [execHallwayWireTest, State.upd, State.onDev, howns, hpower, hstate, hfailed]
  rfl

theorem Dev.hwStartTest_of_none {d : Dev} {n k : Nat} (htest : (d.hw.testing.any fun x => x.1 == n && x.2.1 == k) = false) (req : Bool) :
    d.hwStartTest n k req = { d with hw := { d.hw with testing := d.hw.testing ++ [(n, k, req)] } } := by
  rw [Dev.hwStartTest, htest]
  rfl

theorem exec_hwTest (hreach : s.dev.hwReach f.val h.val = true) :
    exec (.hwTest f h) s = .next (s.onDev fun d => d.hwTestWr f.val h.val) := by
  change execHwTest f h s = _
  simp only [execHwTest, State.upd, State.onDev, hreach, if_true]

theorem exec_quiesce (hreach : s.dev.hwReach f.val h.val = true) (v : Bool) :
    exec (.quiesce f h v) s = .next (s.onDev fun d => d.hwQuiesce f.val h.val v) := by
  change execQuiesce f h v s = _
  simp only [execQuiesce, State.upd, State.onDev, hreach, if_true]

theorem exec_hold (hreach : s.dev.hwReach f.val h.val = true) (v : Bool) :
    exec (.hold f h v) s = .next (s.onDev fun d => d.hwHold f.val h.val v) := by
  change execHold f h v s = _
  simp only [execHold, State.upd, State.onDev, hreach, if_true]

end

/-- The device of an answer. -/
theorem next_onDev_congr {s : State} {f g : Dev → Dev} (h : f s.dev = g s.dev) :
    (Host.Outcome.next (s.onDev f) : Host.Outcome State Fault Refusal) = .next (s.onDev g) := by
  rw [State.onDev, State.onDev, h]

theorem exec_fabricPgRise {s : State} {f : FieldN} (h : s.dev.fieldLost f.val = false) :
    exec (.fabricPgRise f) s = .next { s with dev :=
      ((s.dev.setF F.FLD_PG_STATUS_OWN_PG f.val 1).setF F.FLD_RAIL_STATUS_FAB_PG f.val 1).each (List.range 4) (Dev.tellRise f.val) } := by
  change execFabricPgRise f s = _
  simp only [execFabricPgRise, State.upd, Dev.pgRise_eq h]

/-- Settles O22, a clause per command and STATE. -/
theorem hallwayCommandsTakeEffect : Obligations.HallwayCommandsTakeEffect := by
  unfold Obligations.HallwayCommandsTakeEffect
  intro s f h d n k
  have hn : n < 16 := f.isLt
  refine ⟨rfl, ?_, fun g j hg hj howns hfield hfailed => ?_, fun hlost => ⟨_, exec_fabricPgRise hlost, ⟨rfl, rfl, rfl, rfl⟩, ?_⟩,
    fun howns hown hfar hstate hfailed htest => ?_, fun found asked ht => ⟨fun hpower hstate => ?_, fun hpower => ?_⟩,
    fun hreach hstate htest => ?_, fun hreach hstate => ?_, fun hreach => ?_, fun hreach => ?_, fun hreach => ?_⟩
  · rw [Dev.clampField_eq]
    dsimp only
    rw [Dev.hw_tellClamped, Dev.hw_clampHws]
  · rw [Dev.clampField_eq]
    exact (Dev.hwState_tellClamped hn hg hj _).trans (Dev.hwState_clampHws hfailed (Or.inl (mem_fieldHws hg hj howns hfield)))
  · have hbit (side : Nat) (hmem : side ∈ List.range 4) (hside : sideHws n side ≠ []) :=
      Dev.tellRise_each_bit (d := (d.setF F.FLD_PG_STATUS_OWN_PG n 1).setF F.FLD_RAIL_STATUS_FAB_PG n 1)
        (Or.inl ⟨side, hmem, hside, rfl, rfl⟩)
    refine ⟨?_, ?_, fun h4 => hbit 0 (by decide) ?_, fun h3 => hbit 1 (by decide) ?_, fun h12 => hbit 2 (by decide) ?_,
      fun h0 => hbit 3 (by decide) ?_, fun r v i hrail hpg => ?_⟩
    · rw [Dev.flag, Dev.ownPg_tellRise, Dev.fld_setF_other (f := F.FLD_RAIL_STATUS_FAB_PG) (g := F.FLD_PG_STATUS_OWN_PG) (by decide),
        Dev.fld_setF_self_of_lt (by decide) (by decide)]
      rfl
    · rw [Dev.flag, Dev.fabPg_tellRise hn,
        Dev.fld_setF_self_of_lt (by decide) (by decide)]
      rfl
    · rw [sideHws, if_neg (by decide), if_neg (by decide), if_neg (by decide), if_pos (by omega)]
      exact List.cons_ne_nil _ _
    · rw [sideHws, if_pos rfl, if_pos h3]
      exact List.cons_ne_nil _ _
    · rw [sideHws, if_neg (by decide), if_pos rfl, if_pos (by omega)]
      exact List.cons_ne_nil _ _
    · rw [sideHws, if_neg (by decide), if_neg (by decide), if_pos rfl, if_pos h0]
      exact List.cons_ne_nil _ _
    · rw [Dev.getR_tellRise hn hpg, Dev.getR_setF_key _ F.FLD_RAIL_STATUS_FAB_PG r n v 0 i _ hrail,
        Dev.getR_setF_key _ F.FLD_PG_STATUS_OWN_PG r n v 0 i _ (hpg n hn)]
  · rw [exec_hallwayWireTest howns (by rw [Dev.hwPower, hown, hfar]; rfl) hstate hfailed]
    exact next_onDev_congr (Dev.hwStartTest_of_none htest false)
  · rw [exec_wireTestEnd ht]
    have hgo : (!d.hwPower n k || d.hwState n k = 3 || (d.hwState n k = 1 && asked)) = false := by
      rw [hpower, hstate]
      cases asked <;> rfl
    exact next_onDev_congr (if_neg (Bool.eq_false_iff.1 hgo))
  · rw [exec_wireTestEnd ht]
    have hstop : (!d.hwPower n k || d.hwState n k = 3 || (d.hwState n k = 1 && asked)) = true := by
      rw [hpower]
      rfl
    exact next_onDev_congr (if_pos hstop)
  · rw [exec_hwTest hreach]
    exact next_onDev_congr ((if_pos hstate).trans (Dev.hwStartTest_of_none htest true))
  · have hstate' : (d.setF F.FLD_HW_CTRL_QUIESCE n 1 k).hwState n k = 0 :=
      (Dev.fld_setF_other (f := F.FLD_HW_CTRL_QUIESCE) (g := F.FLD_HW_STATUS_STATE) (by decide) d n 1 k).trans hstate
    rw [exec_quiesce hreach]
    exact next_onDev_congr (if_pos hstate')
  · rw [exec_quiesce hreach]
    rfl
  · rw [exec_hold hreach]
    rfl
  · rw [exec_hold hreach]
    rfl

end Sys2Proof.Machine
end

section
/-! PROOF. The statement on events fails: an occurrence that is not recorded still ends in a state whose memories are in canonical form
(spec/17_faults.md R555; the model's canonical form, log 13). -/

namespace Sys2Proof.Machine

/-- A state after reset whose memory lists a byte that is 0: the same memory as after reset, but not in the model's canonical form. -/
def looseState : State := { State.reset with mem := [(0, 0)] }

/-- A command that ends as `done` leaves the memories in canonical form: `looseState` is not the state that it answers. -/
theorem done_looseState_ne : looseState.done looseState ≠ .next looseState := by
  intro h
  have hmem : (canon 0 looseState.mem : List Host.Cell) = looseState.mem := congrArg State.mem (Host.Outcome.next.inj h)
  exact absurd hmem (by decide)

theorem exec_eventOccurrence_of_none {s : State} {unit : BitVec 24} (h : s.dev.evUnitOk unit.toNat = false) (cls : Fin 32) (cause : Fin 6)
    (detail : BitVec 32) (m : MetBy) : exec (.eventOccurrence unit cls cause detail m) s = s.done s := by
  change execEventOccurrence unit cls cause detail m s = _
  simp only [execEventOccurrence, h, Bool.false_eq_true, if_false]

/-- Refutes O24: an occurrence at unit 0xFFFFFF, which does not exist, does not answer the state `looseState` that it starts from. -/
theorem not_eventCommandsTakeEffect : ¬ Obligations.EventCommandsTakeEffect := by
  unfold Obligations.EventCommandsTakeEffect
  intro h
  obtain ⟨-, hnone, -⟩ := h looseState 0xFFFFFF 0
  have hunit : looseState.dev.evUnitOk (0xFFFFFF : BitVec 24).toNat = false := by decide +kernel
  have hnext := hnone 0 0 ⟨false, false⟩ (Or.inl hunit)
  rw [exec_eventOccurrence_of_none hunit] at hnext
  exact done_looseState_ne hnext

end Sys2Proof.Machine
end

section
/-! PROOF. The statements on sessions and on power control fail: a command that changes nothing in the memories still ends in a state whose
memories are in canonical form (spec/09_host_and_commands.md R355; spec/12_power_control.md R443; the model's canonical form, log 13). -/

namespace Sys2Proof.Machine

/-- A command that ends as `done` does not answer a state whose memory lists a byte that is 0. -/
theorem done_ne_next_of_loose {s r t : State} (hr : r.mem = looseState.mem) (ht : t.mem = looseState.mem) : s.done r ≠ .next t := by
  intro h
  have hmem : (canon 0 r.mem : List Host.Cell) = t.mem := congrArg State.mem (Host.Outcome.next.inj h)
  rw [hr, ht] at hmem
  exact absurd hmem (by decide)

/-- A SESSION_OPEN that has started, all of whose parameters are 0: an allocation outside HBM. -/
def badOpen : CmdS := ⟨0, [0, 1], true, false, 0, [], 0, none, 0⟩

/-- `looseState` with `badOpen` as its one command. -/
def looseOpenState : State := { looseState with dev := { State.reset.dev with cmds := [badOpen] } }

theorem exec_sessionOpen_of_refused {s : State} {seq : BitVec 64} {c : CmdS} (hrun : s.dev.running seq.toNat 1 = some c)
    (hbad : s.dev.openOk (ceSess c.entry) c.entry = false) :
    exec (.sessionOpen seq) s = s.done (s.onDev fun d => d.sessionOpen seq.toNat c.entry) := by
  change execSessionOpen seq s = _
  simp only [execSessionOpen, hrun, hbad, Bool.false_and, Bool.false_eq_true, if_false]

/-- Refutes O48: a SESSION_OPEN that is refused does not keep the memory list of `looseOpenState` as it is. -/
theorem not_sessionCommandsTakeEffect : ¬ Obligations.SessionCommandsTakeEffect := by
  unfold Obligations.SessionCommandsTakeEffect
  intro h
  obtain ⟨-, hrefused, -⟩ := h looseOpenState 0 badOpen
  have hrun : looseOpenState.dev.running (0 : BitVec 64).toNat 1 = some badOpen := by decide +kernel
  have hbad : looseOpenState.dev.openOk (ceSess badOpen.entry) badOpen.entry = false := by decide +kernel
  have hnext := hrefused hrun hbad
  rw [exec_sessionOpen_of_refused hrun hbad] at hnext
  refine done_ne_next_of_loose ?_ ?_ hnext <;> rfl

/-- `looseState` just after an estimation tick: no tick is due. -/
def looseTickState : State := { looseState with dev := State.reset.dev.modPwr fun p => { p with tickNt := 1 } }

theorem exec_estimationTick_of_not_due {s : State} (h : s.dev.tickDue = false) (m : TickMeas) : exec (.estimationTick m) s = s.done s := by
  change execEstimationTick m s = _
  simp only [execEstimationTick, h, Bool.not_false, Bool.or_true, if_true]

/-- Refutes O54: a tick that is not due does not answer the state `looseTickState` that it starts from. -/
theorem not_powerControlCommandsTakeEffect : ¬ Obligations.PowerControlCommandsTakeEffect := by
  unfold Obligations.PowerControlCommandsTakeEffect
  intro h
  obtain ⟨-, hidle, -⟩ := h looseTickState 0 0
  have hnot : looseTickState.dev.tickDue = false := by decide +kernel
  have hnext := hidle ⟨[], [], [], 0, 0, 0⟩ (Or.inr hnot)
  rw [exec_estimationTick_of_not_due hnot] at hnext
  refine done_ne_next_of_loose ?_ ?_ hnext <;> rfl

end Sys2Proof.Machine
end

section
/-! PROOF. The statement on forwarding fails: its frame ranges over registers outside the map (spec/06_fabric.md R260;
spec/00_scope.md R9). -/

namespace Sys2Proof.Machine

/-- A packet of one flit for site 0 itself. -/
def plainPacket : Packet := ⟨0, 0, 0, 0, 0, false, false, 0, 0, 0, 0, 0, false, [], false, false⟩

/-- A device after reset whose map of register words holds a cell for FAB_PORT_ERR of port 4 of site 0 that says 0, the reset value: a
map that no step of the model leaves, but one that a `State` may hold. -/
def errCellState : State := { State.reset with dev := { State.reset.dev with regs := [(R.FAB_PORT_ERR.key 0 4, 0)] } }

/-- A register with the code of FAB_PORT_ERR and another reset value: it is not in the map. -/
def portErrTwin : Reg := { R.FAB_PORT_ERR with reset := 1 }

/-- A packet without an error stores FAB_PORT_ERR again, with nothing added; storing the reset value removes the cell, and `portErrTwin`
reads its own reset value from then on. -/
theorem portErrTwin_changes : (errCellState.dev.countFinds 0 4 (judgePkt plainPacket [])).getR portErrTwin 0 4 = 1 ∧
    errCellState.dev.getR portErrTwin 0 4 = 0 := by decide +kernel

/-- Refutes O29: a packet without an error does not leave every register word as it was, `portErrTwin` among them. -/
theorem not_routersForwardPackets : ¬ Obligations.RoutersForwardPackets := by
  unfold Obligations.RoutersForwardPackets
  intro h
  obtain ⟨-, -, -, hhead, -⟩ := h errCellState 0 4 plainPacket
  have hready : hasPort 0 4 = true ∧ errCellState.dev.isHead 0 4 plainPacket = true ∧
      errCellState.dev.hopWaits 0 4 plainPacket = [] := by decide +kernel
  obtain ⟨hport, his, hwaits⟩ := hready
  obtain ⟨hregs, -⟩ := hhead hport his hwaits
  obtain ⟨hafter, hbefore⟩ := portErrTwin_changes
  have hsame := hregs portErrTwin 0 4
  rw [hbefore] at hsame
  exact absurd (hafter.symm.trans hsame) (by decide)

end Sys2Proof.Machine
end

section
/-! PROOF. The register words after reset (spec/00_scope.md R9, R12). -/

namespace Sys2Proof.Machine

/-- After reset the map of register words holds no cell: a register word reads the reset word of its layout. -/
theorem getR_reset (r : Reg) (u i : Nat) : State.reset.dev.getR r u i = r.word := rfl

/-- Settles O60: no cell is held, so every word is the one that its layout gives. -/
theorem resetLeavesTheStatedValues : Obligations.ResetLeavesTheStatedValues := by
  unfold Obligations.ResetLeavesTheStatedValues
  refine ⟨getR_reset, ?_⟩
  simp only [getR_reset]
  exact ⟨fun _ => rfl, fun _ => rfl, fun _ => rfl, fun _ => rfl, fun _ => rfl, fun _ _ => rfl, rfl, rfl, rfl, rfl, rfl, fun _ => rfl,
    fun _ => rfl⟩

end Sys2Proof.Machine
end

section
/-! PROOF. Queues, rings and channels by their registers (spec/07_messages_and_semaphores.md R268, R279, R281, R288). -/

namespace Sys2Proof.Machine

/-! Queues of a core. -/

/-- A bit of a field that is stored reads back. -/
theorem Dev.bitOf_setFbit_self {f : Fld} {k : Nat} (hf : f.lo + f.width ≤ 64) (hk : k < f.width) (d : Dev) (u i : Nat) (b : Bool) :
    bitOf ((d.setFbit f u k b i).fld f u i) k = b := by
  have hlt : putBit (d.fld f u i) k b < 2 ^ f.width := putBits_lt (by omega) (Dev.fld_lt ..)
  rw [Dev.setFbit, Dev.fld_setF_self_of_lt hf hlt, bitOf_putBit, if_pos rfl]

theorem Dev.qHead_resetQ_self (d : Dev) (u q : Nat) : (d.resetQ u q).qHead u q = none := by
  simp only [Dev.qHead, Dev.resetQ, Dev.setFbit, Dev.core_setF, Dev.core_setR, Dev.core_modCore_self, List.find?_eq_none, List.mem_filter]
  rintro m ⟨-, hm⟩
  simpa using hm

theorem Dev.qHead_resetQ_other {p q : Nat} (h : p ≠ q) (d : Dev) (u : Nat) : (d.resetQ u q).qHead u p = d.qHead u p := by
  simp only [Dev.qHead, Dev.resetQ, Dev.setFbit, Dev.core_setF, Dev.core_setR, Dev.core_modCore_self, List.find?_filter]
  refine congrArg (fun g => List.find? g (d.core u).qs) (funext fun m => ?_)
  by_cases hm : m.q = p
  · simp [hm, h]
  · simp [hm]

theorem Dev.qGen_resetQ {q : Nat} (hq : q < 8) (d : Dev) (u : Nat) : (d.resetQ u q).qGen u q = (d.qGen u q + 1) % 256 := by
  have hlt : putBits (d.fld F.COR_QGEN_GEN u) (q * 8) 8 (d.qGen u q + 1) < 2 ^ 64 :=
    putBits_lt (by omega) (Dev.fld_lt d F.COR_QGEN_GEN u 0)
  have hword : (d.resetQ u q).fld F.COR_QGEN_GEN u = putBits (d.fld F.COR_QGEN_GEN u) (q * 8) 8 (d.qGen u q + 1) := by
    rw [Dev.resetQ, Dev.setFbit, Dev.fld_setF_other (f := F.COR_QCTRL_OPEN) (g := F.COR_QGEN_GEN) (by decide), Dev.fld,
      Dev.getR_setR_self, BitVec.toNat_ofNat, Dev.qGen, Dev.fld_modCore, ← Dev.qGen, Nat.mod_eq_of_lt hlt]
    exact bitsOf_of_lt hlt
  rw [Dev.qGen, hword, bitsOf_putBits_self]
  rfl

theorem Dev.open_resetQ {q : Nat} (hq : q < 8) (d : Dev) (u : Nat) : bitOf ((d.resetQ u q).fld F.COR_QCTRL_OPEN u) q = true :=
  Dev.bitOf_setFbit_self (f := F.COR_QCTRL_OPEN) (by decide) hq _ u 0 true

theorem exec_queueReset {s : State} {c : Core} (h : s.dev.coreReach (coreU c) = true) (q : Fin 8) :
    exec (.queueReset c q) s = .next (s.onDev fun d => d.resetQ (coreU c) q.val) := by
  change execQueueReset c q s = _
  rw [coreU] at h
  simp only [execQueueReset, State.upd, State.onDev, h, if_true, coreU]

theorem exec_queueClose {s : State} {c : Core} (h : s.dev.coreReach (coreU c) = true) (q : Fin 8) :
    exec (.queueClose c q) s = .next (s.onDev fun d => d.closeQ (coreU c) q.val) := by
  change execQueueClose c q s = _
  rw [coreU] at h
  simp only [execQueueClose, State.upd, State.onDev, h, if_true, coreU]

/-! Rings of a cluster. -/

theorem exec_clusterRingReset {s : State} {site : Site} (h : s.dev.siteOut site.val = false) (r : Fin 32) :
    exec (.clusterRingReset site r) s = .next (s.onDev fun d => d.ringReset site.val r.val) := by
  change execClusterRingReset site r s = _
  simp only [execClusterRingReset, State.upd, State.onDev, h, Bool.false_eq_true, if_false]

theorem exec_clusterRingClose {s : State} {site : Site} (h : s.dev.siteOut site.val = false) (r : Fin 32) :
    exec (.clusterRingClose site r) s = .next (s.onDev fun d => d.ringClose site.val r.val) := by
  change execClusterRingClose site r s = _
  simp only [execClusterRingClose, State.upd, State.onDev, h, Bool.false_eq_true, if_false]

/-! Word 1 of a channel entry (Table 7-1). -/

/-- The word that a write of word 1 leaves: GEN, SLOTS and CRED_MAX as written, the credit and SENT as given. -/
def chan1Word (v cred sent : Nat) : Nat :=
  bitsOf v 56 8 * 2 ^ 56 + bitsOf v 48 8 * 2 ^ 48 + bitsOf v 38 5 * 2 ^ 38 + cred * 2 ^ 28 + sent

theorem chan1Word_fields {v cred sent : Nat} (hc : cred < 32) (hs : sent < 65536) :
    let w := (BitVec.ofNat 64 (chan1Word v cred sent)).toNat
    bitsOf w 56 8 = bitsOf v 56 8 ∧ bitsOf w 38 5 = bitsOf v 38 5 ∧ bitsOf w 28 5 = cred ∧ bitsOf w 0 16 = sent := by
  simp only [BitVec.toNat_ofNat, chan1Word, bitsOf]
  omega

theorem Dev.wrChan1_of_keep {d : Dev} {r : Reg} {u chan v : Nat}
    (h : bitsOf v 56 8 = bitsOf (d.getR r u chan).toNat 56 8 ∧ bitsOf v 38 5 = bitsOf (d.getR r u chan).toNat 38 5) :
    d.wrChan1 r u chan v =
      d.setR r u (BitVec.ofNat 64 (chan1Word v (bitsOf (d.getR r u chan).toNat 28 5) (bitsOf (d.getR r u chan).toNat 0 16))) chan := by
  simp only [Dev.wrChan1, chan1Word, h, BEq.rfl, Bool.and_true, if_true]

theorem Dev.wrChan1_of_change {d : Dev} {r : Reg} {u chan v : Nat}
    (h : ¬ (bitsOf v 56 8 = bitsOf (d.getR r u chan).toNat 56 8 ∧ bitsOf v 38 5 = bitsOf (d.getR r u chan).toNat 38 5)) :
    d.wrChan1 r u chan v = d.setR r u (BitVec.ofNat 64 (chan1Word v (bitsOf v 38 5) 0)) chan := by
  have hkeep : (bitsOf v 56 8 == bitsOf (d.getR r u chan).toNat 56 8 && bitsOf v 38 5 == bitsOf (d.getR r u chan).toNat 38 5) = false := by
    simpa using h
  simp only [Dev.wrChan1, chan1Word, hkeep, Bool.false_eq_true, if_false]

/-- What the fields of word 1 of a core's channel entry read once the word is stored. -/
theorem Dev.fld_chan1 (d : Dev) (u chan : Nat) {v cred sent : Nat} (hc : cred < 32) (hs : sent < 65536) :
    let e := d.setR R.COR_CHAN1 u (BitVec.ofNat 64 (chan1Word v cred sent)) chan
    e.fld F.COR_CHAN1_GEN u chan = bitsOf v 56 8 ∧ e.fld F.COR_CHAN1_CRED_MAX u chan = bitsOf v 38 5 ∧
      e.fld F.COR_CHAN1_CRED u chan = cred ∧ e.fld F.COR_CHAN1_SENT u chan = sent := by
  simp only [Dev.fld, Dev.getR_setR_self]
  exact chan1Word_fields hc hs

theorem exec_channelEntryWrite_core {s : State} {c : Core} (h : s.dev.coreReach (coreU c) = true) (chan : BitVec 8) (v : Word) :
    exec (.channelEntryWrite false c chan v) s = .next (s.onDev fun d => d.wrChan1 R.COR_CHAN1 (coreU c) chan.toNat v.toNat) := by
  change execChannelEntryWrite false c chan v s = _
  rw [coreU] at h
  simp only [execChannelEntryWrite, Bool.false_eq_true, if_false, State.upd, State.onDev, h, if_true, coreU, Dev.wrChan]

theorem exec_channelEntryWrite_cluster {s : State} {c : Core} (h : s.dev.siteOut c.site.val = false) (chan : BitVec 8) (v : Word) :
    exec (.channelEntryWrite true c chan v) s = .next (s.onDev fun d => d.wrChan1 R.CLU_CHAN1 c.site.val chan.toNat v.toNat) := by
  change execChannelEntryWrite true c chan v s = _
  simp only [execChannelEntryWrite, if_true, State.upd, State.onDev, h, Bool.false_eq_true, if_false, Dev.wrChan]

/-- Settles O26, command by command. -/
theorem queueRingAndChannelCommands : Obligations.QueueRingAndChannelCommands := by
  unfold Obligations.QueueRingAndChannelCommands
  refine ⟨fun s c q hc => ⟨⟨_, exec_queueReset hc q, ⟨rfl, rfl, rfl, rfl⟩, ?_, ?_, ?_, ?_⟩, exec_queueClose hc q⟩,
    fun s site r hs => ⟨exec_clusterRingReset hs r, exec_clusterRingClose hs r⟩,
    fun s c chan v hc => ⟨_, exec_channelEntryWrite_core hc chan v, ⟨rfl, rfl, rfl, rfl⟩, ?_⟩,
    fun s c chan v hs => exec_channelEntryWrite_cluster hs chan v⟩
  · exact Dev.qHead_resetQ_self ..
  · exact fun p hp => Dev.qHead_resetQ_other hp ..
  · exact Dev.qGen_resetQ q.isLt ..
  · exact Dev.open_resetQ q.isLt ..
  · simp only [State.onDev]
    by_cases hkeep : bitsOf v.toNat 56 8 = bitsOf (s.dev.getR R.COR_CHAN1 (coreU c) chan.toNat).toNat 56 8 ∧
        bitsOf v.toNat 38 5 = bitsOf (s.dev.getR R.COR_CHAN1 (coreU c) chan.toNat).toNat 38 5
    · rw [Dev.wrChan1_of_keep hkeep]
      obtain ⟨hgen, hmax, hcred, hsent⟩ := Dev.fld_chan1 s.dev (coreU c) chan.toNat (v := v.toNat)
        (cred := bitsOf (s.dev.getR R.COR_CHAN1 (coreU c) chan.toNat).toNat 28 5)
        (sent := bitsOf (s.dev.getR R.COR_CHAN1 (coreU c) chan.toNat).toNat 0 16) (Nat.mod_lt _ (by decide)) (Nat.mod_lt _ (by decide))
      exact ⟨hgen, hmax, fun _ => ⟨hcred, hsent⟩, fun hnot => absurd hkeep hnot, fun r w i h => Dev.getR_setR_key _ _ _ _ _ _ _ _ h⟩
    · rw [Dev.wrChan1_of_change hkeep]
      obtain ⟨hgen, hmax, hcred, hsent⟩ := Dev.fld_chan1 s.dev (coreU c) chan.toNat (v := v.toNat) (cred := bitsOf v.toNat 38 5)
        (sent := 0) (Nat.mod_lt _ (by decide)) (by decide)
      exact ⟨hgen, hmax, fun h => absurd h hkeep, fun _ => ⟨hcred, hsent⟩, fun r w i h => Dev.getR_setR_key _ _ _ _ _ _ _ _ h⟩

end Sys2Proof.Machine
end

section
/-! PROOF. Packets at their sink and the waits of messages (spec/06_fabric.md R239, R240, R257, R261; spec/07_messages_and_semaphores.md
R269, R273, R284, R287, R292). -/

namespace Sys2Proof.Machine

/-! What a sink does with a packet, case by case. -/

theorem packet_crcBad_false {p : Packet} (h : p.crcBad = false) : ({ p with crcBad := false } : Packet) = p := by
  rw [← h]

/-- A packet that its sink serves is taken in, and then acts. -/
theorem State.sink_of_serves {s : State} {p : Packet} (h : s.Serves p) {act : State → Option State} {t : State}
    (hact : act (s.takenIn p) = some t) : s.sink p act = t := by
  obtain ⟨hnext, hkill, hcrc, hredir, hclu⟩ := h
  have hopen : (toCluster p && s.dev.nwt.hold.contains p.dstSite.toNat) = false ∧ (toCluster p && s.dev.siteOut p.dstSite.toNat) = false ∧
      (toCluster p && s.dev.asleep p.dstSite.toNat) = false := by
    cases hto : toCluster p
    · exact ⟨rfl, rfl, rfl⟩
    · simpa only [Bool.true_and] using hclu hto
  obtain ⟨hhold, hout, hsleep⟩ := hopen
  unfold State.sink
  rw [packet_crcBad_false hcrc]
  simp only [hnext, hkill, hcrc, hredir, hhold, hout, hsleep, Bool.not_true, Bool.or_self,
    Bool.false_eq_true, if_false]
  rw [State.takenIn] at hact
  simp only [State.onDev] at hact ⊢
  rw [hact]

/-- A packet with KILL, or whose CRC fails, is ejected and has no other effect. -/
theorem State.sink_of_bad {s : State} {p : Packet} (hnext : s.dev.isNext { p with crcBad := false } = true)
    (hbad : p.kill = true ∨ p.crcBad = true) (act : State → Option State) :
    s.sink p act = s.onDev fun d =>
      (d.depart p.dstSite.toNat 15 { p with crcBad := false }).ejected p.dstSite.toNat { p with crcBad := false } := by
  have hor : (p.kill || p.crcBad) = true := by simpa only [Bool.or_eq_true] using hbad
  simp only [State.sink, hnext, hor, Bool.not_true, Bool.false_eq_true, if_false, if_true, State.onDev]

/-- A packet that is not the next one of its line waits. -/
theorem State.sink_of_not_next {s : State} {p : Packet} (hnext : s.dev.isNext { p with crcBad := false } = false)
    (act : State → Option State) : s.sink p act = s := by
  simp only [State.sink, hnext, Bool.not_false, if_true]

theorem State.serve_of_awake {s : State} {p : Packet} (h : s.dev.placeSleeps (s.dev.sinkPlace p (sinkAddr p)) = none)
    (act : State → Option State) : s.serve p act = s.sink p act := by
  simp only [State.serve, h]

/-- An outcome that is `done` with a state gives that state. -/
theorem State.gives_of_done {s x : State} {o : Host.Outcome State Fault Refusal} (h : o = s.done x) : s.Gives o x :=
  h ▸ State.gives_done s x

/-! The packets that are served. -/

section
variable {s : State} {p : Packet} (hs : s.Serves p)
include hs

theorem gives_write (hawake : s.dev.placeSleeps (s.dev.sinkPlace p (sinkAddr p)) = none) {t : State} {st : Nat}
    (hw : (s.takenIn p).packetWrite p = some (t, st)) :
    s.Gives (exec (.write p) s) (t.onDev fun d => if st = 4 then d.addSat F.FAB_STATUS_NOROUTE p.dstSite.toNat 1 else d) := by
  change s.Gives (execWrite p s) _
  rw [execWrite, State.serve_of_awake hawake]
  exact State.gives_of_done (congrArg s.done (State.sink_of_serves hs (by simp only [hw])))

theorem gives_writeAck (hawake : s.dev.placeSleeps (s.dev.sinkPlace p (sinkAddr p)) = none) {t : State} {st : Nat}
    (hw : (s.takenIn p).packetWrite p = some (t, st)) :
    s.Gives (exec (.writeAck p) s) (t.onDev fun d => d.respond p 5 (ackAux st) []) := by
  change s.Gives (execWriteAck p s) _
  rw [execWriteAck, State.serve_of_awake hawake]
  exact State.gives_of_done (congrArg s.done (State.sink_of_serves hs (by simp only [hw])))

theorem gives_readReq (hawake : s.dev.placeSleeps (s.dev.sinkPlace p (sinkAddr p)) = none) :
    let x := (s.takenIn p).rangeRead ((s.takenIn p).dev.sinkPlace p) (sinkAddr p) (auxWords p * 8)
    s.Gives (exec (.readReq p) s) (x.1.onDev fun d => d.respond p 3 (respAux (auxWords p) x.2.2) x.2.1) := by
  intro x
  change s.Gives (execReadReq p s) _
  rw [execReadReq, State.serve_of_awake hawake]
  exact State.gives_of_done (congrArg s.done (State.sink_of_serves hs rfl))

theorem gives_msg {t : State} (ht : (s.takenIn p).msgIn p = some t) : s.Gives (exec (.msg p) s) t :=
  State.gives_of_done (congrArg s.done (State.sink_of_serves hs ht))

/-- A response whose request is known ends it. -/
theorem State.response_of_some {r : Req} (hr : (s.takenIn p).dev.reqOf p.dstSite.toNat (portOfCore p.dstCore.toNat) p.tag.toNat = some r)
    (act : State → Req → State) : s.response p act = (act (s.takenIn p) r).onDev fun d => d.endReq r :=
  State.sink_of_serves hs (by simp only [hr])

/-- A response without a request counts as late. -/
theorem State.response_of_none (hr : (s.takenIn p).dev.reqOf p.dstSite.toNat (portOfCore p.dstCore.toNat) p.tag.toNat = none)
    (act : State → Req → State) :
    s.response p act = (s.takenIn p).onDev fun d => d.addSat F.FAB_STATUS_LATE p.dstSite.toNat 1 :=
  State.sink_of_serves hs (by simp only [hr])

theorem gives_ack {r : Req} (hr : (s.takenIn p).dev.reqOf p.dstSite.toNat (portOfCore p.dstCore.toNat) p.tag.toNat = some r) :
    s.Gives (exec (.ack p) s) ((s.takenIn p).onDev fun d => (d.reqStatus r.kind (respStatus p)).endReq r) :=
  State.gives_of_done (congrArg s.done (State.response_of_some hs hr _))

theorem gives_ack_late (hr : (s.takenIn p).dev.reqOf p.dstSite.toNat (portOfCore p.dstCore.toNat) p.tag.toNat = none) :
    s.Gives (exec (.ack p) s) ((s.takenIn p).onDev fun d => d.addSat F.FAB_STATUS_LATE p.dstSite.toNat 1) :=
  State.gives_of_done (congrArg s.done (State.response_of_none hs hr _))

theorem gives_readResp {r : Req} {u seq off len : Nat}
    (hr : (s.takenIn p).dev.reqOf p.dstSite.toNat (portOfCore p.dstCore.toNat) p.tag.toNat = some r)
    (hkind : r.kind = .read u seq off len) (hst : respStatus p = 0) :
    s.Gives (exec (.readResp p) s) (((s.takenIn p).readBack u seq off len p.payload).onDev fun d => d.endReq r) := by
  refine State.gives_of_done (congrArg s.done ((State.response_of_some hs hr _).trans ?_))
  simp only [hkind, hst, if_true]
  rfl

theorem gives_testPacket : s.Gives (exec (.testPacket p) s) ((s.takenIn p).onDev fun d =>
    if p.srcSite = p.dstSite then d
    else d.reply p.dstSite.toNat (portOfCore p.dstCore.toNat)
      { p with dstSite := p.srcSite, dstCore := p.srcCore, epoch := d.injEpoch p.dstSite.toNat = 1, vc := false }) :=
  State.gives_of_done (congrArg s.done (State.sink_of_serves hs rfl))

theorem gives_creditMessage : s.Gives (exec (.creditMessage p) s) ((s.takenIn p).onDev fun d => d.creditIn p) :=
  State.gives_of_done (congrArg s.done (State.sink_of_serves hs rfl))

theorem gives_creditRequest : s.Gives (exec (.creditRequest p) s) ((s.takenIn p).onDev fun d => d.creditAsk p) :=
  State.gives_of_done (congrArg s.done (State.sink_of_serves hs rfl))

end

/-! Requests that time out. -/

/-- The state in which a request without response has left its tag. -/
def State.timedOut (s : State) (st : Site) (port : Fin 7) (r : Req) : State :=
  s.onDev fun d => (({ d with reqs := d.reqs.erase r, deadTags := d.deadTags ++ [r] } : Dev).addSat F.FAB_STATUS_TIMEOUTS st.val 1).raise
    (evU bFAB st.val) 5 1 port.val

theorem exec_fabTimeout {s : State} {st : Site} {port : Fin 7} {tag : BitVec 8} {r : Req}
    (hr : s.dev.reqOf st.val port.val tag.toNat = some r) :
    exec (.fabTimeout st port tag) s = s.done (match r.kind with
      | .read u seq off len => (s.timedOut st port r).readBack u seq off len []
      | k => (s.timedOut st port r).onDev fun d => d.reqStatus k 3) := by
  change execFabTimeout st port tag s = _
  simp only [execFabTimeout, hr]
  rfl

theorem gives_fabTimeout_read {s : State} {st : Site} {port : Fin 7} {tag : BitVec 8} {r : Req} {u seq off len : Nat}
    (hr : s.dev.reqOf st.val port.val tag.toNat = some r) (hkind : r.kind = .read u seq off len) :
    s.Gives (exec (.fabTimeout st port tag) s) ((s.timedOut st port r).readBack u seq off len []) := by
  rw [exec_fabTimeout hr, hkind]
  exact State.gives_done s _

theorem gives_fabTimeout_other {s : State} {st : Site} {port : Fin 7} {tag : BitVec 8} {r : Req}
    (hr : s.dev.reqOf st.val port.val tag.toNat = some r) (hkind : ∀ u seq off len, r.kind ≠ .read u seq off len) :
    s.Gives (exec (.fabTimeout st port tag) s) ((s.timedOut st port r).onDev fun d => d.reqStatus r.kind 3) := by
  rw [exec_fabTimeout hr]
  cases hk : r.kind with
  | read u seq off len => exact absurd hk (hkind u seq off len)
  | _ => exact State.gives_done s _

/-- Settles O33, packet type by packet type. -/
theorem packetsAreServedAtTheirSink : Obligations.PacketsAreServedAtTheirSink := by
  unfold Obligations.PacketsAreServedAtTheirSink
  intro s p
  refine ⟨fun hs hawake => ⟨fun t st hw => ⟨gives_write hs hawake hw, gives_writeAck hs hawake hw⟩, gives_readReq hs hawake⟩,
    fun hs => ⟨fun t => gives_msg hs, fun r => gives_ack hs, fun r u seq off len => gives_readResp hs, gives_ack_late hs, ?_, ?_⟩,
    fun hnext hbad => State.gives_of_done (congrArg s.done (State.sink_of_bad hnext hbad _)),
    fun hnext => State.gives_of_done (congrArg s.done (State.sink_of_not_next hnext _)),
    fun st port tag r hr => ⟨gives_fabTimeout_other hr, fun u seq off len => gives_fabTimeout_read hr⟩⟩
  · intro hne
    have h := gives_testPacket hs
    simp only [hne, if_false] at h
    exact h
  · intro heq
    have h := gives_testPacket hs
    simp only [heq, if_true] at h
    exact h

/-! The waits of messages. -/

theorem exec_ringWaitEnd {s t : State} {site : Site} {r : Fin 32} {w : Nat × WaitMsg}
    (hw : ((s.dev.clu site.val).ringWait.find? fun w => w.1 == r.val) = some w)
    (ht : (s.onDev fun d => d.modClu site.val fun x => { x with ringWait := x.ringWait.erase w }).ringTry w.2.pkt w.2.circ w.2.body =
      some t) : exec (.ringWaitEnd site r) s = s.done t := by
  change execRingWaitEnd site r s = _
  simp only [execRingWaitEnd, hw, ht]

theorem exec_ringWaitTimeout {s : State} {site : Site} {r : Fin 32} {w : Nat × WaitMsg}
    (hw : ((s.dev.clu site.val).ringWait.find? fun w => w.1 == r.val) = some w) :
    exec (.ringWaitTimeout site r) s = .next (s.onDev fun d =>
      ((((d.modClu site.val fun x => { x with ringWait := x.ringWait.erase w }).addSat F.CLU_RING_STATUS_DROPPED site.val 1
        r.val).raise (evU bCLU site.val) 8 1 r.val).ackMsg w.2.pkt w.2.circ 3)) := by
  change execRingWaitTimeout site r s = _
  simp only [execRingWaitTimeout, State.upd, State.onDev, hw]

theorem exec_cisternRearm {s : State} {site : Site} {k : BitVec 8} (hread : (s.dev.clu site.val).cstRead.contains k.toNat = true)
    (hwait : ((s.dev.clu site.val).cstWait.filter fun w => w.1 == k.toNat) = []) :
    exec (.cisternRearm site k) s = s.done (s.onDev fun d =>
      (d.setF F.CLU_CST1_RECEIVED site.val 0 k.toNat).modClu site.val fun x =>
        { x with cstRead := x.cstRead.erase k.toNat, cstWait := x.cstWait.filter fun w => w.1 != k.toNat }) := by
  change execCisternRearm site k s = _
  simp only [execCisternRearm, hread, hwait, if_true, State.each, List.foldl_nil]

theorem exec_creditWaitTimer {s : State} {c : Core} {x : QWord} {rest : List QWord} {y : Sync} {ds : BitVec 5} {chan : BitVec 8}
    {sig : Bool} {sign : BitVec 4} {sten : Bool} {sreg : BitVec 4} (hm : (s.dev.core (coreU c)).m = x :: rest)
    (hbody : x.body = .send y ds chan sig sign sten sreg) (hstart : x.started = false)
    (hland : s.dev.fld F.COR_CHAN0_LAND (coreU c) chan.toNat = 0) (hvalid : s.dev.flag F.COR_CHAN0_VALID (coreU c) chan.toNat = true)
    (hcred : s.dev.fld F.COR_CHAN1_CRED (coreU c) chan.toNat < entriesOf (opBytes (x.ds.headD 0))) :
    exec (.creditWaitTimer c) s = .next (s.onDev fun d => d.creditReq (coreU c) (d.epOf (coreU c) x.mode) chan.toNat) := by
  change execCreditWaitTimer c s = _
  rw [coreU] at hm hland hvalid hcred
  simp only [execCreditWaitTimer, State.upd, State.onDev, hm, hbody, hstart, hland, hvalid, hcred, coreU, Bool.not_false, decide_true,
    Bool.and_self, if_true]

/-- A credit that is recomputed agrees in generation, grows, and with what is under way makes up CRED_MAX. -/
theorem newCred_eq_some {w1 gen freed v : Nat} (h : newCred w1 gen freed = some v) :
    gen = bitsOf w1 56 8 ∧ bitsOf w1 28 5 < v ∧ v + (bitsOf w1 0 16 + 65536 - freed) % 65536 = bitsOf w1 38 5 := by
  simp only [newCred, Option.ite_none_right_eq_some, Bool.and_eq_true, decide_eq_true_eq, Option.some.injEq] at h
  obtain ⟨⟨⟨hgen, hle⟩, hlt⟩, rfl⟩ := h
  exact ⟨hgen, hlt, Nat.sub_add_cancel hle⟩

/-- Settles O28, wait by wait. -/
theorem messageWaitsEnd : Obligations.MessageWaitsEnd := by
  unfold Obligations.MessageWaitsEnd
  exact ⟨fun s site r w t hw ht => State.gives_of_done (exec_ringWaitEnd hw ht), fun s site r w => exec_ringWaitTimeout,
    fun s site k hread hwait => State.gives_of_done (exec_cisternRearm hread hwait),
    fun s c x rest y ds chan sig sign sten sreg hm hbody hstart hland hvalid hcred =>
      exec_creditWaitTimer hm hbody hstart hland hvalid hcred,
    fun s p hs => ⟨gives_creditMessage hs, gives_creditRequest hs⟩, fun w1 gen freed v => newCred_eq_some⟩

end Sys2Proof.Machine
end

section
/-! PROOF. Router configuration, drains and circuits (spec/06_fabric.md R248 to R259). -/

namespace Sys2Proof.Machine

/-! Router configuration. -/

theorem exec_fabCtrl {s : State} {site : Site} (h : s.dev.fieldLost (fieldOf site.val) = false) (v : Word) :
    exec (.fabCtrl site v) s = .next (s.onDev fun d => d.wrFabCtrl site.val v.toNat) := by
  change execFabCtrl site v s = _
  simp only [execFabCtrl, State.upd, State.onDev, h, Bool.false_eq_true, if_false]

/-- The bits of FAB_CTRL that a write takes: the limits, VC1_EN, and VALID_A, VALID_B and INJ_EPOCH. -/
def fabCtrlWord (v : Nat) : Nat := bitsOf v 16 16 * 65536 + bitsOf v 7 1 * 128 + bitsOf v 0 3

/-- Whether the copy that INJ_EPOCH names is valid in a FAB_CTRL word. -/
def copyNamed (new : Nat) : Bool := if bitOf new 0 then bitOf new 2 else bitOf new 1

theorem Dev.wrFabCtrl_of_unnamed {v : Nat} (h : copyNamed (fabCtrlWord v) = false) (d : Dev) (site : Nat) :
    d.wrFabCtrl site v = d.setF F.FAB_STATUS_WR_REJ site 1 := by
  rw [copyNamed, fabCtrlWord] at h
  simp only [Dev.wrFabCtrl, h, Bool.not_false, if_true]

theorem Dev.wrFabCtrl_of_named {v : Nat} (h : copyNamed (fabCtrlWord v) = true) (d : Dev) (site : Nat) :
    d.wrFabCtrl site v =
      let new := fabCtrlWord v
      let old := (d.getR R.FAB_CTRL site).toNat
      let a := bitOf new 1 && !bitOf old 1
      let b := bitOf new 2 && !bitOf old 2
      let d := d.setR R.FAB_CTRL site (BitVec.ofNat 64 new)
      let d := if a then d.setR R.FAB_ECNT site 0 0 else d
      let d := if b then d.setR R.FAB_ECNT site 0 1 else d
      if a || b then d.setR R.FAB_UNATTR site 0 else d := by
  have hok : ¬ (!copyNamed (fabCtrlWord v)) = true := by rw [h]; decide
  exact if_neg hok

theorem exec_fabTblData {s : State} {site : Site} (h : s.dev.fieldLost (fieldOf site.val) = false) (v : BitVec 32) :
    exec (.fabTblData site v) s = .next (s.onDev fun d => d.wrFabTbl site.val v.toNat) := by
  change execFabTblData site v s = _
  simp only [execFabTblData, State.upd, State.onDev, h, Bool.false_eq_true, if_false]

theorem Dev.wrFabTbl_of_route {d : Dev} {site : Nat}
    (ht : d.fld F.FAB_TBL_SEL_TABLE site = 0 ∨ d.fld F.FAB_TBL_SEL_TABLE site = 1 ∨ d.fld F.FAB_TBL_SEL_TABLE site = 3 ∨
      d.fld F.FAB_TBL_SEL_TABLE site = 4) (v : Nat) :
    d.wrFabTbl site v = if d.copyValid site (d.fld F.FAB_TBL_SEL_TABLE site = 1 || d.fld F.FAB_TBL_SEL_TABLE site = 4)
      then d.setF F.FAB_STATUS_WR_REJ site 1
      else d.putTbl site (d.fld F.FAB_TBL_SEL_TABLE site) (d.fld F.FAB_TBL_SEL_INDEX site) v := by
  have hne : d.fld F.FAB_TBL_SEL_TABLE site ≠ 2 ∧ ¬ 4 < d.fld F.FAB_TBL_SEL_TABLE site := by omega
  simp only [Dev.wrFabTbl, gt_iff_lt, hne, decide_false, Bool.false_and, Bool.or_self, Bool.false_eq_true, if_false]

theorem Dev.wrFabTbl_of_circuit {d : Dev} {site : Nat} (ht : d.fld F.FAB_TBL_SEL_TABLE site = 2)
    (hix : d.fld F.FAB_TBL_SEL_INDEX site < 56) (v : Nat) :
    d.wrFabTbl site v = if d.circConflict site (d.fld F.FAB_TBL_SEL_INDEX site) v then d.setF F.FAB_STATUS_CONFLICT site 1
      else d.putTbl site 2 (d.fld F.FAB_TBL_SEL_INDEX site) v := by
  have hle : ¬ 56 ≤ d.fld F.FAB_TBL_SEL_INDEX site := by omega
  simp only [Dev.wrFabTbl, ht, gt_iff_lt, ge_iff_le, hle, decide_false, Bool.and_false, if_true]
  rfl

theorem exec_teardownDone {s : State} {site : Site} {i : Fin 56} (hvalid : bitOf (sget (s.dev.rtr site.val).circ 0 i.val) 31 = true)
    (htear : bitOf (sget (s.dev.rtr site.val).circ 0 i.val) 30 = true) (hidle : 16 ≤ s.dev.circIdle site.val i.val) :
    exec (.teardownDone site i) s =
      .next (s.onDev fun d => d.modRtr site.val fun x => { x with circ := sset x.circ 0 i.val 0 }) := by
  change execTeardownDone site i s = _
  simp only [execTeardownDone, State.upd, State.onDev, hvalid, htear, ge_iff_le, hidle, decide_true, Bool.and_self, if_true]

theorem exec_cluMeshCtrl {s : State} {site : Site} (h : s.dev.siteOut site.val = false) (o : Bool) :
    exec (.cluMeshCtrl site o) s = .next (s.onDev fun d => d.wrMesh site.val o) := by
  change execCluMeshCtrl site o s = _
  simp only [execCluMeshCtrl, State.upd, State.onDev, h, Bool.false_eq_true, if_false]

/-- Whether every core of a cluster is halted or absent. -/
def Dev.allHalted (d : Dev) (site : Nat) : Bool := (List.range 36).all fun c => d.coreAbsent (cu site c) || d.coreState (cu site c) == 0

theorem Dev.allHalted_iff (d : Dev) (site : Nat) :
    d.allHalted site = true ↔ ∀ c, c < 36 → d.coreAbsent (cu site c) = true ∨ d.coreState (cu site c) = 0 := by
  simp only [Dev.allHalted, List.all_eq_true, List.mem_range, Bool.or_eq_true, beq_iff_eq]

theorem Dev.wrMesh_eq (d : Dev) (site : Nat) (o : Bool) :
    d.wrMesh site o = if d.allHalted site then d.setB F.CLU_MESH_CTRL_ORDER site o else d := rfl

/-- Settles O31, register by register. -/
theorem routerConfigurationCommands : Obligations.RouterConfigurationCommands := by
  unfold Obligations.RouterConfigurationCommands
  intro s site
  refine ⟨fun v hl => ⟨fun hn => ?_, fun hn => ?_⟩, fun v hl => ⟨fun ht hc => ?_, fun ht hc => ?_, fun ht hix => ?_⟩,
    fun i => exec_teardownDone, fun o ho hall => ?_, fun o c ho hc habs hstate => ?_⟩
  · exact (exec_fabCtrl hl v).trans (next_onDev_congr (Dev.wrFabCtrl_of_unnamed hn ..))
  · exact (exec_fabCtrl hl v).trans (next_onDev_congr (Dev.wrFabCtrl_of_named hn ..))
  · exact (exec_fabTblData hl v).trans (next_onDev_congr ((Dev.wrFabTbl_of_route ht _).trans (if_neg (by rw [hc]; decide))))
  · exact (exec_fabTblData hl v).trans (next_onDev_congr ((Dev.wrFabTbl_of_route ht _).trans (if_pos hc)))
  · exact (exec_fabTblData hl v).trans (next_onDev_congr (Dev.wrFabTbl_of_circuit ht hix _))
  · exact (exec_cluMeshCtrl ho o).trans (next_onDev_congr ((Dev.wrMesh_eq ..).trans (if_pos ((Dev.allHalted_iff ..).2 hall))))
  · have hnot : ¬ s.dev.allHalted site.val = true := fun h =>
      ((Dev.allHalted_iff ..).1 h c hc).elim (fun hx => absurd (hx.symm.trans habs) (by decide)) hstate
    exact (exec_cluMeshCtrl ho o).trans (next_onDev_congr (g := fun d => d) ((Dev.wrMesh_eq ..).trans (if_neg hnot)))

end Sys2Proof.Machine
end

section
/-! PROOF. Drains in waves (spec/06_fabric.md R258, R259). -/

namespace Sys2Proof.Machine

/-! What sending a packet leaves. -/

theorem Dev.rtr_arrive (d : Dev) (site port : Nat) (p : Packet) (r : Nat) : (d.arrive site port p).rtr r = d.rtr r := by
  rw [Dev.arrive]
  split
  · rfl
  · rfl

theorem Dev.rtr_send1 (d : Dev) (site port : Nat) (p : Packet) (r : Nat) : (d.send1 site port p).rtr r = d.rtr r := by
  rw [Dev.send1, Dev.inPort]
  split
  · rw [Dev.rtr_arrive]
    split
    · rfl
    · rfl
  · rfl

/-- A packet that arrives in an input buffer changes no word but FAB_PORT_OCC of its port. -/
theorem Dev.getR_arrive {q : Reg} {site port v j : Nat} (h : q.key v j ≠ R.FAB_PORT_OCC.key site port) (d : Dev) (p : Packet) :
    (d.arrive site port p).getR q v j = d.getR q v j := by
  rw [Dev.arrive]
  split
  · rfl
  · cases p.vc
    · exact (Dev.getR_setF_key _ F.FAB_PORT_OCC_MAX_VC0 q _ _ _ _ _ h).trans (Dev.getR_setF_key _ F.FAB_PORT_OCC_OCC_VC0 q _ _ _ _ _ h)
    · exact (Dev.getR_setF_key _ F.FAB_PORT_OCC_MAX_VC1 q _ _ _ _ _ h).trans (Dev.getR_setF_key _ F.FAB_PORT_OCC_OCC_VC1 q _ _ _ _ _ h)

/-- A packet that is sent changes no word but FAB_PORT_OCC of its port and the injection counts. -/
theorem Dev.getR_send1 {q : Reg} {site port v j : Nat} (hocc : q.key v j ≠ R.FAB_PORT_OCC.key site port)
    (hinj : ∀ i, i < 2 → q.key v j ≠ R.FAB_ECNT.key site i) (d : Dev) (p : Packet) :
    (d.send1 site port p).getR q v j = d.getR q v j := by
  rw [Dev.send1, Dev.inPort]
  split
  · rw [Dev.getR_arrive hocc]
    split
    · rfl
    · refine Dev.getR_setF_key _ F.FAB_ECNT_INJ q _ _ _ _ _ (hinj _ ?_)
      cases p.epoch <;> decide
  · rfl

/-- FAB_CTRL of a router stands when the router's own port 4 takes a packet. -/
theorem Dev.fabCtrl_send1 {f : Fld} (hf : f.reg = R.FAB_CTRL) (d : Dev) (site : Nat) (p : Packet) :
    (d.send1 site 4 p).fld f site = d.fld f site := by
  rw [Dev.fld, Dev.fld, hf, Dev.getR_send1]
  · simp only [Reg.key, R.FAB_CTRL, R.FAB_PORT_OCC]
    omega
  · intro i hi
    simp only [Reg.key, R.FAB_CTRL, R.FAB_ECNT]
    omega

/-! The visits of a wave. -/

/-- The device when a drain's packet has left the site at the head of its list. -/
def Dev.drainLeft (d : Dev) (r : Nat) (rest : List Nat) : Dev :=
  d.modRtr r fun y => { y with drain := { y.drain with todo := rest } }

/-- The packet that goes on to the next site of its list, or at last back to the root. -/
def drainNext (d : Dev) (t : Nat) (p : Packet) (rest : List Nat) (b : List Byte) : Packet :=
  { p with payload := b, dstSite := BitVec.ofNat 8 (rest.headD p.srcSite.toNat), vc := d.flag F.FAB_CTRL_VC1_EN t }

section
variable {d : Dev} {p : Packet} {t : Nat} {rest : List Nat} (htodo : (d.rtr p.srcSite.toNat).drain.todo = t :: rest)
  (hmore : t ≠ p.srcSite.toNat ∨ rest ≠ [])
include htodo hmore

theorem Dev.drainVisit_of_count (hbit : leAt p.payload 13 1 < 2) :
    d.drainVisit t p = (d.drainLeft p.srcSite.toNat rest).send1 t 4 (drainNext d t p rest
      (drainBody (leAt p.payload 0 4 + d.fld F.FAB_ECNT_INJ t (leAt p.payload 13 1 % 2))
        (leAt p.payload 4 4 + d.fld F.FAB_ECNT_EJ t (leAt p.payload 13 1 % 2)) (leAt p.payload 8 4 + d.fld F.FAB_UNATTR_UNATTR t)
        (leAt p.payload 12 1) (leAt p.payload 13 1 % 2) false)) := by
  have hret : ¬ leAt p.payload 13 1 / 2 % 2 = 1 := by omega
  have hlast : ¬ (rest.isEmpty && t == p.srcSite.toNat) = true := by simpa [or_comm, imp_iff_not_or] using hmore
  simp only [Dev.drainVisit, htodo, ne_eq, not_true_eq_false, if_false, if_neg hret, if_neg hlast]
  rfl

theorem Dev.drainVisit_of_retire (hlow : 2 ≤ leAt p.payload 13 1) (hhigh : leAt p.payload 13 1 < 4) :
    (d.drainVisit t p).flag (if leAt p.payload 13 1 % 2 = 1 then F.FAB_CTRL_VALID_B else F.FAB_CTRL_VALID_A) t = false := by
  have hret : leAt p.payload 13 1 / 2 % 2 = 1 := by omega
  have hlast : ¬ (rest.isEmpty && t == p.srcSite.toNat) = true := by simpa [or_comm, imp_iff_not_or] using hmore
  simp only [Dev.drainVisit, htodo, ne_eq, not_true_eq_false, if_false, if_pos hret, if_neg hlast]
  by_cases hep : leAt p.payload 13 1 % 2 = 1
  · simp only [if_pos hep]
    rw [Dev.flag, Dev.fabCtrl_send1 (f := F.FAB_CTRL_VALID_B) rfl, Dev.fld_setF_self_of_lt (f := F.FAB_CTRL_VALID_B) (by decide) (by decide)]
    rfl
  · simp only [if_neg hep]
    rw [Dev.flag, Dev.fabCtrl_send1 (f := F.FAB_CTRL_VALID_A) rfl, Dev.fld_setF_self_of_lt (f := F.FAB_CTRL_VALID_A) (by decide) (by decide)]
    rfl

end

/-! The waves. -/

theorem Dev.drain_drainSend (d : Dev) (r : Nat) (retire : Bool) :
    ((d.drainSend r retire).rtr r).drain = { (d.rtr r).drain with phase := if retire then 3 else 1, todo := d.drainSites r } := by
  rw [Dev.drainSend, Dev.rtr_send1, Dev.rtr_modRtr_self]

theorem serpentine_nodup : serpentine.Nodup := by decide +kernel

theorem lt_of_mem_serpentine {t : Nat} (h : t ∈ serpentine) : t < 256 := by
  have hall : (serpentine.all fun t => t < 256) = true := by decide +kernel
  simpa using List.all_eq_true.1 hall t h

theorem Dev.drainSites_nodup (d : Dev) (r : Nat) : (d.drainSites r).Nodup := serpentine_nodup.filter _

theorem Dev.mem_drainSites {d : Dev} {r t : Nat} (h : t ∈ d.drainSites r) :
    t < 256 ∧ bitOf (d.getR R.FAB_DRAIN_MASK r (t / 64)).toNat (t % 64) = true := by
  obtain ⟨hmem, hbit⟩ := List.mem_filter.1 h
  exact ⟨lt_of_mem_serpentine hmem, hbit⟩

/-- A packet at its sink leaves the routers as they are. -/
theorem Dev.rtr_depart_sink (d : Dev) (r : Nat) (p : Packet) (v : Nat) : (d.depart r 15 p).rtr v = d.rtr v := by
  rw [Dev.depart]
  split
  · rfl
  · rfl

/-- The sums that a wave shows. -/
def Dev.drainShown (d : Dev) (r inj ej : Nat) : Dev :=
  ((d.setF F.FAB_DRAIN_SUM_INJ r inj).setF F.FAB_DRAIN_SUM_EJ r ej).setF F.FAB_DRAIN_STATUS_WAVES r (d.rtr r).drain.wave

theorem Dev.autoRetire_drainShown (d : Dev) (r inj ej : Nat) :
    (d.drainShown r inj ej).flag F.FAB_DRAIN_CTRL_AUTO_RETIRE r = d.flag F.FAB_DRAIN_CTRL_AUTO_RETIRE r := by
  rw [Dev.flag, Dev.flag, Dev.drainShown,
    Dev.fld_setF_other (f := F.FAB_DRAIN_STATUS_WAVES) (g := F.FAB_DRAIN_CTRL_AUTO_RETIRE) (by decide),
    Dev.fld_setF_other (f := F.FAB_DRAIN_SUM_EJ) (g := F.FAB_DRAIN_CTRL_AUTO_RETIRE) (by decide),
    Dev.fld_setF_other (f := F.FAB_DRAIN_SUM_INJ) (g := F.FAB_DRAIN_CTRL_AUTO_RETIRE) (by decide)]

/-- A later wave with the sums of the wave before and no difference ends the drain CLEAN. -/
theorem Dev.drainJudge_of_clean {d : Dev} {r inj ej : Nat} (hwave : 2 ≤ (d.rtr r).drain.wave) (hinj : (d.rtr r).drain.inj = inj)
    (hej : (d.rtr r).drain.ej = ej) (heq : inj = ej) (hauto : d.flag F.FAB_DRAIN_CTRL_AUTO_RETIRE r = false) (ua : Nat) :
    d.drainJudge r inj ej ua = ((d.drainShown r inj ej).modRtr r fun y =>
      { y with drain := ⟨(d.rtr r).drain.wave, inj, ej, ua, 0, []⟩ }).drainEnd r 2 := by
  have hgap : (inj + 2 ^ 32 - ej) % 2 ^ 32 = 0 := by
    rw [heq, Nat.add_sub_cancel_left, Nat.mod_self]
  have hauto' : (((d.setF F.FAB_DRAIN_SUM_INJ r inj).setF F.FAB_DRAIN_SUM_EJ r ej).setF F.FAB_DRAIN_STATUS_WAVES r
      (d.rtr r).drain.wave).flag F.FAB_DRAIN_CTRL_AUTO_RETIRE r = false := (d.autoRetire_drainShown r inj ej).trans hauto
  rw [Dev.drainJudge]
  simp only [ge_iff_le, hwave, hinj, hej, hgap, hauto', decide_true, BEq.rfl, Bool.and_self, Nat.zero_le, if_true, Bool.false_eq_true,
    if_false, Dev.drainShown]

/-- The first wave is followed by a gap and the second. -/
theorem Dev.drainJudge_of_first {d : Dev} {r : Nat} (hwave : (d.rtr r).drain.wave = 1) (inj ej ua : Nat) :
    d.drainJudge r inj ej ua = (d.drainShown r inj ej).modRtr r fun y => { y with drain := ⟨2, inj, ej, ua, 2, []⟩ } := by
  have hlate : ¬ max 2 ((d.drainShown r inj ej).fld F.FAB_DRAIN_CTRL_MAX_WAVES r) ≤ 1 := by omega
  have hfirst : decide (2 ≤ 1) = false := by decide
  rw [Dev.drainShown, hwave] at hlate
  rw [Dev.drainJudge]
  simp only [ge_iff_le, hwave, hfirst, Bool.false_and, Bool.false_eq_true, if_false, if_neg hlate, Dev.drainShown]

/-! The commands of a drain. -/

theorem exec_drainStart {s : State} {root : Site} (hl : s.dev.fieldLost (fieldOf root.val) = false)
    (hphase : (s.dev.rtr root.val).drain.phase = 0) :
    exec (.drainStart root) s = .next (s.onDev fun d =>
      (((d.modRtr root.val fun x => { x with drain := ⟨1, 0, 0, 0, 1, []⟩ }).setF F.FAB_DRAIN_STATUS_STATUS root.val 1).setF
        F.FAB_DRAIN_STATUS_WAVES root.val 0).drainSend root.val false) := by
  change execDrainStart root s = _
  simp only [execDrainStart, State.upd, State.onDev, hl, Bool.false_eq_true, if_false, Dev.drainStart, hphase, ne_eq, not_true_eq_false]

theorem exec_drainWaveReturn {s : State} {root : Site} {p : Packet} (hback : s.dev.drainBack root.val = some p)
    (hphase : (s.dev.rtr root.val).drain.phase = 1) (hbit : leAt p.payload 13 1 < 2) :
    exec (.drainWaveReturn root) s = .next (s.onDev fun d =>
      (d.depart root.val 15 p).drainJudge root.val (leAt p.payload 0 4) (leAt p.payload 4 4) (leAt p.payload 8 4)) := by
  change execDrainWaveReturn root s = _
  simp only [execDrainWaveReturn, State.upd, State.onDev, hback, Dev.rtr_depart_sink, hphase, hbit, decide_true, Bool.and_self, if_true]

theorem exec_drainGapExpiry {s : State} {root : Site} (hphase : (s.dev.rtr root.val).drain.phase = 2) :
    exec (.drainGapExpiry root) s = .next (s.onDev fun d => d.drainSend root.val false) := by
  change execDrainGapExpiry root s = _
  simp only [execDrainGapExpiry, State.upd, State.onDev, hphase, if_true]

theorem exec_retireWaveReturn {s : State} {root : Site} {p : Packet} (hback : s.dev.drainBack root.val = some p)
    (hphase : (s.dev.rtr root.val).drain.phase = 3) (hbit : 2 ≤ leAt p.payload 13 1) :
    exec (.retireWaveReturn root) s = .next (s.onDev fun d =>
      (d.depart root.val 15 p).drainEnd root.val ((d.depart root.val 15 p).fld F.FAB_DRAIN_STATUS_STATUS root.val)) := by
  change execRetireWaveReturn root s = _
  simp only [execRetireWaveReturn, State.upd, State.onDev, hback, Dev.rtr_depart_sink, hphase, ge_iff_le, hbit, decide_true, Bool.and_self,
    if_true]

theorem exec_drainWaveTimeout {s : State} {root : Site}
    (hphase : (s.dev.rtr root.val).drain.phase = 1 ∨ (s.dev.rtr root.val).drain.phase = 3) :
    exec (.drainWaveTimeout root) s = .next (s.onDev fun d => d.drainEnd root.val 5) := by
  have hrun : (decide ((s.dev.rtr root.val).drain.phase = 1) || decide ((s.dev.rtr root.val).drain.phase = 3)) = true := by
    simpa only [Bool.or_eq_true, decide_eq_true_eq] using hphase
  change execDrainWaveTimeout root s = _
  simp only [execDrainWaveTimeout, State.upd, State.onDev, hrun, if_true]

/-- Settles O32, wave by wave. -/
theorem drainsRunInWaves : Obligations.DrainsRunInWaves := by
  unfold Obligations.DrainsRunInWaves
  intro s root
  refine ⟨exec_drainStart, fun retire => ?_, ⟨Dev.drainSites_nodup .., fun t => Dev.mem_drainSites⟩, ?_, fun p => exec_drainWaveReturn,
    fun inj ej ua => ⟨fun hwave hinj hej heq hauto => Dev.drainJudge_of_clean hwave hinj hej heq hauto ua,
      fun hwave => ?_⟩, exec_drainGapExpiry, fun p => exec_retireWaveReturn, exec_drainWaveTimeout⟩
  · rw [Dev.drain_drainSend]
    exact ⟨rfl, rfl⟩
  · intro p t rest hsrc _ htodo hmore
    rw [← hsrc] at htodo hmore ⊢
    exact ⟨Dev.drainVisit_of_count htodo hmore, Dev.drainVisit_of_retire htodo hmore⟩
  · exact Dev.drainJudge_of_first hwave inj ej ua

end Sys2Proof.Machine
end

section
/-! PROOF. Circuits (spec/06_fabric.md R248, R249, R252). -/

namespace Sys2Proof.Machine

/-- The sites whose fabric domains a circuit flit needs: its own and those behind the outputs of its entry. -/
def circSites (i e : Nat) : List Nat := i :: ((List.range 4).filter fun o => bitOf e (23 + o)).filterMap (neighbour i)

/-- The state in which a circuit flit without an error has been taken from the net, and its request has its status. -/
def State.circTaken (s : State) (i port : Nat) (x : CircFlight) : State :=
  s.onDev fun d =>
    let d := Dev.countFinds { d with circNet := d.circNet.erase x } i port [FlitFind.good]
    match x.kind with
    | some k => d.reqStatus k 0
    | none => d

theorem circ_awake {d : Dev} {i e : Nat} (h : ∀ t, t ∈ circSites i e → d.rests (domFab (fieldOf t)) = false) :
    (((circSites i e).map fun t => domFab (fieldOf t)).eraseDups.any d.rests) = false := by
  rw [List.any_eq_false]
  intro n hn
  obtain ⟨t, ht, rfl⟩ := List.mem_map.1 (List.mem_eraseDups.1 hn)
  rw [h t ht]
  decide

section
variable {s : State} {site : Site} {port : Fin 7} {slot : Fin 8} {f : CircFlit} {x : CircFlight}
  (htake : s.dev.circTake site.val port.val slot.val f = some x)
include htake

/-- A circuit flit that waits at a gateway changes nothing. -/
theorem exec_circuitFlit_of_gateway (hvalid : bitOf (sget (s.dev.rtr site.val).circ 0 (8 * port.val + slot.val)) 31 = false)
    (hport : port.val = 4) : exec (.circuitFlit site port slot ⟨f, []⟩) s = s.done s := by
  have hwait : (!hasPort site.val port.val || (decide (port.val = 4) &&
      !(bitOf (sget (s.dev.rtr site.val).circ 0 (8 * port.val + slot.val)) 31 &&
        !(s.dev.rtr site.val).deadPorts.contains port.val))) = true := by
    rw [hvalid, decide_eq_true hport, Bool.false_and, Bool.not_false, Bool.and_self, Bool.or_true]
  change execCircuitFlit site port slot ⟨f, []⟩ s = _
  simp only [execCircuitFlit, htake, hwait, if_true]

variable (hhas : hasPort site.val port.val = true) (hclamp : s.dev.hopClamped site.val port.val = false)
  (hawake : ∀ t, t ∈ circSites site.val (sget (s.dev.rtr site.val).circ 0 (8 * port.val + slot.val)) →
    s.dev.rests (domFab (fieldOf t)) = false)
include hhas hclamp hawake

/-- A circuit flit with an entry leaves on every output of it. -/
theorem exec_circuitFlit_of_valid (hvalid : bitOf (sget (s.dev.rtr site.val).circ 0 (8 * port.val + slot.val)) 31 = true)
    (hport : (s.dev.rtr site.val).deadPorts.contains port.val = false) :
    exec (.circuitFlit site port slot ⟨f, []⟩) s = s.done
      (((List.range 7).filter fun o => bitOf (sget (s.dev.rtr site.val).circ 0 (8 * port.val + slot.val)) (23 + o)).foldl
        (fun s o => s.circOut site.val slot.val x o)
        ((s.circTaken site.val port.val x).onDev fun d =>
          d.modRtr site.val fun r => { r with circ := sset r.circ 0 (circAt (8 * port.val + slot.val)) d.now })) := by
  have hwaits := circ_awake hawake
  rw [circSites] at hwaits
  change execCircuitFlit site port slot ⟨f, []⟩ s = _
  simp only [execCircuitFlit, htake, hhas, hvalid, hport, hwaits, hclamp, judgeFlit, List.map_nil, List.isEmpty_nil, FlitFind.good,
    Bool.not_true, Bool.not_false, Bool.and_true, Bool.and_false, Bool.or_self, Bool.false_eq_true, if_false, if_true, State.each]
  rfl

/-- A circuit flit without an entry is unclaimed where the input is no gateway. -/
theorem exec_circuitFlit_of_unclaimed (hvalid : bitOf (sget (s.dev.rtr site.val).circ 0 (8 * port.val + slot.val)) 31 = false)
    (hport : port.val ≠ 4) :
    exec (.circuitFlit site port slot ⟨f, []⟩) s = s.done
      ((s.circTaken site.val port.val x).onDev fun d => d.unclaimed site.val port.val) := by
  have hwaits := circ_awake hawake
  rw [circSites] at hwaits
  change execCircuitFlit site port slot ⟨f, []⟩ s = _
  simp only [execCircuitFlit, htake, hhas, hvalid, hport, hwaits, hclamp, judgeFlit, List.map_nil, List.isEmpty_nil, FlitFind.good,
    decide_false, Bool.not_true, Bool.false_and, Bool.or_self, Bool.false_eq_true, if_false, if_true]
  rfl

end

theorem Dev.circNet_countEv (d : Dev) (u k n : Nat) : (d.countEv u k n).circNet = d.circNet := by
  rw [Dev.countEv]
  split <;> rfl

theorem hasPort_of_neighbour {i o t : Nat} (ho : o < 4) (ht : neighbour i o = some t) : hasPort i o = true := by
  simp only [hasPort, ho, if_true, ht, Option.isSome_some]

/-- A circuit flit on its way to a neighbour is in flight to the far end of the link, in the slot of its arrival. -/
theorem State.circNet_circOut {s : State} {i o t : Nat} (ho : o < 4) (ht : neighbour i o = some t)
    (hdead : (s.dev.rtr i).deadPorts.contains o = false) (hshut : s.dev.hopShut i o = false) (k : Nat) (x : CircFlight) :
    (s.circOut i k x o).dev.circNet =
      s.dev.circNet ++ [⟨t, backPort o, (k + if (hallwayOf i o).isSome then 4 else 2) % 8, none, x.f, none⟩] := by
  have hnot : ¬ 4 ≤ o := by omega
  simp only [State.circOut, hasPort_of_neighbour ho ht, hdead, hshut, hnot, ht, Bool.not_true, Bool.and_false, Bool.false_eq_true,
    if_false, State.onDev, Dev.circNet_countEv, nextSlot]
  rfl

/-- Settles O34, case by case. -/
theorem circuitFlitsFollowTheirEntry : Obligations.CircuitFlitsFollowTheirEntry := by
  unfold Obligations.CircuitFlitsFollowTheirEntry
  intro s site port slot f
  exact ⟨fun x htake hhas hclamp hawake =>
    ⟨fun hvalid hport => State.gives_of_done (exec_circuitFlit_of_valid htake hhas hclamp hawake hvalid hport),
     fun hvalid hport => State.gives_of_done (exec_circuitFlit_of_unclaimed htake hhas hclamp hawake hvalid hport),
     fun hvalid hport => State.gives_of_done (exec_circuitFlit_of_gateway htake hvalid hport)⟩,
    fun x o t ho ht hdead hshut => State.circNet_circOut ho ht hdead hshut slot.val x⟩

end Sys2Proof.Machine
end

section
/-! PROOF. The router unit, the key-value selector and the sampling unit (spec/05_conditional_computation.md R173, R184 to R192, R203 to
R221). -/

namespace Sys2Proof.Machine

/-! The router unit. -/

/-- A request that is next at the router unit of a cluster in service reaches it. -/
theorem exec_routeRequest {s : State} {site : Site} {body : List Byte} (ho : s.dev.siteOut site.val = false)
    (hturn : s.dev.unitTurn site.val 0 body = true) :
    exec (.routeRequest site body) s = .next (s.onDev fun d => d.routeUnit site.val 1 body) := by
  change execRouteRequest site body s = _
  simp only [execRouteRequest, State.upd, State.onDev, ho, hturn, Bool.not_true, Bool.or_self, Bool.false_eq_true, if_false]

theorem exec_predictRequest {s : State} {site : Site} {body : List Byte} (ho : s.dev.siteOut site.val = false)
    (hturn : s.dev.unitTurn site.val 0 body = true) :
    exec (.predictRequest site body) s = .next (s.onDev fun d => d.routeUnit site.val 2 body) := by
  change execPredictRequest site body s = _
  simp only [execPredictRequest, State.upd, State.onDev, ho, hturn, Bool.not_true, Bool.or_self, Bool.false_eq_true, if_false]

/-- The device when the router unit has counted the work of a request that it accepts. -/
def Dev.routeCounted (d : Dev) (i : Nat) (body : List Byte) : Dev :=
  let w := routeWork body
  let e := ((d.takeUnit i 0 body).addSat F.CLU_UNIT_STATUS_RTU_OVERFLOW i w.2.1).addSat F.CLU_UNIT_STATUS_RTU_SHORT i w.2.2.1
  if w.2.2.2 > 0 then (e.addSat F.CLU_UNIT_STATUS_RTU_NAN i w.2.2.2).raise (evU bCLU i) 3 0 0 else e

section
variable {d : Dev} {i : Nat} {body : List Byte} (hen : (d.takeUnit i 0 body).flag F.CLU_UNIT_CTRL_RTU_EN i = true)
  (hn : (byteAt body 2 + 1) * (byteAt body 3 / 8 % 8 + 1) ≤ 1020)
  (hlen : lenIs body (16 + 4 * ((byteAt body 2 + 1) * (byteAt body 3 / 8 % 8 + 1))) = true)
include hen hn hlen

/-- What the router unit does with a request that it accepts. -/
theorem Dev.routeUnit_of_ok {op : Nat} (hop : byteAt body 0 = op) :
    d.routeUnit i op body =
      let e := d.routeCounted i body
      let rcd := (routeWork body).1
      if op = 2 then e.toTrn i rcd
      else
        let e := e.cluSend i (e.fld F.CLU_UNIT_CTRL_RTU_CHAN i) rcd
        if e.flag F.CLU_UNIT_CTRL_TRN_FWD i then e.toTrn i rcd else e := by
  have hle : ¬ 1020 < (byteAt body 2 + 1) * (byteAt body 3 / 8 % 8 + 1) := by omega
  simp only [Dev.routeUnit, hen, hop, gt_iff_lt, hle, hlen, ne_eq, not_true_eq_false, decide_false, Bool.not_true, Bool.or_self,
    Bool.false_eq_true, if_false, Dev.routeCounted]

end

/-! The key-value selector. -/

/-- The reads of a cluster's memory leave its bytes. -/
theorem State.mem_csmRead (s : State) (site a n : Nat) : (s.csmRead site a n).1.mem = s.mem := rfl

theorem State.mem_readSlots (s : State) (site dd : Nat) (at_ : Nat → Nat) (n : Nat) : (s.readSlots site dd at_ n).1.mem = s.mem := by
  rw [State.readSlots]
  have hfold : ∀ (bs : List Nat) (x : State × List (List Byte)), (bs.foldl (fun x b =>
      let r := x.1.csmRead site (at_ b) (32 + 2 * dd + 2 * (dd / 32))
      (r.1, x.2 ++ [r.2.1])) x).1.mem = x.1.mem := by
    intro bs
    induction bs with
    | nil => exact fun x => rfl
    | cons b bs ih => exact fun x => (ih _).trans rfl
  exact hfold _ _

/-- The state in which the selector has taken a request. -/
def State.selTaken (s : State) (i : Nat) (body : List Byte) : State := s.onDev fun d => d.takeUnit i 1 body

section
variable {s : State} {site : Site} {body : List Byte} (ho : s.dev.siteOut site.val = false)
  (hturn : s.dev.unitTurn site.val 1 body = true)
include ho hturn

theorem exec_update (hok : (s.selTaken site.val body).dev.selOk site.val 0x11 body = true) (hblock : leAt body 16 2 ≤ 4095)
    (htok : byteAt body 18 ≤ 127) (hlen : lenIs body (32 + 2 * selD body) = true)
    (hnan : (((List.range (selD body)).map fun j => numOf .b16 (leAt body (32 + 2 * j) 2)).any Num.isNan) = false) :
    let r := (s.selTaken site.val body).csmRead site.val (selSlot body (leAt body 16 2)) (32 + 2 * selD body + 2 * (selD body / 32))
    exec (.update site body) s = s.done (r.1.putCsm site.val (selSlot body (leAt body 16 2))
      (slotUpdate r.2.1 (selD body) (leAt body 16 2) (byteAt body 18) (fun j => (Config.freeWord (r.1.dev.fresh + j)).toNat)
        ((List.range (selD body)).map fun j => numOf .b16 (leAt body (32 + 2 * j) 2)))) := by
  have hb : ¬ 4095 < leAt body 16 2 := by omega
  have ht : ¬ 127 < byteAt body 18 := by omega
  rw [State.selTaken] at hok
  change execUpdate site body s = _
  simp only [execUpdate, ho, hturn, hok, gt_iff_lt, hb, ht, hlen, hnan, decide_false, Bool.not_true, Bool.or_self, Bool.false_eq_true,
    if_false]
  rfl

theorem exec_rollback (hok : (s.selTaken site.val body).dev.selOk site.val 0x12 body = true) (hblock : leAt body 16 2 ≤ 4095)
    (htok : byteAt body 18 ≤ 127) (hlen : lenIs body 32 = true) :
    let a := selSlot body (leAt body 16 2)
    let r := (s.selTaken site.val body).csmRead site.val a 32
    let mask := leAt r.2.1 16 16 % 2 ^ byteAt body 18
    exec (.rollback site body) s =
      s.done ((r.1.putCsm site.val (a + 2) (leBytes 1 (popCount mask 128))).putCsm site.val (a + 16) (leBytes 16 mask)) := by
  have hb : ¬ 4095 < leAt body 16 2 := by omega
  have ht : ¬ 127 < byteAt body 18 := by omega
  rw [State.selTaken] at hok
  change execRollback site body s = _
  simp only [execRollback, ho, hturn, hok, gt_iff_lt, hb, ht, hlen, decide_false, Bool.not_true, Bool.or_self, Bool.false_eq_true,
    if_false]
  rfl

/-- The scores of the blocks that a SELECT request names, from the slots read. -/
def selScores (body : List Byte) (slots : List (List Byte)) : List Int :=
  let qb := (List.range ((byteAt body 1 + 1) * selD body)).map fun j => leAt body (32 + 2 * j) 2
  let qs := (List.range (byteAt body 1 + 1)).map fun h => ((qb.drop (h * selD body)).take (selD body)).map (numOf .b16)
  slots.zipIdx.map fun x => blockScore x.2 (selD body) x.1 qs qb

/-- The blocks that a SELECT request chooses. -/
def selChosen (body : List Byte) (slots : List (List Byte)) : List Nat :=
  selChoose (leAt body 16 2) (byteAt body 18) (byteAt body 19 % 16) (bitOf (byteAt body 19) 7)
    (fun b => byteAt (slots.getD b []) 2 != 0) fun b => (selScores body slots).getD b negInf

theorem exec_select (hok : (s.selTaken site.val body).dev.selOk site.val 0x10 body = true) (hg : byteAt body 1 ≤ 7)
    (hblk : 1 ≤ leAt body 16 2) (hblk' : leAt body 16 2 ≤ 4096) (hsel : 1 ≤ byteAt body 18) (hsel' : byteAt body 18 ≤ 64)
    (hrec : byteAt body 19 % 16 ≤ 8) (hkeep : b2n (bitOf (byteAt body 19) 7) + byteAt body 19 % 16 ≤ byteAt body 18)
    (hlen : lenIs body (32 + 2 * (byteAt body 1 + 1) * selD body) = true) :
    let r := (s.selTaken site.val body).readSlots site.val (selD body) (selSlot body) (leAt body 16 2)
    exec (.select site body) s = s.done (r.1.onDev fun d => d.cluSend site.val (byteAt body 3)
      ([0x13] ++ leBytes 2 (selChosen body r.2).length ++ zeros 5 ++ takeZ 8 (body.drop 8) ++ (selChosen body r.2).flatMap (leBytes 2))) := by
  have h1 : ¬ 8 < byteAt body 1 + 1 := by omega
  have h2 : ¬ leAt body 16 2 = 0 := by omega
  have h3 : ¬ 4096 < leAt body 16 2 := by omega
  have h4 : ¬ byteAt body 18 = 0 := by omega
  have h5 : ¬ 64 < byteAt body 18 := by omega
  have h6 : ¬ 8 < byteAt body 19 % 16 := by omega
  have h7 : ¬ byteAt body 18 < b2n (bitOf (byteAt body 19) 7) + byteAt body 19 % 16 := by omega
  rw [State.selTaken] at hok
  change execSelect site body s = _
  simp only [execSelect, ho, hturn, hok, gt_iff_lt, h1, h2, h3, h4, h5, h6, h7, hlen, decide_false, Bool.not_true, Bool.or_self,
    Bool.false_eq_true, if_false]
  rfl

end

/-- Settles O35, request by request. -/
theorem unitRequestsAreAnswered : Obligations.UnitRequestsAreAnswered := by
  unfold Obligations.UnitRequestsAreAnswered
  intro s site body
  refine fun ho => ⟨fun hturn hen hn hlen hop => ?_, fun hturn hen hn hlen hop => ?_, fun hturn hok hblock htok hlen hnan => ?_,
    fun hturn hok hblock htok hlen => ?_, fun hturn hok hg hblk hblk' hsel hsel' hrec hkeep hlen => ⟨?_, fun a => ?_⟩⟩
  · exact (exec_routeRequest ho hturn).trans (next_onDev_congr (Dev.routeUnit_of_ok hen hn hlen hop))
  · exact (exec_predictRequest ho hturn).trans (next_onDev_congr (Dev.routeUnit_of_ok hen hn hlen hop))
  · exact State.gives_of_done (exec_update ho hturn hok hblock htok hlen hnan)
  · exact State.gives_of_done (exec_rollback ho hturn hok hblock htok hlen)
  · exact State.gives_of_done (exec_select ho hturn hok hg hblk hblk' hsel hsel' hrec hkeep hlen)
  · exact congrArg (fun m => peek m a) (State.mem_readSlots _ _ _ _ _)

end Sys2Proof.Machine
end

section
/-! PROOF. The sampling unit, the threshold and the deferred fall (spec/05_conditional_computation.md R185, R213 to R221;
spec/12_power_control.md R299, R431, R443). -/

namespace Sys2Proof.Machine

/-! The sampling unit. -/

section
variable {s : State} {site : Site} {body : List Byte} (ho : s.dev.siteOut site.val = false)
  (hturn : s.dev.asuTurn site.val body = true)
include ho hturn

theorem exec_draft : exec (.draft site body) s = .next (s.onDev fun d => d.asuRecord site.val 0x20 body) := by
  change execDraft site body s = _
  simp only [execDraft, State.upd, State.onDev, ho, hturn, Bool.not_true, Bool.or_self, Bool.false_eq_true, if_false]

theorem exec_norm : exec (.norm site body) s = .next (s.onDev fun d => d.asuRecord site.val 0x21 body) := by
  change execNorm site body s = _
  simp only [execNorm, State.upd, State.onDev, ho, hturn, Bool.not_true, Bool.or_self, Bool.false_eq_true, if_false]

theorem exec_mass {e : Dev} (he : s.dev.takeUnit site.val 2 body = e) (hok : e.asuOk site.val 0x23 body = true)
    (hact : (e.clu site.val).asu.active = true) (hstep : leAt body 4 4 = (e.clu site.val).asu.step) (hphase : (e.clu site.val).asu.phase = 1)
    (hnew : ((e.clu site.val).asu.masses.any fun r => r.1 == byteAt body 1) = false) :
    exec (.mass site body) s = .next (s.onDev fun _ =>
      if (e.clu site.val).asu.masses.length + 1 = e.fld F.CLU_ASU_CTRL_NSLICE site.val + 1
      then (e.modAsu site.val fun y => { y with masses := y.masses ++ [(byteAt body 1, leAt body 16 4)] }).asuMasses site.val
        (e.fld F.CLU_ASU_CTRL_NSLICE site.val + 1)
      else e.modAsu site.val fun y => { y with masses := y.masses ++ [(byteAt body 1, leAt body 16 4)] }) := by
  change execMass site body s = _
  simp only [execMass, State.upd, State.onDev, ho, hturn, he, hok, hact, hstep, hphase, hnew, ne_eq, not_true_eq_false, decide_false,
    Bool.not_true, Bool.or_self, Bool.false_eq_true, if_false]

theorem exec_token {e : Dev} (he : s.dev.takeUnit site.val 2 body = e) (hok : e.asuOk site.val 0x25 body = true)
    (hact : (e.clu site.val).asu.active = true) (hstep : leAt body 4 4 = (e.clu site.val).asu.step) (hphase : (e.clu site.val).asu.phase = 2)
    (hpick : ((e.clu site.val).asu.masses.all fun r => r.1 != byteAt body 1) = false) :
    exec (.token site body) s = .next (s.onDev fun _ => e.asuEmit site.val (leAt body 16 4)) := by
  change execToken site body s = _
  simp only [execToken, State.upd, State.onDev, ho, hturn, he, hok, hact, hstep, hphase, hpick, ne_eq, not_true_eq_false, decide_false,
    Bool.not_true, Bool.or_self, Bool.false_eq_true, if_false]

end

/-- The step that a record of a new step starts. -/
def freshStep (body : List Byte) : AsuStep :=
  { AsuStep.init with active := true, step := leAt body 4 4, token := leAt body 8 8, p := byteAt body 2 }

/-- A record that starts a step is kept, and the step goes on when all records are in. -/
theorem Dev.asuRecord_of_fresh {d e : Dev} {i op : Nat} {body : List Byte} (he : d.takeUnit i 2 body = e)
    (hidle : (d.clu i).asu.active = false) (hok : e.asuOk i op body = true)
    (hstep : (e.clu i).asuLast ≤ leAt body 4 4) :
    d.asuRecord i op body = (((e.modAsu i fun _ => freshStep body).modAsu i fun y =>
      if op = 0x20 then (if y.draft.isSome then y else { y with draft := some body })
      else if y.norms.any fun r => r.1 == byteAt body 1 then y
      else { y with norms := y.norms ++ [(byteAt body 1, body)] }).asuTry i) := by
  have hnew : ¬ leAt body 4 4 < (e.clu i).asuLast := by omega
  simp only [Dev.asuRecord, hidle, he, hok, hnew, decide_false, Bool.and_false, Bool.false_and, Bool.not_true, Bool.or_self,
    Bool.false_eq_true, if_false, freshStep]

theorem exec_asuTimeout {s : State} {site : Site} (ho : s.dev.siteOut site.val = false) (hact : (s.dev.clu site.val).asu.active = true) :
    exec (.asuTimeout site) s = .next (s.onDev fun d =>
      ((d.asuEnd site.val 0xFF 1 []).addSat F.CLU_ASU_STATUS_TIMEOUTS site.val 1).raise (evU bCLU site.val) 4 1 2) := by
  change execAsuTimeout site s = _
  simp only [execAsuTimeout, State.upd, State.onDev, ho, hact, Bool.not_true, Bool.or_self, Bool.false_eq_true, if_false]

theorem exec_cluAsuState {s : State} {site : Site} (ho : s.dev.siteOut site.val = false) (v : Word) :
    exec (.cluAsuState site v) s = .next (s.onDev fun d => d.setR R.CLU_ASU_STATE site.val (if v = 0 then 0x9E3779B97F4A7C15 else v)) := by
  change execCluAsuState site v s = _
  simp only [execCluAsuState, State.upd, State.onDev, ho, Bool.false_eq_true, if_false, Dev.wrAsuState]

/-! The threshold. -/

/-- A write of THR_MAX stores the two registers of the threshold alone. -/
theorem Dev.getR_wrThrMax {r : Reg} {i w j : Nat} (hctrl : r.key w j ≠ R.CLU_ZSK_CTRL.key i 0)
    (hstat : r.key w j ≠ R.CLU_ZSK_STATUS.key i 0) (d : Dev) (v : Nat) : (d.wrThrMax i v).getR r w j = d.getR r w j := by
  rw [Dev.wrThrMax]
  split
  · exact (Dev.getR_setF_key _ F.CLU_ZSK_STATUS_THR_CUR r _ _ _ _ _ hstat).trans
      (Dev.getR_setF_key _ F.CLU_ZSK_CTRL_THR_MAX r _ _ _ _ _ hctrl)
  · exact Dev.getR_setF_key _ F.CLU_ZSK_CTRL_THR_MAX r _ _ _ _ _ hctrl

/-! The deferred fall. -/

theorem exec_freqFallDeadline (s : State) (site : Site) :
    exec (.freqFallDeadline site) s = .next (s.onDev fun d => d.applyFall site.val) := rfl

/-- The device when a fall has stored the clock and the duty. -/
def Dev.fallShown (d : Dev) (i clk duty : Nat) : Dev :=
  ((d.setF F.CLU_PWR_FREQ i clk).setF F.CLU_PWR_DUTY i duty).setF F.CLU_PWR_DEFERRED i 0

/-- The device when the throttles of a cluster end at the fallen frequency. -/
def Dev.fallThrottled (d : Dev) (i f : Nat) : Dev :=
  { d with pwr := { d.pwr with throttle := d.pwr.throttle.map fun t => (t.1, t.2.map fun y => if y.1 = i then (i, f) else y) } }

/-- The setpoint follows the frequency, and the fall is over. -/
def Dev.fallEnd (d : Dev) (i f duty : Nat) : Dev :=
  let v := min 60 (vFor (d.slowest i) f)
  ((if v < d.fld F.CLU_PWR_VSET i then d.setVset i v else d).modClu i fun y =>
    { y with fallTo := none, steady := y.steady && duty == 8 }).showClk i

theorem Dev.fld_fallThrottled (d : Dev) (i f : Nat) (g : Fld) (u : Nat) : (d.fallThrottled i f).fld g u = d.fld g u := rfl

/-- Whether a throttle holds the clock of a cluster. -/
def Dev.fallHeld (d : Dev) (i : Nat) : Bool := d.pwr.throttle.any fun t => t.2.any fun y => y.1 == i

theorem Dev.applyFall_of_some {d : Dev} {i f duty : Nat} (hfall : (d.clu i).fallTo = some (f, duty)) :
    d.applyFall i = ((d.fallShown i (if d.fallHeld i then min f (d.fld F.CLU_PWR_FREQ i) else f) duty).fallThrottled i f).fallEnd i f duty := by
  simp only [Dev.applyFall, hfall]
  rfl

theorem Dev.fallThrottled_of_nil {d : Dev} (h : d.pwr.throttle = []) (i f : Nat) : d.fallThrottled i f = d := by
  rw [Dev.fallThrottled, h, List.map_nil, ← h]

/-- Without a throttle, the fall stores the clock, the duty and, where the frequency no longer needs it, the setpoint. -/
theorem Dev.applyFall_of_free {d : Dev} {i f duty : Nat} (hfall : (d.clu i).fallTo = some (f, duty)) (hthr : d.pwr.throttle = []) :
    d.applyFall i = (d.fallShown i f duty).fallEnd i f duty := by
  have hheld : ¬ d.fallHeld i = true := by rw [Dev.fallHeld, hthr, List.any_nil]; decide
  rw [Dev.applyFall_of_some hfall, if_neg hheld, Dev.fallThrottled_of_nil (d := d.fallShown i f duty) hthr]

/-- The frequency of a cluster stands when a setpoint is stored. -/
theorem Dev.freq_setVset {i : Nat} (hi : i < 256) (d : Dev) (v : Nat) :
    (d.setVset i v).fld F.CLU_PWR_FREQ i = d.fld F.CLU_PWR_FREQ i := by
  have hldo : ∀ j, j < 16 → R.CLU_PWR.key i 0 ≠ R.FLD_LDO.key (fieldOf i) j := by
    intro j hj
    simp only [Reg.key, R.CLU_PWR, R.FLD_LDO]
    omega
  have hj : localIx i < 16 := by
    simp only [localIx]
    omega
  rw [Dev.setVset, Dev.fld_setF_apart (f := F.CLU_PWR_VSET) (g := F.CLU_PWR_FREQ) rfl (by decide) (by decide),
    Dev.fld_setF_key _ F.FLD_LDO_VOUT F.CLU_PWR_FREQ _ _ _ _ _ (hldo _ hj),
    Dev.fld_setF_key _ F.FLD_LDO_VSET F.CLU_PWR_FREQ _ _ _ _ _ (hldo _ hj)]

/-- A property that each step of a fold over the elements of a list keeps. -/
theorem Dev.each_keeps_mem {α β : Type} (xs : List α) (f : Dev → α → Dev) (p : Dev → β) (h : ∀ x ∈ xs, ∀ d : Dev, p (f d x) = p d)
    (d : Dev) : p (d.each xs f) = p d := by
  induction xs generalizing d with
  | nil => rfl
  | cons x xs ih =>
    exact (ih (fun y hy => h y (List.mem_cons_of_mem _ hy)) (f d x)).trans (h x List.mem_cons_self d)

theorem lt_of_mem_activeCores {d : Dev} {i u : Nat} (hi : i < 256) (hu : u ∈ d.activeCores i) : u < 65536 := by
  obtain ⟨c, hc, hcu⟩ := List.mem_filterMap.1 hu
  have hlt := List.mem_range.1 hc
  simp only [Option.ite_none_left_eq_some, Option.some.injEq] at hcu
  rw [← hcu.2, cu]
  omega

/-- A field is stored where it changes. -/
def Dev.setNew (d : Dev) (f : Fld) (u v : Nat) : Dev := if d.fld f u = v then d else d.setF f u v

theorem Dev.setNew_keeps {α : Type} (p : Dev → α) (d : Dev) {f : Fld} {u v : Nat} (h : p (d.setF f u v) = p d) :
    p (d.setNew f u v) = p d := by
  rw [Dev.setNew]
  split
  · rfl
  · exact h

/-- The greatest clock code of a core at a setpoint. -/
def Dev.coreTop (d : Dev) (u v : Nat) : Nat := if d.coreLim u v < 0 then 0 else (d.coreLim u v).toNat

theorem Dev.showClk_eq (d : Dev) (i : Nat) : d.showClk i = d.each (d.activeCores i) fun e u =>
    (e.setNew F.COR_FMAX_EFFECTIVE u (e.coreTop u (d.fld F.CLU_PWR_VSET i))).setNew F.COR_CLK_CODE u
      (min (d.fld F.CLU_PWR_FREQ i) (e.coreTop u (d.fld F.CLU_PWR_VSET i))) := rfl

/-- Showing the clocks of a cluster's cores stores the cores' own words alone. -/
theorem Dev.freq_showClk {i : Nat} (hi : i < 256) (d : Dev) : (d.showClk i).fld F.CLU_PWR_FREQ i = d.fld F.CLU_PWR_FREQ i := by
  have hcore : ∀ {u : Nat} {f : Fld}, u < 65536 → f.reg.code < 50 → ∀ (e : Dev) (v : Nat),
      (e.setF f u v).fld F.CLU_PWR_FREQ i = e.fld F.CLU_PWR_FREQ i := by
    intro u f hu hf e v
    refine Dev.fld_setF_key e f F.CLU_PWR_FREQ _ _ _ _ _ ?_
    simp only [Reg.key, R.CLU_PWR]
    omega
  rw [Dev.showClk_eq]
  refine Dev.each_keeps_mem _ _ (fun e => e.fld F.CLU_PWR_FREQ i) (fun u hu e => ?_) d
  have hlt := lt_of_mem_activeCores hi hu
  exact (Dev.setNew_keeps (fun e => e.fld F.CLU_PWR_FREQ i) _ (hcore (f := F.COR_CLK_CODE) hlt (by decide) _ _)).trans
    (Dev.setNew_keeps (fun e => e.fld F.CLU_PWR_FREQ i) _ (hcore (f := F.COR_FMAX_EFFECTIVE) hlt (by decide) _ _))

theorem Dev.clu_showClk (d : Dev) (i j : Nat) : (d.showClk i).clu j = d.clu j := by
  rw [Dev.showClk_eq]
  exact Dev.each_keeps _ _ _ (fun e => e.clu j) fun e u =>
    (Dev.setNew_keeps (fun e => e.clu j) _ rfl).trans (Dev.setNew_keeps (fun e => e.clu j) _ rfl)

/-- The end of a fall leaves the clock of its cluster, and no fall waits. -/
theorem Dev.freq_fallEnd {i : Nat} (hi : i < 256) (d : Dev) (f duty : Nat) :
    (d.fallEnd i f duty).fld F.CLU_PWR_FREQ i = d.fld F.CLU_PWR_FREQ i := by
  rw [Dev.fallEnd, Dev.freq_showClk hi]
  change (ite _ _ _ : Dev).fld F.CLU_PWR_FREQ i = _
  split
  · exact Dev.freq_setVset hi d _
  · rfl

theorem Dev.fallTo_fallEnd (d : Dev) (i f duty : Nat) : ((d.fallEnd i f duty).clu i).fallTo = none := by
  rw [Dev.fallEnd, Dev.clu_showClk, Dev.clu_modClu_self]

/-- Under a throttle, the clock stays at the lower of the two. -/
theorem Dev.freq_applyFall_of_held {d : Dev} {i f duty : Nat} (hi : i < 256) (hfall : (d.clu i).fallTo = some (f, duty))
    (hheld : d.fallHeld i = true) : (d.applyFall i).fld F.CLU_PWR_FREQ i = min f (d.fld F.CLU_PWR_FREQ i) := by
  have hlt : min f (d.fld F.CLU_PWR_FREQ i) < 2 ^ F.CLU_PWR_FREQ.width :=
    Nat.lt_of_le_of_lt (Nat.min_le_right _ _) (Dev.fld_lt ..)
  rw [Dev.applyFall_of_some hfall, if_pos hheld, Dev.freq_fallEnd hi, Dev.fld_fallThrottled, Dev.fallShown,
    Dev.fld_setF_apart (f := F.CLU_PWR_DEFERRED) (g := F.CLU_PWR_FREQ) rfl (by decide) (by decide),
    Dev.fld_setF_apart (f := F.CLU_PWR_DUTY) (g := F.CLU_PWR_FREQ) rfl (by decide) (by decide),
    Dev.fld_setF_self_of_lt (f := F.CLU_PWR_FREQ) (by decide) hlt]

theorem Dev.fallTo_applyFall {d : Dev} {i f duty : Nat} (hfall : (d.clu i).fallTo = some (f, duty)) :
    ((d.applyFall i).clu i).fallTo = none := by
  rw [Dev.applyFall_of_some hfall, Dev.fallTo_fallEnd]

/-- Settles O38, record by record. -/
theorem samplingAndThresholdCommands : Obligations.SamplingAndThresholdCommands := by
  unfold Obligations.SamplingAndThresholdCommands
  intro s site body
  refine fun ho => ⟨fun op hturn hidle _ hok hact hstep => ⟨fun hop => ?_, fun hop => ?_⟩,
    fun hturn hok hact hstep hphase hnew => exec_mass ho hturn rfl hok hact hstep hphase hnew,
    fun hturn hok hact hstep hphase hpick => exec_token ho hturn rfl hok hact hstep hphase hpick,
    exec_asuTimeout ho, exec_cluAsuState ho, fun v => ?_, fun f duty hfall => ⟨fun hthr => ?_, fun hheld => ?_⟩⟩
  · subst hop
    exact (exec_draft ho hturn).trans (next_onDev_congr (Dev.asuRecord_of_fresh rfl hidle hok hstep))
  · subst hop
    exact (exec_norm ho hturn).trans (next_onDev_congr (Dev.asuRecord_of_fresh rfl hidle hok hstep))
  · exact ⟨_, exec_thrMax ho v, ⟨rfl, rfl, rfl, rfl⟩, Dev.thrMax_wrThrMax v.isLt .., Dev.thrCur_wrThrMax v.isLt ..,
      fun r w j hctrl hstat => Dev.getR_wrThrMax hctrl hstat ..⟩
  · exact (exec_freqFallDeadline s site).trans (next_onDev_congr (Dev.applyFall_of_free hfall hthr))
  · exact ⟨_, exec_freqFallDeadline s site, ⟨rfl, rfl, rfl, rfl⟩, Dev.fallTo_applyFall hfall, Dev.freq_applyFall_of_held site.isLt hfall hheld⟩

end Sys2Proof.Machine
end

section
/-! PROOF. Transom (spec/05_conditional_computation.md R173, R195 to R201, R211). -/

namespace Sys2Proof.Machine

/-! What Transom's acts leave of its routed layers and of HIT. -/

/-- The routed layers that Transom remembers, and HIT. -/
def Dev.trnView (d : Dev) : List ((Nat × Nat) × List Nat) × List (Nat × Nat) × Nat :=
  (d.trn.live, d.trn.routes, d.fld F.TRN_COUNT0_HIT 0)

theorem Dev.trnView_modTrn {f : TrnS → TrnS} {d : Dev} (hlive : (f d.trn).live = d.trn.live) (hroutes : (f d.trn).routes = d.trn.routes) :
    (d.modTrn f).trnView = d.trnView := by
  change ((f d.trn).live, (f d.trn).routes, d.fld F.TRN_COUNT0_HIT 0) = _
  rw [hlive, hroutes]
  rfl

/-- The registers behind TRN_COUNT0 in the map have keys behind its key. -/
theorem Dev.trnView_setR {r : Reg} (hr : 65 < r.code) (d : Dev) (u : Nat) (w : Word) (i : Nat) : (d.setR r u w i).trnView = d.trnView := by
  have hkey : R.TRN_COUNT0.key 0 0 ≠ r.key u i := by
    simp only [Reg.key, R.TRN_COUNT0]
    omega
  rw [Dev.trnView, Dev.fld, Dev.getR_setR_key _ _ _ _ _ _ _ _ hkey]
  rfl

theorem Dev.trnView_setF {f : Fld} (hf : 65 < f.reg.code) (d : Dev) (u v i : Nat) : (d.setF f u v i).trnView = d.trnView :=
  Dev.trnView_setR hf d u _ i

theorem Dev.trnView_status {f : Fld} (hf : f.reg = R.TRN_STATUS) (d : Dev) (v : Nat) : (d.setF f 0 v).trnView = d.trnView := by
  have hcode : F.TRN_COUNT0_HIT.reg.code ≠ f.reg.code := by rw [hf]; decide
  rw [Dev.trnView, Dev.fld_setF_other hcode]
  rfl

theorem Dev.trnView_trnShow (d : Dev) : d.trnShow.trnView = d.trnView :=
  (Dev.trnView_status (f := F.TRN_STATUS_FREE) rfl _ _).trans (Dev.trnView_status (f := F.TRN_STATUS_PINNED) rfl _ _)

theorem Dev.trnView_setDom (d : Dev) (n : Nat) (f : DomS → DomS) : (d.setDom n f).trnView = d.trnView :=
  (Dev.trnView_setR (r := R.PCH_DOM_STATE) (by decide) _ _ _ _).trans rfl

theorem Dev.trnView_demand (d : Dev) (n : Nat) (src : Bool) : (d.demand n src).trnView = d.trnView := by
  rw [Dev.demand]
  split
  · rfl
  · split
    · exact Dev.trnView_setDom ..
    · split
      · rfl
      · split
        · exact Dev.trnView_setDom ..
        · exact Dev.trnView_setDom ..

theorem Dev.trnView_preWake (d : Dev) (site : Nat) : (d.preWake site).trnView = d.trnView := by
  rw [Dev.preWake]
  split
  · rfl
  · exact (Dev.trnView_setDom ..).trans (Dev.trnView_demand ..)

theorem Dev.trnView_missWake (d : Dev) (site : Nat) : (d.missWake site).trnView = d.trnView := by
  rw [Dev.missWake]
  split
  · rfl
  · exact (Dev.trnView_setDom ..).trans (Dev.trnView_demand ..)

theorem Dev.trnView_wakeFor (d : Dev) (pre : Bool) (site : Nat) : (d.wakeFor pre site).trnView = d.trnView := by
  rw [Dev.wakeFor]
  split
  · exact Dev.trnView_preWake ..
  · exact Dev.trnView_missWake ..

theorem Dev.trnView_wakes (d : Dev) (pre : Bool) (sites : List Nat) : (d.each sites fun d s => d.wakeFor pre s).trnView = d.trnView :=
  Dev.each_keeps d _ _ Dev.trnView fun d s => Dev.trnView_wakeFor d pre s

theorem Dev.trnView_putExp (d : Dev) (ix e : Nat) : (d.putExp ix e).trnView = d.trnView := Dev.trnView_modTrn rfl rfl

/-- A slot gives up the expert that it holds. -/
def Dev.slotEmptied (d : Dev) (slot : Nat) : Dev :=
  let old := sget d.trn.slots 0 slot
  if old = 0 then d else d.putExp (old - 1) (putBits (d.trnExp (old - 1)) 30 2 3)

/-- A slot is given to an expert. -/
def Dev.slotFilled (d : Dev) (ix slot : Nat) : Dev :=
  (d.putExp ix (putBits (putBits (d.trnExp ix) 30 2 2) 24 6 slot)).modTrn fun t =>
    { t with slots := sset t.slots 0 slot (ix + 1), strm := sset t.strm 0 slot 16 }

/-- A stream into a slot is asked of every stack. -/
def Dev.slotAsked (d : Dev) (ix slot : Nat) : Dev :=
  d.each (List.range 16) fun e h => e.modHbm h fun x => { x with asked := x.asked ++ [⟨bitsOf (d.trnExp ix) 0 14, slot⟩] }

theorem Dev.trnPlace_eq (d : Dev) (pre : Bool) (ix slot : Nat) :
    d.trnPlace pre ix slot = (((d.slotEmptied slot).slotFilled ix slot).slotAsked ix slot).each guestSites fun d s => d.wakeFor pre s := rfl

theorem Dev.trnView_slotEmptied (d : Dev) (slot : Nat) : (d.slotEmptied slot).trnView = d.trnView := by
  rw [Dev.slotEmptied]
  split
  · rfl
  · exact Dev.trnView_putExp ..

theorem Dev.trnView_slotFilled (d : Dev) (ix slot : Nat) : (d.slotFilled ix slot).trnView = d.trnView :=
  (Dev.trnView_modTrn rfl rfl).trans (Dev.trnView_putExp ..)

theorem Dev.trnView_slotAsked (d : Dev) (ix slot : Nat) : (d.slotAsked ix slot).trnView = d.trnView :=
  Dev.each_keeps d _ _ Dev.trnView fun _ _ => rfl

theorem Dev.trnView_trnPlace (d : Dev) (pre : Bool) (ix slot : Nat) : (d.trnPlace pre ix slot).trnView = d.trnView := by
  rw [Dev.trnPlace_eq, Dev.trnView_wakes, Dev.trnView_slotAsked, Dev.trnView_slotFilled, Dev.trnView_slotEmptied]

theorem Dev.trnView_stall {f : Fld} (hf : f.reg = R.TRN_STALL) (d : Dev) (n : Nat) : (d.addSat f 0 n).trnView = d.trnView :=
  Dev.trnView_setF (by rw [hf]; decide) ..

theorem Dev.trnView_trnDrain (d : Dev) (n : Nat) : (d.trnDrain n).trnView = d.trnView := by
  induction n generalizing d with
  | zero => exact Dev.trnView_trnShow d
  | succ n ih =>
    rw [Dev.trnDrain]
    split
    · rw [ih]
      exact (Dev.trnView_stall (f := F.TRN_STALL_SLOT_WAIT) rfl _ _).trans
        ((Dev.trnView_trnPlace ..).trans (Dev.trnView_modTrn rfl rfl))
    · exact Dev.trnView_trnShow d

theorem Dev.trnView_trnAct (d : Dev) (pre : Bool) (ix : Nat) : (d.trnAct pre ix).trnView = d.trnView := by
  rw [Dev.trnAct]
  split
  · exact Dev.trnView_wakes ..
  · exact Dev.trnView_wakes ..
  · split
    · split
      · split
        · exact Dev.trnView_trnPlace ..
        · rfl
      · rfl
    · split
      · rfl
      · split
        · exact Dev.trnView_trnPlace ..
        · exact Dev.trnView_modTrn rfl rfl
  · rfl

theorem Dev.trnView_missStall (d : Dev) (ix : Nat) : (d.missStall ix).trnView = d.trnView :=
  (Dev.trnView_stall (f := F.TRN_STALL_MISS_STALL) rfl _ _).trans rfl

theorem Dev.trnView_trnTidy (d : Dev) : d.trnTidy.trnView = d.trnView := Dev.trnView_modTrn rfl rfl

/-! A ROUTE record (R199 to R201). -/

/-- The experts of a record that its prediction met. -/
def Dev.routeHits (d : Dev) (seen : Option (List Nat)) (es : List Nat) : List Nat :=
  es.filter fun ix => (seen.getD []).contains ix && expKind (d.trnExp ix) ≠ 0

/-- The experts of a record that no prediction met. -/
def Dev.routeMisses (d : Dev) (seen : Option (List Nat)) (es : List Nat) : List Nat :=
  es.filter fun ix => !(d.routeHits seen es).contains ix

/-- The counts of a record whose prediction has come. -/
def Dev.routeScored (d : Dev) (seen : Option (List Nat)) (es : List Nat) : Dev :=
  if seen.isSome then
    (d.addWrap F.TRN_COUNT0_HIT 0 (d.routeHits seen es).length).addWrap F.TRN_COUNT1_MISS 0 (d.routeMisses seen es).length
  else d

/-- The prediction of a record is routed. -/
def Dev.routePaired (d : Dev) (pred : Option TrnPred) (es : List Nat) : Dev :=
  match pred with
  | none => d
  | some p =>
    (d.addSat F.TRN_COUNT1_UNUSED 0 (p.holds.filter fun ix => !es.contains ix).length).modTrn fun t =>
      { t with preds := t.preds.map fun q => if q = p then { q with routed := true } else q }

/-- The record is remembered with its experts. -/
def Dev.routeLogged (d : Dev) (layer token : Nat) (es : List Nat) : Dev :=
  (d.trnComplete layer token).modTrn fun t =>
    { t with
        routes := t.routes ++ [(layer, token)], live := t.live ++ [((layer, token), es)], stamp := t.stamp + 1,
        used := es.foldl (fun u ix => sset u 0 ix (t.stamp + 1)) t.used }

/-- The wait on an expert that was missed counts. -/
def Dev.routeStalled (d : Dev) (missed : List Nat) (ix : Nat) : Dev := if missed.contains ix then d.missStall ix else d

/-- Transom acts on an expert that was missed, or whose stream is not in a slot. -/
def Dev.routeAct (d : Dev) (missed : List Nat) (ix : Nat) : Dev :=
  if missed.contains ix || expKind (d.trnExp ix) = 3 then d.trnAct false ix else d

/-- Transom acts on the experts of a record. -/
def Dev.routeActed (d : Dev) (es missed : List Nat) : Dev :=
  let d := d.each es fun d ix => (d.routeStalled missed ix).routeAct missed ix
  d.trnTidy.trnDrain d.trn.waits.length

/-- What Transom does with a ROUTE record. -/
def Dev.routeRecorded (d : Dev) (layer token : Nat) (es : List Nat) : Dev :=
  (((d.routeScored (d.trnSeen layer token) es).routePaired (d.trn.preds.find? fun p => predIs layer token p && !p.routed) es).routeLogged
    layer token es).routeActed es (d.routeMisses (d.trnSeen layer token) es)

theorem Dev.trnView_routeStalled (d : Dev) (missed : List Nat) (ix : Nat) : (d.routeStalled missed ix).trnView = d.trnView := by
  rw [Dev.routeStalled]
  split
  · exact Dev.trnView_missStall ..
  · rfl

theorem Dev.trnView_routeAct (d : Dev) (missed : List Nat) (ix : Nat) : (d.routeAct missed ix).trnView = d.trnView := by
  rw [Dev.routeAct]
  split
  · exact Dev.trnView_trnAct ..
  · rfl

theorem Dev.trnView_routeActed (d : Dev) (es missed : List Nat) : (d.routeActed es missed).trnView = d.trnView := by
  rw [Dev.routeActed]
  exact (Dev.trnView_trnDrain ..).trans ((Dev.trnView_trnTidy _).trans (Dev.each_keeps d _ _ Dev.trnView fun e ix =>
    (Dev.trnView_routeAct ..).trans (Dev.trnView_routeStalled ..)))

theorem Dev.hit_routeLogged (d : Dev) (layer token : Nat) (es : List Nat) :
    (d.routeLogged layer token es).fld F.TRN_COUNT0_HIT 0 = d.fld F.TRN_COUNT0_HIT 0 := rfl

theorem Dev.hit_routePaired (d : Dev) (pred : Option TrnPred) (es : List Nat) :
    (d.routePaired pred es).fld F.TRN_COUNT0_HIT 0 = d.fld F.TRN_COUNT0_HIT 0 := by
  cases pred with
  | none => rfl
  | some p => exact Dev.fld_setF_other (f := F.TRN_COUNT1_UNUSED) (g := F.TRN_COUNT0_HIT) (by decide) d 0 _ 0

theorem Dev.hit_routeScored (d : Dev) (known es : List Nat) :
    (d.routeScored (some known) es).fld F.TRN_COUNT0_HIT 0 =
      (d.fld F.TRN_COUNT0_HIT 0 + (d.routeHits (some known) es).length) % 2 ^ F.TRN_COUNT0_HIT.width := by
  rw [Dev.routeScored, if_pos (Option.isSome_some), Dev.addWrap,
    Dev.fld_setF_other (f := F.TRN_COUNT1_MISS) (g := F.TRN_COUNT0_HIT) (by decide), Dev.addWrap,
    Dev.fld_setF_self (f := F.TRN_COUNT0_HIT) (by decide)]

theorem Dev.routeHits_some (d : Dev) (known es : List Nat) :
    d.routeHits (some known) es = es.filter fun ix => known.contains ix && expKind (d.trnExp ix) != 0 := by
  refine congrArg (fun g => es.filter g) (funext fun ix => Bool.eq_iff_iff.2 ?_)
  simp

theorem Dev.trnView_routeRecorded (d : Dev) (layer token : Nat) (es : List Nat) :
    ((layer, token), es) ∈ (d.routeRecorded layer token es).trn.live ∧ (layer, token) ∈ (d.routeRecorded layer token es).trn.routes ∧
      (d.routeRecorded layer token es).fld F.TRN_COUNT0_HIT 0 = (d.routeScored (d.trnSeen layer token) es).fld F.TRN_COUNT0_HIT 0 := by
  have hview := Dev.trnView_routeActed (((d.routeScored (d.trnSeen layer token) es).routePaired
    (d.trn.preds.find? fun p => predIs layer token p && !p.routed) es).routeLogged layer token es) es
    (d.routeMisses (d.trnSeen layer token) es)
  simp only [Dev.trnView, Prod.mk.injEq] at hview
  obtain ⟨hlive, hroutes, hhit⟩ := hview
  rw [Dev.routeRecorded, hlive, hroutes, hhit, Dev.hit_routeLogged, Dev.hit_routePaired]
  exact ⟨List.mem_append_right _ List.mem_cons_self, List.mem_append_right _ List.mem_cons_self, rfl⟩

/-! The commands of Transom. -/

section
variable {s : State} {body : List Byte} (hturn : s.dev.unitTurn 251 3 body = true)
  (hen : (s.dev.takeUnit 251 3 body).flag F.TRN_CTRL_EN 0 = true)
include hturn hen

theorem exec_routeRecord : exec (.routeRecord body) s = .next (s.onDev fun _ =>
    ((s.dev.takeUnit 251 3 body).trnExperts body).1.routeRecorded (byteAt body 1) (leAt body 8 8)
      ((s.dev.takeUnit 251 3 body).trnExperts body).2) := by
  change execRouteRecord body s = _
  simp only [execRouteRecord, State.upd, State.onDev, hturn, hen, Bool.not_true, Bool.false_eq_true, if_false]
  rfl

theorem exec_predictRecord_of_late
    (h : ((s.dev.takeUnit 251 3 body).trn.routes.contains (byteAt body 1, leAt body 8 8) ||
      ((s.dev.takeUnit 251 3 body).trnSeen (byteAt body 1) (leAt body 8 8)).isSome) = true) :
    exec (.predictRecord body) s = .next (s.onDev fun _ => (s.dev.takeUnit 251 3 body).addSat F.TRN_COUNT1_LATE 0 1) := by
  change execPredictRecord body s = _
  simp only [execPredictRecord, State.upd, State.onDev, hturn, hen, h, Bool.not_true, Bool.false_eq_true, if_false, if_true]

theorem exec_skipRecord_of_some {p : TrnPred} (hdir : bitsOf (sget (s.dev.takeUnit 251 3 body).trn.dir 0 (byteAt body 1)) 0 9 ≠ 0)
    (hp : ((s.dev.takeUnit 251 3 body).trn.preds.find? fun p => predIs (byteAt body 1) (leAt body 8 8) p && !p.routed) = some p) :
    exec (.skipRecord body) s = .next (s.onDev fun _ =>
      let f := ((s.dev.takeUnit 251 3 body).addSat F.TRN_COUNT1_UNUSED 0 p.holds.length).modTrn fun t => { t with preds := t.preds.erase p }
      ((f.trnComplete (byteAt body 1) (leAt body 8 8)).trnTidy).trnDrain f.trn.waits.length) := by
  change execSkipRecord body s = _
  simp only [execSkipRecord, State.upd, State.onDev, hturn, hen, hdir, hp, Bool.not_true, Bool.false_eq_true, if_false]

/-- The device when a prediction has been counted and is kept. -/
def Dev.predKept (d : Dev) (layer token : Nat) (es : List Nat) : Dev :=
  (d.addWrap F.TRN_COUNT0_PRED 0 es.length).modTrn fun t =>
    { t with preds := t.preds ++ [⟨layer, token, es, es, false, [], d.now⟩], seen := t.seen ++ [((layer, token), es)] }

/-- The device when Transom has acted on the experts of a prediction, and keeps those whose clusters it wakes. -/
def Dev.predActed (d : Dev) (layer token : Nat) (es : List Nat) : Dev :=
  let g := es.foldl (fun d ix => d.trnAct true ix) d
  let woken := es.filter fun ix => expKind (g.trnExp ix) == 1 || expKind (g.trnExp ix) == 2
  (g.modTrn fun t => { t with preds := t.preds.map fun p => if predIs layer token p then { p with woken := woken } else p }).trnShow

theorem exec_predictRecord_of_new
    (hroutes : (s.dev.takeUnit 251 3 body).trn.routes.contains (byteAt body 1, leAt body 8 8) = false)
    (hseen : (s.dev.takeUnit 251 3 body).trnSeen (byteAt body 1) (leAt body 8 8) = none) :
    exec (.predictRecord body) s = .next (s.onDev fun _ =>
      let r := (s.dev.takeUnit 251 3 body).trnExperts body
      (r.1.predKept (byteAt body 1) (leAt body 8 8) r.2).predActed (byteAt body 1) (leAt body 8 8) r.2) := by
  change execPredictRecord body s = _
  simp only [execPredictRecord, State.upd, State.onDev, hturn, hen, hroutes, hseen, Option.isSome_none, Bool.or_self, Bool.not_true,
    Bool.false_eq_true, if_false]
  rfl

end

/-! Holds, waits and tables. -/

/-- The index of an expert of a layer in the expert table. -/
def Dev.trnIx (d : Dev) (layer expert : Nat) : Nat := (bitsOf (sget d.trn.dir 0 layer) 16 14 + expert) % 16384

section
variable {s : State} {layer : BitVec 8} {token : BitVec 64} {expert : BitVec 8} {p : TrnPred}
  (hp : (s.dev.trn.preds.find? fun p => predIs layer.toNat token.toNat p && p.holds.contains (s.dev.trnIx layer.toNat expert.toNat)) = some p)
include hp

theorem exec_trnHoldExpiry_of_over (hover : s.dev.holdOver p (s.dev.trnIx layer.toNat expert.toNat) = true) (hrouted : p.routed = false) :
    exec (.trnHoldExpiry layer token expert) s = .next (s.onDev fun d =>
      let f := (d.addSat F.TRN_COUNT1_UNUSED 0 1).modTrn fun t =>
        { t with preds := t.preds.map fun q => if q = p then { q with holds := q.holds.erase (s.dev.trnIx layer.toNat expert.toNat) } else q }
      f.trnTidy.trnDrain f.trn.waits.length) := by
  rw [Dev.trnIx] at hp hover
  change execTrnHoldExpiry layer token expert s = _
  simp only [execTrnHoldExpiry, State.upd, State.onDev, hp, hover, hrouted, Bool.not_true, Bool.false_eq_true, if_false, Dev.trnIx]

theorem exec_trnHoldExpiry_of_running (hover : s.dev.holdOver p (s.dev.trnIx layer.toNat expert.toNat) = false) :
    exec (.trnHoldExpiry layer token expert) s = .next s := by
  rw [Dev.trnIx] at hp hover
  change execTrnHoldExpiry layer token expert s = _
  simp only [execTrnHoldExpiry, State.upd, hp, hover, Bool.not_false, if_true]

end

theorem Dev.trnDrain_one {d : Dev} {ix t0 k : Nat} {w : List (Nat × Nat)} (hw : d.trn.waits = (ix, t0) :: w) (hk : d.trnSlot = some k) :
    d.trnDrain 1 = (((d.modTrn fun t => { t with waits := w }).trnPlace false ix k).addSat F.TRN_STALL_SLOT_WAIT 0 (d.now - t0)).trnShow := by
  rw [Dev.trnDrain]
  simp only [hw, hk]
  rfl

theorem exec_slotWaitEnd {s : State} {ix : Fin 16384} {t0 : Nat} {w : List (Nat × Nat)} (hw : s.dev.trn.waits = (ix.val, t0) :: w) :
    exec (.slotWaitEnd ix) s = .next (s.onDev fun d => d.trnDrain 1) := by
  change execSlotWaitEnd ix s = _
  simp only [execSlotWaitEnd, State.upd, State.onDev, hw, List.head?_cons, Option.map_some, BEq.rfl, if_true]

theorem exec_trnSlotWait {s : State} (hw : s.dev.trn.waits ≠ []) :
    exec .trnSlotWait s = .next (s.onDev fun d => d.raise (evU bTRN 0) 2 0 0) := by
  have hsome : s.dev.trn.waits.isEmpty = false := by simpa using hw
  change execTrnSlotWait s = _
  simp only [execTrnSlotWait, State.upd, State.onDev, hsome, Bool.false_eq_true, if_false]

theorem exec_trnTblData {s : State} (hen : s.dev.flag F.TRN_CTRL_EN 0 = false) (v : BitVec 32) :
    exec (.trnTblData v) s = .next (s.onDev fun d =>
      d.putTrn (d.fld F.TRN_TBL_SEL_TABLE 0) (d.fld F.TRN_TBL_SEL_INDEX 0) v.toNat) := by
  change execTrnTblData v s = _
  simp only [execTrnTblData, State.upd, State.onDev, Dev.wrTrnTbl, hen, Bool.false_eq_true, if_false]

/-- Settles O41, command by command. -/
theorem transomCommandsTakeEffect : Obligations.TransomCommandsTakeEffect := by
  unfold Obligations.TransomCommandsTakeEffect
  intro s body
  refine ⟨fun hturn hen => ⟨exec_predictRecord_of_new hturn hen, exec_predictRecord_of_late hturn hen, ?_,
      fun p hdir hp => exec_skipRecord_of_some hturn hen hdir hp⟩,
    fun l tk x p hp => ⟨exec_trnHoldExpiry_of_over hp, exec_trnHoldExpiry_of_running hp⟩,
    fun ix t0 w k hw hk => (exec_slotWaitEnd hw).trans (next_onDev_congr (Dev.trnDrain_one hw hk)), exec_trnSlotWait,
    fun v hen => exec_trnTblData hen v⟩
  refine ⟨_, exec_routeRecord hturn hen, ⟨rfl, rfl, rfl, rfl⟩, ?_⟩
  obtain ⟨hlive, hroutes, hhit⟩ := Dev.trnView_routeRecorded ((s.dev.takeUnit 251 3 body).trnExperts body).1 (byteAt body 1)
    (leAt body 8 8) ((s.dev.takeUnit 251 3 body).trnExperts body).2
  refine ⟨hlive, hroutes, fun es hes => hhit.trans ?_⟩
  rw [hes, Dev.hit_routeScored, Dev.routeHits_some]

end Sys2Proof.Machine
end

section
/-! PROOF. HBM streams and staging buffers (spec/08_memory_tiers.md R318 to R323). -/

namespace Sys2Proof.Machine

/-! Requests. -/

section
variable {s : State} {h : Fin 16} {desc : BitVec 14} {slot : BitVec 6}

theorem exec_streamRequest_of_unasked (hasked : (s.dev.hbm h.val).asked.contains ⟨desc.toNat, slot.toNat⟩ = false) :
    exec (.streamRequest h desc slot) s = .next s := by
  change execStreamRequest h desc slot s = _
  simp only [execStreamRequest, State.upd, hasked, Bool.not_false, if_true]

variable (hasked : (s.dev.hbm h.val).asked.contains ⟨desc.toNat, slot.toNat⟩ = true) (hawake : s.dev.rests (domHbm h.val) = false)
include hasked hawake

theorem exec_streamRequest_of_enabled (hen : s.dev.flag F.HBM_CTRL_STRM_EN h.val = true) (hroom : (s.dev.hbm h.val).queue.length < 64) :
    exec (.streamRequest h desc slot) s = .next (s.onDev fun d =>
      ((d.modHbm h.val fun x => { x with asked := x.asked.erase ⟨desc.toNat, slot.toNat⟩ }).modHbm h.val fun x =>
        { x with queue := x.queue ++ [⟨desc.toNat, slot.toNat⟩] }).hbmLook h.val) := by
  have hle : ¬ 64 ≤ (s.dev.hbm h.val).queue.length := by omega
  have hen' : (s.dev.modHbm h.val fun x => { x with asked := x.asked.erase ⟨desc.toNat, slot.toNat⟩ }).flag F.HBM_CTRL_STRM_EN h.val = true :=
    hen
  change execStreamRequest h desc slot s = _
  simp only [execStreamRequest, State.upd, State.onDev, hasked, hawake, hen, hen', ge_iff_le, hle, decide_false, Bool.and_false,
    Bool.not_true, Bool.false_eq_true, if_false]

theorem exec_streamRequest_of_disabled (hen : s.dev.flag F.HBM_CTRL_STRM_EN h.val = false) :
    exec (.streamRequest h desc slot) s = .next (s.onDev fun d =>
      (d.modHbm h.val fun x => { x with asked := x.asked.erase ⟨desc.toNat, slot.toNat⟩ }).streamFail h.val ⟨desc.toNat, slot.toNat⟩
        ((d.modHbm h.val fun x => { x with asked := x.asked.erase ⟨desc.toNat, slot.toNat⟩ }).failFaces h.val)) := by
  have hen' : (s.dev.modHbm h.val fun x => { x with asked := x.asked.erase ⟨desc.toNat, slot.toNat⟩ }).flag F.HBM_CTRL_STRM_EN h.val = false :=
    hen
  change execStreamRequest h desc slot s = _
  simp only [execStreamRequest, State.upd, State.onDev, hasked, hawake, hen, hen', Bool.false_and, Bool.not_true, Bool.not_false,
    Bool.false_eq_true, if_false, if_true]

end

/-! Starts. -/

theorem exec_streamStart (s : State) (h : Fin 16) : exec (.streamStart h) s = .next (s.onDev fun d => d.streamStart h.val) := rfl

section
variable {d : Dev} {i : Nat} {r : StreamReq} {q : List StreamReq} (hq : (d.hbm i).queue = r :: q)
include hq

theorem Dev.streamStart_of_bad (hbad : d.streamBad i r = true) :
    d.streamStart i = ((d.streamFail i r (d.failFaces i)).modHbm i fun x => { x with queue := q, waited := false }).hbmLook i := by
  simp only [Dev.streamStart, hq, hbad, if_true]

theorem Dev.streamStart_of_both {b0 b1 : Nat} (hbad : d.streamBad i r = false) (hsole : d.soleFace i = 2) (h0 : d.stgFree i 0 = some b0)
    (h1 : d.stgFree i 1 = some b1) (hb0 : b0 < 16) (hb1 : b1 < 16) :
    d.streamStart i = ((d.modHbm i fun x => { x with queue := q, waited := false }).modHbm i fun x =>
      { x with runs := x.runs ++ [⟨r, descLen (sget (d.hbm i).descs 0 r.desc), b0, b1, 2, false, false⟩],
               taken := x.taken ++ [(0, b0, false), (1, b1, false)] }).hbmLook i := by
  have hready : d.stgReady i = true := by
    rw [Dev.stgReady, hsole, h0, h1]
    rfl
  simp only [Dev.streamStart, hq, hbad, hready, hsole, h0, h1, hb0, hb1, Bool.not_true, Bool.false_eq_true, if_false, if_true,
    Option.getD_some, OfNat.ofNat_ne_one, OfNat.ofNat_ne_zero]
  rfl

end

/-! Faces. -/

/-- The address of a stream's bytes in its stack. -/
def Dev.streamAt (d : Dev) (i : Nat) (r : StreamRun) : Nat :=
  0x100000000000 + i * 0x1000000000 + bitsOf (sget (d.hbm i).descs 0 r.req.desc) 28 27 * 512

/-- The offset of a staging buffer in its face's CSM. -/
def Dev.stageAt (d : Dev) (i f b : Nat) : Nat := d.fld F.HBM_STG_CFG_BASE i f * 64 + b * d.stgBytes i f

/-- A run whose half on a face is done. -/
def StreamRun.halfDone (r : StreamRun) (f : Nat) : StreamRun := { r with done0 := r.done0 || f == 0, done1 := r.done1 || f == 1 }

/-- The device when a face's half has arrived: its record goes out, and its buffer is reported. -/
def Dev.faceArrived (d : Dev) (i f b : Nat) (r : StreamRun) : Dev :=
  (d.arrival i f r.req.desc r.req.slot b (r.len * 256) false false).modHbm i fun x =>
    { x with taken := x.taken.map fun t => if t.1 = f ∧ t.2.1 = b then (t.1, t.2.1, true) else t
             runs := x.runs.map fun q => if q = r then r.halfDone f else q }

/-- Whether both halves of a run are done when the half on a face is. -/
theorem halfDone_iff {f : Fin 2} {r : StreamRun} :
    ((r.halfDone f.val).done0 && (r.halfDone f.val).done1) = r.done (1 - f.val) := by
  match f with
  | 0 => simp [StreamRun.halfDone, StreamRun.done]
  | 1 => simp [StreamRun.halfDone, StreamRun.done]

section
variable {s : State} {h : Fin 16} {face : Fin 2} {buf : BitVec 4} {r : StreamRun}
  (hr : ((s.dev.hbm h.val).runs.find? fun r => r.buf face.val == buf.toNat && !r.done face.val) = some r)
include hr

theorem exec_streamFaceDone_of_dead (hs : s.dev.hbmServes h.val = false) :
    exec (.streamFaceDone h ⟨face, buf⟩) s = s.done (s.onDev fun d => d.streamsFail h.val) := by
  change execStreamFaceDone h ⟨face, buf⟩ s = _
  simp only [execStreamFaceDone, hr, hs, Bool.not_false, if_true]

variable (hs : s.dev.hbmServes h.val = true)
include hs

theorem exec_streamFaceDone_of_out (ho : s.dev.isOut h.val 0 = true) (hn : r.needs 0 = true) :
    exec (.streamFaceDone h ⟨face, buf⟩) s = s.done (s.onDev fun d => d.faceFails h.val 0) := by
  change execStreamFaceDone h ⟨face, buf⟩ s = _
  simp only [execStreamFaceDone, hr, hs, ho, hn, Bool.not_true, Bool.and_self, Bool.false_eq_true, if_false, if_true]

variable (h0 : s.dev.isOut h.val 0 = false) (h1 : s.dev.isOut h.val 1 = false) (hsole : r.sole = 2)
include h0 h1 hsole

/-- The bytes of a half stand in the face's CSM; the second half ends the stream. -/
theorem exec_streamFaceDone_of_arrived :
    let t := s.stagePieces (s.dev.streamAt h.val r + 256 * face.val) (hbmFace h.val face.val) (s.dev.stageAt h.val face.val buf.toNat) r.len
    let e := t.dev.faceArrived h.val face.val buf.toNat r
    exec (.streamFaceDone h ⟨face, buf⟩) s = s.done (t.onDev fun _ =>
      if r.done (1 - face.val) then
        ((e.modHbm h.val fun x => { x with runs := x.runs.erase (r.halfDone face.val) }).streamEnd h.val r.req.slot false).hbmLook h.val
      else e) := by
  have hnot : ¬ r.sole < 2 := by omega
  change execStreamFaceDone h ⟨face, buf⟩ s = _
  simp only [execStreamFaceDone, hr, hs, h0, h1, hnot, decide_false, Bool.not_true, Bool.false_and, Bool.false_eq_true, if_false,
    ← halfDone_iff]
  rfl

end

/-! Buffers. -/

theorem exec_hbmStgFree (s : State) (h : Fin 16) (face : Fin 2) (buf : BitVec 4) :
    exec (.hbmStgFree h face buf) s = .next (s.onDev fun d => d.wrStgFree h.val face.val buf.toNat) := rfl

theorem exec_hbmStgWait {s : State} {h : Fin 16} (hq : (s.dev.hbm h.val).queue ≠ []) (hr : s.dev.stgReady h.val = false) :
    exec (.hbmStgWait h) s = .next (s.onDev fun d => d.raise (evU bHBM h.val) 5 0 0) := by
  have hsome : (s.dev.hbm h.val).queue.isEmpty = false := by simpa using hq
  change execHbmStgWait h s = _
  simp only [execHbmStgWait, State.upd, State.onDev, hsome, hr, Bool.or_self, Bool.false_eq_true, if_false]

theorem exec_hbmFaceOut {s : State} {h : Fin 16} {face : Fin 2} (ho : s.dev.siteOut (hbmFace h.val face.val) = true) :
    exec (.hbmFaceOut h face) s = .next (s.onDev fun d => (d.faceOut h.val face.val).faceFails h.val face.val) := by
  change execHbmFaceOut h face s = _
  simp only [execHbmFaceOut, State.upd, State.onDev, ho, Bool.not_true, Bool.false_eq_true, if_false]

/-- Settles O42, command by command. -/
theorem streamCommandsTakeEffect : Obligations.StreamCommandsTakeEffect := by
  unfold Obligations.StreamCommandsTakeEffect
  intro s h face
  refine ⟨fun desc slot hasked hawake => ⟨exec_streamRequest_of_enabled hasked hawake, exec_streamRequest_of_disabled hasked hawake⟩,
    fun desc slot => exec_streamRequest_of_unasked, fun r q b0 b1 hq hbad hsole h0 h1 hb0 hb1 => ?_, fun r q hq hbad => ?_,
    fun buf r hr => ⟨fun hs h0 h1 hsole => ⟨fun hd => ?_, fun hd => ?_⟩,
      fun hs => State.gives_of_done (exec_streamFaceDone_of_dead hr hs),
      fun hs ho hn => State.gives_of_done (exec_streamFaceDone_of_out hr hs ho hn)⟩,
    fun buf ht => ?_, fun buf ht => ?_, exec_hbmStgWait, exec_hbmFaceOut⟩
  · exact (exec_streamStart s h).trans (next_onDev_congr (Dev.streamStart_of_both hq hbad hsole h0 h1 hb0 hb1))
  · exact (exec_streamStart s h).trans (next_onDev_congr (Dev.streamStart_of_bad hq hbad))
  · have hdone := exec_streamFaceDone_of_arrived hr hs h0 h1 hsole
    simp only [hd, Bool.false_eq_true, if_false] at hdone
    exact State.gives_of_done hdone
  · have hdone := exec_streamFaceDone_of_arrived hr hs h0 h1 hsole
    simp only [hd, if_true] at hdone
    exact State.gives_of_done hdone
  · exact (exec_hbmStgFree s h face buf).trans (next_onDev_congr (if_pos ht))
  · exact (exec_hbmStgFree s h face buf).trans (next_onDev_congr (if_neg (by rw [ht]; decide)))

end Sys2Proof.Machine
end

section
/-! PROOF. The upkeep of HBM and of the Cellar (spec/08_memory_tiers.md R309 to R317, R328 to R331). -/

namespace Sys2Proof.Machine

/-! What a scrub leaves. -/

/-- A corrected granule is written back, and no other. -/
theorem ecc_scrubBack_of_one {s : State} {g : Nat} (h : sget s.ecc 0 g = 1) : sget (s.scrubBack g).ecc 0 g = 0 := by
  rw [State.scrubBack, if_pos h]
  simp only [sget_sset, if_true]

theorem ecc_scrubBack_of_two {s : State} {g : Nat} (h : sget s.ecc 0 g = 2) : sget (s.scrubBack g).ecc 0 g = 2 := by
  rw [State.scrubBack, if_neg (by rw [h]; decide), h]

theorem mem_scrubBack (s : State) (g : Nat) : (s.scrubBack g).mem = s.mem := by
  rw [State.scrubBack]
  split <;> rfl

theorem ecc_eccFind (s : State) (g bad : Nat) (report : Bool) :
    sget (s.eccFind g bad report).ecc 0 g = max (sget s.ecc 0 g) (if report then 2 else bad) := by
  simp only [State.eccFind, sget_sset, if_true]

theorem ecc_hbmRead (s : State) (a n : Nat) : (s.hbmRead a n).1.ecc = s.ecc := rfl

theorem ecc_celRead (s : State) (a n : Nat) : (s.celRead a n).1.ecc = s.ecc := rfl

/-! HBM. -/

theorem exec_hbmScrub {s : State} {h : Fin 16} {sector : Nat} (hen : s.dev.flag F.HBM_CTRL_SCRUB_EN h.val = true)
    (hs : s.dev.hbmServes h.val = true) (hin : sector * 32 < 0xBA0000000) (bad : Fin 3) (report : Bool) :
    exec (.hbmScrub h ⟨sector, bad, report⟩) s =
      s.done (((s.eccFind (0x100000000000 + h.val * 0x1000000000 + sector * 32) bad.val report).hbmRead
        (0x100000000000 + h.val * 0x1000000000 + sector * 32) 32).1.scrubBack (0x100000000000 + h.val * 0x1000000000 + sector * 32)) := by
  have hle : ¬ 0xBA0000000 ≤ sector * 32 := by omega
  change execHbmScrub h ⟨sector, bad, report⟩ s = _
  simp only [execHbmScrub, hen, hs, ge_iff_le, hle, decide_false, Bool.not_true, Bool.or_self, Bool.false_eq_true, if_false]

/-- Whether the last maintenance step of a stack is too near. -/
def Dev.stepSoon (d : Dev) (h : Nat) : Bool :=
  match (d.hbm h).lastStep with
  | some t => decide (d.now < t + d.stepGap h)
  | none => false

theorem Dev.stepSoon_eq_false {d : Dev} {h : Nat} (hgap : ∀ t, (d.hbm h).lastStep = some t → t + d.stepGap h ≤ d.now) :
    d.stepSoon h = false := by
  rw [Dev.stepSoon]
  split
  · next t ht => exact decide_eq_false (Nat.not_lt.2 (hgap t ht))
  · rfl

theorem Dev.stepSoon_eq_true {d : Dev} {h t : Nat} (ht : (d.hbm h).lastStep = some t) (hlt : d.now < t + d.stepGap h) :
    d.stepSoon h = true := by
  rw [Dev.stepSoon, ht]
  exact decide_eq_true hlt

theorem exec_maintenanceStep (s : State) (h : Fin 16) (ch : Fin 32) :
    exec (.maintenanceStep h ch) s = .next (s.onDev fun d =>
      if d.flag F.HBM_CTRL_STEP_EN h.val && !d.stepSoon h.val then
        d.modHbm h.val fun x => { x with repairs := x.repairs.filter fun r => r.1 != ch.val, lastStep := some d.now }
      else d) := rfl

theorem exec_hbmSpareStart (s : State) (h : Fin 16) (lch : BitVec 5) (share : BitVec 3) :
    exec (.hbmSpareStart h lch share) s = .next (s.onDev fun _ =>
      ((s.dev.setF F.HBM_SPARE_CTRL_LCH h.val lch.toNat).setF F.HBM_SPARE_CTRL_SHARE h.val share.toNat).spareStart h.val) := rfl

theorem Dev.spareStart_of_idle {d : Dev} {h : Nat} (hbusy : d.flag F.HBM_SPARE_CTRL_BUSY h = false)
    (hl : d.fld F.HBM_SPARE_CTRL_LCH h ≤ 30) :
    d.spareStart h = if d.hbmSpare h then (d.setF F.HBM_SPARE_CTRL_BUSY h 1).modHbm h fun x =>
      { x with move := some (d.fld F.HBM_SPARE_CTRL_LCH h) } else d.setF F.HBM_SPARE_CTRL_RESULT h 2 := by
  have hle : ¬ 30 < d.fld F.HBM_SPARE_CTRL_LCH h := by omega
  cases hs : d.hbmSpare h
  · simp only [Dev.spareStart, hbusy, hs, Bool.not_false, Bool.false_eq_true, if_false, if_true]
  · simp only [Dev.spareStart, hbusy, hs, gt_iff_lt, hle, Bool.not_true, Bool.false_eq_true, if_false, if_true]

/-! The map of a stack's channels. -/

theorem Dev.hbmMap_lt (d : Dev) (h l : Nat) : d.hbmMap h l < 2 ^ 8 := Nat.mod_lt _ (Nat.two_pow_pos 8)

theorem toNat_putBits (w : Word) (k v : Nat) :
    (BitVec.ofNat 64 (putBits w.toNat (k % 8 * 8) 8 v)).toNat = putBits w.toNat (k % 8 * 8) 8 v := by
  rw [BitVec.toNat_ofNat, Nat.mod_eq_of_lt (putBits_lt (by omega) w.isLt)]

theorem Dev.hbmMap_setHbmMap_self {v : Nat} (hv : v < 2 ^ 8) (d : Dev) (h l : Nat) : (d.setHbmMap h l v).hbmMap h l = v := by
  rw [Dev.hbmMap, Dev.setHbmMap, Dev.getR_setR_self, toNat_putBits, bitsOf_putBits_self, Nat.mod_eq_of_lt hv]

theorem Dev.hbmMap_setHbmMap_other {l m : Nat} (hm : m ≠ l) (d : Dev) (h v : Nat) : (d.setHbmMap h l v).hbmMap h m = d.hbmMap h m := by
  rw [Dev.hbmMap, Dev.setHbmMap]
  by_cases hw : m / 8 = l / 8
  · rw [hw, Dev.getR_setR_self, toNat_putBits, Dev.hbmMap, hw]
    have hbits : m % 8 * 8 + 8 ≤ l % 8 * 8 ∨ l % 8 * 8 + 8 ≤ m % 8 * 8 := by omega
    exact hbits.elim (fun h => bitsOf_putBits_below h) fun h => bitsOf_putBits_above h
  · rw [Dev.getR_setR_key, Dev.hbmMap]
    simp only [Reg.key]
    omega

/-- The map of a stack stands when a field of another of its registers is stored. -/
theorem Dev.hbmMap_setF {f : Fld} {h i : Nat} (hkey : ∀ j, j < 4 → R.HBM_CHMAP.key h j ≠ f.reg.key h i) {l : Nat} (hl : l < 32) (d : Dev) (v : Nat) :
    (d.setF f h v i).hbmMap h l = d.hbmMap h l := by
  rw [Dev.hbmMap, Dev.getR_setF_key _ f _ _ _ _ _ _ (hkey _ (by omega)), Dev.hbmMap]

/-- The device when a spare copy is done. -/
def Dev.spareDone (d : Dev) (i l : Nat) : Dev :=
  ((((((d.setHbmMap i l (d.hbmMap i 31)).setHbmMap i 31 0).modHbm i fun x => { x with move := none }).setF
    F.HBM_STATUS_SPARE_USED i 1).setF F.HBM_SPARE_CTRL_BUSY i 0).setF F.HBM_SPARE_CTRL_RESULT i 1)

theorem exec_spareCopyDone {s : State} {h : Fin 16} {l : Nat} (hl : (s.dev.hbm h.val).move = some l) :
    exec (.spareCopyDone h) s = .next (s.onDev fun d => d.spareDone h.val l) := by
  change execSpareCopyDone h s = _
  simp only [execSpareCopyDone, State.upd, State.onDev, hl]
  rfl

theorem Dev.hbmMap_spareDone {m : Nat} (hm : m < 32) (d : Dev) (i l : Nat) :
    (d.spareDone i l).hbmMap i m = ((d.setHbmMap i l (d.hbmMap i 31)).setHbmMap i 31 0).hbmMap i m := by
  have hkey : ∀ {r : Reg}, 87 ≠ r.code → ∀ j, j < 4 → R.HBM_CHMAP.key i j ≠ r.key i 0 := by
    intro r hr j hj
    simp only [Reg.key, R.HBM_CHMAP]
    omega
  rw [Dev.spareDone, Dev.hbmMap_setF (f := F.HBM_SPARE_CTRL_RESULT) (hkey (by decide)) hm,
    Dev.hbmMap_setF (f := F.HBM_SPARE_CTRL_BUSY) (hkey (by decide)) hm,
    Dev.hbmMap_setF (f := F.HBM_STATUS_SPARE_USED) (hkey (by decide)) hm]
  rfl

theorem Dev.spareUsed_spareDone (d : Dev) (i l : Nat) : (d.spareDone i l).flag F.HBM_STATUS_SPARE_USED i = true := by
  rw [Dev.spareDone, Dev.flag, Dev.fld_setF_other (f := F.HBM_SPARE_CTRL_RESULT) (g := F.HBM_STATUS_SPARE_USED) (by decide),
    Dev.fld_setF_other (f := F.HBM_SPARE_CTRL_BUSY) (g := F.HBM_STATUS_SPARE_USED) (by decide),
    Dev.fld_setF_self_of_lt (f := F.HBM_STATUS_SPARE_USED) (by decide) (by decide)]
  rfl

theorem Dev.busy_spareDone (d : Dev) (i l : Nat) : (d.spareDone i l).flag F.HBM_SPARE_CTRL_BUSY i = false := by
  rw [Dev.spareDone, Dev.flag, Dev.fld_setF_apart (f := F.HBM_SPARE_CTRL_RESULT) (g := F.HBM_SPARE_CTRL_BUSY) rfl (by decide) (by decide),
    Dev.fld_setF_self_of_lt (f := F.HBM_SPARE_CTRL_BUSY) (by decide) (by decide)]
  rfl

theorem Dev.move_spareDone (d : Dev) (i l : Nat) : ((d.spareDone i l).hbm i).move = none := by
  rw [Dev.spareDone, Dev.hbm_setF, Dev.hbm_setF, Dev.hbm_setF, Dev.hbm_modHbm_self]

/-! OFFLINE and RETRAIN of a stack. -/

theorem exec_hbmOffline (s : State) (h : Fin 16) (v : Bool) :
    exec (.hbmOffline h v) s = .next (s.onDev fun d => d.hbmOffline h.val v) := rfl

theorem Dev.hbmOffline_of_steady {d : Dev} {h : Nat} {v : Bool} (hs : v = true ∨ (d.hbm h).retraining = false) :
    d.hbmOffline h v =
      let e := d.setB F.HBM_CTRL_OFFLINE h v
      let st := e.fld F.HBM_STATUS_STATE h
      let g := if v && st = 2 then e.setF F.HBM_STATUS_STATE h 3 else if !v && st = 3 then e.setF F.HBM_STATUS_STATE h 2 else e
      if v then g.streamsFail h else g := by
  have hrun : (!v && ((d.setB F.HBM_CTRL_OFFLINE h v).hbm h).retraining) = false := by
    rw [Dev.setB, Dev.hbm_setF]
    rcases hs with rfl | hs
    · rfl
    · rw [hs, Bool.and_false]
  rw [Dev.hbmOffline]
  simp only [hrun, Bool.false_eq_true, if_false]

/-- Clearing OFFLINE ends a retrain that runs: the stack is READY again. -/
theorem Dev.hbmOffline_of_retraining {d : Dev} {h : Nat} (hrun : (d.hbm h).retraining = true) (hst : d.fld F.HBM_STATUS_STATE h = 1) :
    d.hbmOffline h false =
      (((d.setB F.HBM_CTRL_OFFLINE h false).modHbm h fun x => { x with retraining := false }).setF F.HBM_STATUS_STATE h 3).setF
        F.HBM_STATUS_STATE h 2 := by
  have hrun' : ((d.setB F.HBM_CTRL_OFFLINE h false).hbm h).retraining = true := by rw [Dev.setB, Dev.hbm_setF, hrun]
  have hst' : ((d.setB F.HBM_CTRL_OFFLINE h false).modHbm h fun x => { x with retraining := false }).fld F.HBM_STATUS_STATE h = 1 :=
    (Dev.fld_setF_other (f := F.HBM_CTRL_OFFLINE) (g := F.HBM_STATUS_STATE) (by decide) d h _ 0).trans hst
  have hst3 : (((d.setB F.HBM_CTRL_OFFLINE h false).modHbm h fun x => { x with retraining := false }).setF F.HBM_STATUS_STATE h 3).fld
      F.HBM_STATUS_STATE h = 3 := Dev.fld_setF_self_of_lt (f := F.HBM_STATUS_STATE) (by decide) (by decide) _ h 0
  rw [Dev.hbmOffline]
  simp only [hrun', hst', hst3, Bool.false_and, Bool.not_false, Bool.true_and, decide_true, Bool.false_eq_true, if_false, if_true]

theorem exec_hbmOffline_of_retraining {s : State} {h : Fin 16} (hrun : (s.dev.hbm h.val).retraining = true)
    (hst : s.dev.fld F.HBM_STATUS_STATE h.val = 1) :
    exec (.hbmOffline h false) s = .next (s.onDev fun d =>
      (((d.setB F.HBM_CTRL_OFFLINE h.val false).modHbm h.val fun x => { x with retraining := false }).setF F.HBM_STATUS_STATE h.val 3).setF
        F.HBM_STATUS_STATE h.val 2) :=
  (exec_hbmOffline s h false).trans (next_onDev_congr (Dev.hbmOffline_of_retraining hrun hst))

theorem exec_hbmRetrain {s : State} {h : Fin 16} (ho : s.dev.flag F.HBM_CTRL_OFFLINE h.val = true)
    (hst : s.dev.fld F.HBM_STATUS_STATE h.val ≠ 4) :
    exec (.hbmRetrain h) s =
      .next (s.onDev fun d => (d.setF F.HBM_STATUS_STATE h.val 1).modHbm h.val fun x => { x with retraining := true }) := by
  change execHbmRetrain h s = _
  simp only [execHbmRetrain, State.upd, State.onDev, Dev.hbmRetrain, ho, hst, if_true, if_false]

theorem exec_hbmRetrainDone {s : State} {h : Fin 16} (hrun : (s.dev.hbm h.val).retraining = true)
    (hst : s.dev.fld F.HBM_STATUS_STATE h.val ≠ 4) :
    exec (.hbmRetrainDone h) s = .next (s.onDev fun d =>
      (d.modHbm h.val fun x => { x with retraining := false, repairs := [] }).setF F.HBM_STATUS_STATE h.val
        (if (d.modHbm h.val fun x => { x with retraining := false, repairs := [] }).flag F.HBM_CTRL_OFFLINE h.val then 3 else 2)) := by
  have hst' : (s.dev.modHbm h.val fun x => { x with retraining := false, repairs := [] }).fld F.HBM_STATUS_STATE h.val ≠ 4 := hst
  change execHbmRetrainDone h s = _
  simp only [execHbmRetrainDone, State.upd, State.onDev, hrun, hst', Bool.not_true, Bool.false_eq_true, if_false]

/-- Settles O43, command by command. -/
theorem hbmUpkeepCommandsTakeEffect : Obligations.HbmUpkeepCommandsTakeEffect := by
  unfold Obligations.HbmUpkeepCommandsTakeEffect
  intro s h
  refine ⟨fun ch bank temp => rfl, fun sector bad report hen hs hin => ⟨State.gives_of_done (exec_hbmScrub hen hs hin bad report), ?_,
      fun h1 => ?_, fun h2 => ?_⟩, fun ch hen => ⟨fun hgap => ?_, fun t ht hlt => ?_⟩, fun lch share hbusy hl => ?_, fun l hl hl30 => ?_,
    fun v hv => ?_, fun hrun hst => ?_, exec_hbmRetrain, exec_hbmRetrainDone⟩
  · exact (mem_scrubBack _ _).trans rfl
  · exact ecc_scrubBack_of_one (by rw [ecc_hbmRead, ecc_eccFind, h1])
  · exact ecc_scrubBack_of_two (by rw [ecc_hbmRead, ecc_eccFind, h2])
  · refine (exec_maintenanceStep s h ch).trans (next_onDev_congr (if_pos ?_))
    rw [hen, Dev.stepSoon_eq_false hgap]
    rfl
  · refine (exec_maintenanceStep s h ch).trans (next_onDev_congr (g := fun d => d) (if_neg ?_))
    rw [Dev.stepSoon_eq_true ht hlt, Bool.not_true, Bool.and_false]
    decide
  · exact (exec_hbmSpareStart s h lch share).trans (next_onDev_congr (Dev.spareStart_of_idle hbusy hl))
  · refine ⟨_, exec_spareCopyDone hl, ⟨rfl, rfl, rfl, rfl⟩, ?_, ?_, fun m hm hne => ?_, Dev.spareUsed_spareDone .., Dev.busy_spareDone ..,
      Dev.move_spareDone ..⟩
    · exact (Dev.hbmMap_spareDone (by omega) ..).trans ((Dev.hbmMap_setHbmMap_other (by omega) ..).trans
        (Dev.hbmMap_setHbmMap_self (Dev.hbmMap_lt ..) ..))
    · exact (Dev.hbmMap_spareDone (by omega) ..).trans (Dev.hbmMap_setHbmMap_self (by decide) ..)
    · exact (Dev.hbmMap_spareDone (by omega) ..).trans ((Dev.hbmMap_setHbmMap_other (by omega) ..).trans
        (Dev.hbmMap_setHbmMap_other hne ..))
  · exact (exec_hbmOffline s h v).trans (next_onDev_congr (Dev.hbmOffline_of_steady hv))
  · refine ⟨_, exec_hbmOffline_of_retraining hrun hst, ⟨rfl, rfl, rfl, rfl⟩, ?_, ?_, ?_⟩
    · simp only [State.onDev, Dev.hbm_setF, Dev.hbm_modHbm_self]
    · exact Dev.fld_setF_self_of_lt (f := F.HBM_STATUS_STATE) (by decide) (by decide) _ _ 0
    · simp only [State.onDev, Dev.hbm_setF, Dev.hbm_modHbm_self, Dev.setB]

end Sys2Proof.Machine
end

section
/-! PROOF. The upkeep of the Cellar (spec/08_memory_tiers.md R328 to R331). -/

namespace Sys2Proof.Machine

theorem exec_celScrub {s : State} {ch : Fin 12} {burst : Nat} (hen : s.dev.flag F.CEL_CTRL_SCRUB_EN ch.val = true)
    (hs : s.dev.celServes ch.val = true) (hn : 6 ≤ s.dev.celN) (hin : burst * 64 < s.dev.celN * s.dev.celS)
    (hch : s.dev.celChan (burst * 64) = ch.val) (bad : Fin 3) :
    exec (.celScrub ch ⟨burst, bad⟩) s =
      s.done (((s.eccFind (0x200000000000 + burst * 64) bad.val false).celRead (0x200000000000 + burst * 64) 64).1.scrubBack
        (0x200000000000 + burst * 64)) := by
  have hn' : ¬ s.dev.celN < 6 := by omega
  have hin' : ¬ s.dev.celN * s.dev.celS ≤ burst * 64 := by omega
  change execCelScrub ch ⟨burst, bad⟩ s = _
  simp only [execCelScrub, hen, hs, hn', ge_iff_le, hin', hch, ne_eq, not_true_eq_false, decide_false, Bool.not_true, Bool.or_self,
    Bool.false_eq_true, if_false]

section
variable {s : State} {ch : Fin 12} {row : Nat} {r : List Nat} (hq : (s.dev.cel ch.val).repairs = row :: r)
include hq

theorem exec_celSoftPpr_of_room : exec (.celSoftPpr ⟨ch, true⟩) s = .next (s.onDev fun d =>
    (d.modCel ch.val fun x => { x with repairs := r, rowCe := x.rowCe.filter fun e => e.1 != row }).addSat F.CEL_STATUS_SPPR ch.val 1) := by
  change execCelSoftPpr ⟨ch, true⟩ s = _
  simp only [execCelSoftPpr, State.upd, State.onDev, hq, Bool.not_true, Bool.false_or, if_true]

theorem exec_celSoftPpr_of_full : exec (.celSoftPpr ⟨ch, false⟩) s =
    .next (s.onDev fun d => d.modCel ch.val fun x => { x with repairs := r }) := by
  have hall : ∀ m : List (Nat × Nat), (m.filter fun _ => true) = m := fun m => List.filter_eq_self.2 fun _ _ => rfl
  change execCelSoftPpr ⟨ch, false⟩ s = _
  simp only [execCelSoftPpr, State.upd, State.onDev, hq, Bool.not_false, Bool.true_or, Bool.false_eq_true, if_false, hall]

end

theorem exec_celChFail {s : State} {ch : Fin 12} (hst : s.dev.fld F.CEL_STATUS_STATE ch.val ≠ 4) :
    exec (.celChFail ch) s = .next (s.onDev fun d => (d.setF F.CEL_STATUS_STATE ch.val 4).raise (evU bCEL ch.val) 3 2 0) := by
  change execCelChFail ch s = _
  simp only [execCelChFail, State.upd, State.onDev, hst, if_false, Dev.celFail]

theorem exec_hppr {s : State} {ch : Fin 12} (ho : s.dev.flag F.CEL_CTRL_OFFLINE ch.val = true) :
    exec (.hppr ch) s = .next (s.onDev fun d => d.setF F.CEL_STATUS_SPPR ch.val 0) := by
  change execHppr ch s = _
  simp only [execHppr, State.upd, State.onDev, Dev.celHppr, ho, if_true]

/-! OFFLINE and RETRAIN of a channel. -/

theorem exec_celOffline (s : State) (ch : Fin 12) (v : Bool) :
    exec (.celOffline ch v) s = .next (s.onDev fun d => d.celOffline ch.val v) := rfl

theorem Dev.celOffline_true (d : Dev) (c : Nat) :
    d.celOffline c true =
      let e := d.setB F.CEL_CTRL_OFFLINE c true
      if e.fld F.CEL_STATUS_STATE c = 2 then e.setF F.CEL_STATUS_STATE c 3 else e := rfl

/-- Whether clearing OFFLINE takes a channel back to READY. -/
def Dev.celBack (d : Dev) (c : Nat) : Bool :=
  d.fld F.CEL_STATUS_STATE c = 3 || (d.fld F.CEL_STATUS_STATE c = 1 && (d.cel c).retraining)

theorem Dev.celBack_iff (d : Dev) (c : Nat) : d.celBack c = true ↔
    d.fld F.CEL_STATUS_STATE c = 3 ∨ (d.fld F.CEL_STATUS_STATE c = 1 ∧ (d.cel c).retraining = true) := by
  simp only [Dev.celBack, Bool.or_eq_true, Bool.and_eq_true, decide_eq_true_eq]

/-- The device when OFFLINE of a channel is cleared and its state follows. -/
def Dev.celCleared (d : Dev) (c : Nat) : Dev :=
  let e := d.setF F.CEL_CTRL_OFFLINE c 0
  if e.celBack c then e.setF F.CEL_STATUS_STATE c 2 else e

theorem Dev.celOffline_false (d : Dev) (c : Nat) :
    d.celOffline c false = (d.celCleared c).modCel c fun x => { x with retraining := false } := rfl

theorem Dev.celState_setOffline (d : Dev) (c v : Nat) :
    (d.setF F.CEL_CTRL_OFFLINE c v).fld F.CEL_STATUS_STATE c = d.fld F.CEL_STATUS_STATE c :=
  Dev.fld_setF_other (f := F.CEL_CTRL_OFFLINE) (g := F.CEL_STATUS_STATE) (by decide) d c v 0

theorem Dev.celBack_setOffline (d : Dev) (c v : Nat) : (d.setF F.CEL_CTRL_OFFLINE c v).celBack c = d.celBack c := by
  rw [Dev.celBack, Dev.celState_setOffline]
  rfl

theorem Dev.cel_celCleared (d : Dev) (c : Nat) : (d.celCleared c).cel c = d.cel c := by
  rw [Dev.celCleared]
  split <;> rfl

theorem Dev.offline_celCleared (d : Dev) (c : Nat) : (d.celCleared c).flag F.CEL_CTRL_OFFLINE c = false := by
  have hself : (d.setF F.CEL_CTRL_OFFLINE c 0).fld F.CEL_CTRL_OFFLINE c = 0 :=
    Dev.fld_setF_self_of_lt (f := F.CEL_CTRL_OFFLINE) (by decide) (by decide) d c 0
  rw [Dev.celCleared, Dev.flag]
  split
  · rw [Dev.fld_setF_other (f := F.CEL_STATUS_STATE) (g := F.CEL_CTRL_OFFLINE) (by decide), hself]
    rfl
  · rw [hself]
    rfl

theorem Dev.celState_celCleared (d : Dev) (c : Nat) :
    (d.celCleared c).fld F.CEL_STATUS_STATE c = if d.celBack c then 2 else d.fld F.CEL_STATUS_STATE c := by
  rw [Dev.celCleared]
  simp only [Dev.celBack_setOffline]
  split
  · exact Dev.fld_setF_self_of_lt (f := F.CEL_STATUS_STATE) (by decide) (by decide) _ c 0
  · exact Dev.celState_setOffline ..

theorem Dev.getR_celCleared {r : Reg} {c v i : Nat} (hctrl : r.key v i ≠ R.CEL_CTRL.key c 0) (hstat : r.key v i ≠ R.CEL_STATUS.key c 0)
    (d : Dev) : (d.celCleared c).getR r v i = d.getR r v i := by
  rw [Dev.celCleared]
  split
  · exact (Dev.getR_setF_key _ F.CEL_STATUS_STATE r _ _ _ _ _ hstat).trans (Dev.getR_setF_key _ F.CEL_CTRL_OFFLINE r _ _ _ _ _ hctrl)
  · exact Dev.getR_setF_key _ F.CEL_CTRL_OFFLINE r _ _ _ _ _ hctrl

theorem exec_celOffline_false (s : State) (ch : Fin 12) :
    exec (.celOffline ch false) s =
      .next (s.onDev fun d => (d.celCleared ch.val).modCel ch.val fun x => { x with retraining := false }) :=
  (exec_celOffline s ch false).trans (next_onDev_congr (Dev.celOffline_false ..))

theorem exec_celRetrain {s : State} {ch : Fin 12} (ho : s.dev.flag F.CEL_CTRL_OFFLINE ch.val = true)
    (hst : s.dev.fld F.CEL_STATUS_STATE ch.val = 3) :
    exec (.celRetrain ch) s =
      .next (s.onDev fun d => (d.setF F.CEL_STATUS_STATE ch.val 1).modCel ch.val fun x => { x with retraining := true }) := by
  change execCelRetrain ch s = _
  simp only [execCelRetrain, State.upd, State.onDev, Dev.celRetrain, ho, hst, if_true]

theorem exec_celRetrainDone {s : State} {ch : Fin 12} (hrun : (s.dev.cel ch.val).retraining = true)
    (hst : s.dev.fld F.CEL_STATUS_STATE ch.val = 1) :
    exec (.celRetrainDone ch) s = .next (s.onDev fun d =>
      (d.modCel ch.val fun x => { x with retraining := false }).setF F.CEL_STATUS_STATE ch.val
        (if (d.modCel ch.val fun x => { x with retraining := false }).flag F.CEL_CTRL_OFFLINE ch.val then 3 else 2)) := by
  have hst' : (s.dev.modCel ch.val fun x => { x with retraining := false }).fld F.CEL_STATUS_STATE ch.val = 1 := hst
  change execCelRetrainDone ch s = _
  simp only [execCelRetrainDone, State.upd, State.onDev, hrun, hst', Bool.not_true, Bool.false_eq_true, if_false, if_true]

/-- Settles O44, command by command. -/
theorem cellarCommandsTakeEffect : Obligations.CellarCommandsTakeEffect := by
  unfold Obligations.CellarCommandsTakeEffect
  intro s ch
  refine ⟨fun burst bad hen hs hn hin hch => ⟨State.gives_of_done (exec_celScrub hen hs hn hin hch bad), ?_, fun h1 => ?_, fun h2 => ?_⟩,
    fun row r hq => ⟨exec_celSoftPpr_of_room hq, exec_celSoftPpr_of_full hq⟩, exec_celChFail, exec_hppr,
    (exec_celOffline s ch true).trans (next_onDev_congr (Dev.celOffline_true ..)), ?_, exec_celRetrain, exec_celRetrainDone⟩
  · exact (mem_scrubBack _ _).trans rfl
  · exact ecc_scrubBack_of_one (by rw [ecc_celRead, ecc_eccFind, ← h1]; rfl)
  · exact ecc_scrubBack_of_two (by rw [ecc_celRead, ecc_eccFind, ← h2]; rfl)
  · refine ⟨_, exec_celOffline_false s ch, ⟨rfl, rfl, rfl, rfl⟩, Dev.offline_celCleared s.dev ch.val, ?_, ?_, ?_,
      fun r v i hctrl hstat => Dev.getR_celCleared hctrl hstat s.dev⟩
    · simp only [State.onDev, Dev.cel_modCel_self]
    · simp only [State.onDev, Dev.cel_modCel_self, Dev.cel_celCleared]
    · refine (Dev.celState_celCleared s.dev ch.val).trans ?_
      simp only [Dev.celBack_iff]

end Sys2Proof.Machine
end

section
/-! PROOF. Sill and the UCIe modules (spec/09_host_and_commands.md R336 to R344, Table 9-28). -/

namespace Sys2Proof.Machine

/-! Flits. -/

section
variable {s : State} {f : SillFlit}

theorem exec_sillFlit_of_out (hin : s.dev.flag F.UCI_STATUS_IN_SILL f.module.val = false) : exec (.sillFlit f) s = .next s := by
  change execSillFlit f s = _
  simp only [execSillFlit, State.upd, hin, Bool.not_false, if_true]

variable (hin : s.dev.flag F.UCI_STATUS_IN_SILL f.module.val = true)
include hin

theorem exec_sillFlit_of_asleep (hlvl : 2 ≤ (s.dev.dom domUci).level) :
    exec (.sillFlit f) s = .next (s.onDev fun d => d.demand domUci true) := by
  change execSillFlit f s = _
  simp only [execSillFlit, State.upd, State.onDev, hin, ge_iff_le, hlvl, Bool.not_true, Bool.false_eq_true, if_false, if_true]

theorem exec_sillFlit_of_bad (hlvl : (s.dev.dom domUci).level < 2) (hcrc : f.crcOk = false) :
    exec (.sillFlit f) s = .next (s.onDev fun d =>
      (d.addSat F.UCI_STATUS_CRC_ERR f.module.val 1).addSat F.UCI_STATUS_REPLAYS f.module.val 1) := by
  have hle : ¬ 2 ≤ (s.dev.dom domUci).level := by omega
  change execSillFlit f s = _
  simp only [execSillFlit, State.upd, State.onDev, hin, ge_iff_le, hle, hcrc, Bool.not_true, Bool.not_false, Bool.false_eq_true, if_false,
    if_true]

theorem exec_sillFlit_of_good (hlvl : (s.dev.dom domUci).level = 0) (hawake : s.dev.rests domUci = false) (hcrc : f.crcOk = true)
    {e : Dev} (he : s.dev.flitIn f.slots = e) : exec (.sillFlit f) s = .next (s.onDev fun _ => e.sillPump.sillIdle) := by
  have hle : ¬ 2 ≤ (s.dev.dom domUci).level := by omega
  change execSillFlit f s = _
  simp only [execSillFlit, State.upd, State.onDev, hin, ge_iff_le, hle, hcrc, hawake, he, Bool.not_true, Bool.false_eq_true, if_false]

end

theorem Dev.flitIn_of_next {d : Dev} {ws : List (BitVec 128)} (h : flitSeq (ws.headD 0) = d.sill.seq) :
    d.flitIn ws = (d.flitTake ws).flitDrain d.sill.ahead.length := by
  have hgap : (flitSeq (ws.headD 0) + 65536 - d.sill.seq) % 65536 = 0 := by omega
  rw [Dev.flitIn]
  exact if_pos hgap

/-- How far a flit is ahead of the next one. -/
theorem gap_of_ahead {n seq k : Nat} (hk : k < 65536) (hn : n = (seq + k) % 65536) (hseq : seq < 65536) :
    (n + 65536 - seq) % 65536 = k := by omega

theorem Dev.flitIn_of_ahead {d : Dev} {ws : List (BitVec 128)} {k : Nat} (hpos : 0 < k) (hk : k < 32768)
    (hn : flitSeq (ws.headD 0) = (d.sill.seq + k) % 65536) (hseq : d.sill.seq < 65536)
    (hnew : (d.sill.ahead.any fun x => x.1 == flitSeq (ws.headD 0)) = false) :
    d.flitIn ws = d.modSill fun x => { x with ahead := x.ahead ++ [(flitSeq (ws.headD 0), ws)] } := by
  have hne : k ≠ 0 := by omega
  rw [Dev.flitIn]
  simp only [gap_of_ahead (by omega) hn hseq, hne, if_false, hk, hnew, decide_true, Bool.not_false, Bool.and_self, if_true]

theorem Dev.flitIn_of_behind {d : Dev} {ws : List (BitVec 128)} {k : Nat} (hlow : 32768 ≤ k) (hk : k < 65536)
    (hn : flitSeq (ws.headD 0) = (d.sill.seq + k) % 65536) (hseq : d.sill.seq < 65536) : d.flitIn ws = d := by
  have hne : k ≠ 0 := by omega
  have hnot : ¬ k < 32768 := by omega
  rw [Dev.flitIn]
  simp only [gap_of_ahead hk hn hseq, hne, if_false, hnot, decide_false, Bool.false_and, Bool.false_eq_true]

/-- Every field of a header slot stands in bits of its own. -/
theorem sillOfHead_sillHead (r : SillReq) : sillOfHead (sillHead r) = { r with data := [] } := by
  obtain ⟨ty, rsv, tag, len, status, rsv2, addr, data⟩ := r
  simp (disch := decide) only [sillOfHead, sillHead, BitVec.extractLsb'_append_eq_of_le, BitVec.extractLsb'_append_eq_of_add_le,
    Nat.reduceSub, BitVec.extractLsb'_eq_self]

/-! Requests. -/

theorem Dev.jmem_examine (d : Dev) : d.examine.jmem = d.jmem := by
  rw [Dev.examine]
  split <;> rfl

theorem Dev.jmem_sillIdle (d : Dev) : d.sillIdle.jmem = d.jmem := by
  rw [Dev.sillIdle]
  split
  · rw [Dev.flitSend, Dev.flitOut]
    split <;> rfl
  · rfl

theorem Dev.hostReads_sillTake (d : Dev) (r : SillReq) : (d.sillTake r).hostReads = d.hostReads := by
  rw [Dev.sillTake]
  split <;> rfl

theorem Dev.jmem_sillTake (d : Dev) (r : SillReq) : (d.sillTake r).jmem = d.jmem := by
  rw [Dev.sillTake]
  split <;> rfl

/-- The device when a write of the host has reached host window memory. -/
def Dev.hostWritten (d : Dev) (r : SillReq) : Dev :=
  let d := (d.sillTake r).putJ r.addr.toNat (takeZ (sillLen r) r.data)
  let e := d.ringAt + 64 * d.fld F.CMD_RING_HEAD_INDEX 0
  if r.addr.toNat < e + 64 && e < r.addr.toNat + (takeZ (sillLen r) r.data).length then d.examine else d

theorem length_takeZ (n : Nat) (bs : List Byte) : (takeZ n bs).length = n := by
  simp only [takeZ, zeros, List.length_append, List.length_take, List.length_replicate]
  omega

theorem getElem_takeZ {n i : Nat} {bs : List Byte} (h : i < (takeZ n bs).length) : (takeZ n bs)[i] = bs.getD i 0 := by
  have hlt : i < n := by rwa [length_takeZ] at h
  simp only [takeZ, zeros, List.getElem_append, List.getElem_take, List.getElem_replicate, List.length_take]
  split
  · next hin => rw [List.getD_eq_getElem _ _ (by omega)]
  · next hout => rw [List.getD_eq_default _ _ (by omega)]

theorem Dev.jmem_hostWritten (d : Dev) (r : SillReq) :
    (d.hostWritten r).jmem = pokeN d.jmem r.addr.toNat (takeZ (sillLen r) r.data) := by
  rw [← Dev.jmem_sillTake d r, Dev.hostWritten]
  split
  · exact Dev.jmem_examine _
  · rfl

theorem peek_hostWritten (d : Dev) (r : SillReq) (x : Nat) :
    peek (d.hostWritten r).jmem x = if r.addr.toNat ≤ x ∧ x < r.addr.toNat + sillLen r then r.data.getD (x - r.addr.toNat) 0
      else peek d.jmem x := by
  rw [Dev.jmem_hostWritten, peek_pokeN]
  simp only [length_takeZ]
  split
  · exact getElem_takeZ _
  · rfl

theorem sillReq_ty {r : SillReq} {t : BitVec 4} (h : r.ty = t) : ({ r with ty := t } : SillReq) = r := by rw [← h]

/-- The bytes below the read-only part of the host window are the host's to write. -/
theorem Dev.hostPlace_of_window {d : Dev} {a : Nat} (ha : a < hostRo) (hl : d.pwr.lost.contains domHost = false) : d.hostPlace a = .host a := by
  rw [hostRo] at ha
  have h48 : a < 2 ^ 48 := by omega
  have h24 : a < 0x1000000 := by omega
  rw [Dev.hostPlace, if_pos h48, Dev.place, if_pos h24, hl]
  rfl

theorem Dev.captureWaits_of_low {a : Nat} (ha : a < hostRo) (d : Dev) (n : Nat) : d.captureWaits a n = false := by
  rw [hostRo] at ha
  have hnot : ¬ (0x100000000000 ≤ a ∧ a < 0x200000000000) := by omega
  simp only [Dev.captureWaits, hnot, decide_false, Bool.and_false, Bool.false_and]

theorem State.sillWr_of_window {s : State} {r : SillReq} (hbad : sillBad r = false) (hin : r.addr.toNat + sillLen r ≤ hostRo)
    (hl : s.dev.pwr.lost.contains domHost = false) (hw : s.dev.sillWaits r.addr.toNat = []) :
    s.sillWr r = s.onDev fun d => d.hostWritten r := by
  have hlen : 4 ≤ sillLen r := by
    rw [sillLen]
    omega
  have hlt : r.addr.toNat < hostRo := by omega
  have hro : ¬ hostRo ≤ r.addr.toNat + sillLen r - 1 := by omega
  simp only [State.sillWr, hbad, length_takeZ, hro, decide_false, Bool.false_and, Bool.or_self, Bool.false_eq_true, if_false, hw,
    Dev.captureWaits_of_low hlt, State.rangeWrite, Dev.hostPlace_of_window hlt hl, hin, if_true, State.onDev]
  simp only [Dev.hostWritten, length_takeZ, OfNat.zero_ne_ofNat, if_false]

theorem exec_wr_of_turn {s : State} {r : SillReq} (hturn : sillTurn r s.dev.sill.inq = true) :
    exec (.wr r) s = s.done ((s.sillWr { r with ty := 1 }).onDev Dev.sillIdle) := by
  change execWr r s = _
  simp only [execWr, hturn, if_true]

theorem exec_rd_of_turn {s : State} {r : SillReq} (hturn : sillTurn r s.dev.sill.inq = true) :
    exec (.rd r) s = s.done ((s.sillRd { r with ty := 2 }).onDev Dev.sillIdle) := by
  change execRd r s = _
  simp only [execRd, hturn, if_true]

/-- A write of the host that is well formed and has its turn changes the bytes that it names, of host window memory alone. -/
theorem exec_wr_window {s : State} {r : SillReq} (hty : r.ty = 1) (hturn : sillTurn r s.dev.sill.inq = true) (hbad : sillBad r = false)
    (hin : r.addr.toNat + sillLen r ≤ hostRo) (hl : s.dev.pwr.lost.contains domHost = false) (hw : s.dev.sillWaits r.addr.toNat = []) :
    ∃ t, exec (.wr r) s = .next t ∧ t.SameMem s ∧
      ∀ x, peek t.dev.jmem x = if r.addr.toNat ≤ x ∧ x < r.addr.toNat + sillLen r then r.data.getD (x - r.addr.toNat) 0
        else peek s.dev.jmem x := by
  obtain ⟨t, hexec, -, hdev, hmem⟩ := State.gives_done s ((s.onDev fun d => d.hostWritten r).onDev Dev.sillIdle)
  rw [exec_wr_of_turn hturn, sillReq_ty hty, State.sillWr_of_window hbad hin hl hw]
  refine ⟨t, hexec, hmem, fun x => ?_⟩
  rw [hdev]
  exact (congrArg (fun m => peek m x) (Dev.jmem_sillIdle _)).trans (peek_hostWritten s.dev r x)

theorem State.sillWr_of_bad {s : State} {r : SillReq} (hbad : sillBad r = true) :
    s.sillWr r = s.onDev fun d => (d.sillTake r).malformed := by
  simp only [State.sillWr, hbad, Bool.true_or, if_true, State.onDev]

theorem State.sillRd_of_bad {s : State} {r : SillReq} (hbad : sillBad r = true) :
    s.sillRd r = s.onDev fun d => (d.sillTake r).malformed.sillAnswer r 4 [] := by
  simp only [State.sillRd, hbad, if_true, State.onDev]

theorem State.sillRd_of_ok {s : State} {r : SillReq} (hbad : sillBad r = false) (hw : s.dev.sillWaits r.addr.toNat = []) :
    s.sillRd r =
      let q := (s.onDev fun d => d.sillTake r).rangeRead s.dev.hostPlace r.addr.toNat (sillLen r)
      q.1.onDev fun d => (if q.2.2 = 4 then d.sillAddrErr else d).sillAnswer r q.2.2 q.2.1 := by
  simp only [State.sillRd, hbad, hw, Bool.false_eq_true, if_false]

/-! Answers. -/

section
variable {s : State} {r : SillReq} (hturn : sillTurn r s.dev.sill.inq = true)
include hturn

theorem exec_cpl_of_bad (hbad : sillBad { r with ty := 3 } = true) :
    exec (.cpl r r.data) s = .next (s.onDev fun d => (d.sillTake r).malformed) := by
  change execCpl r r.data s = _
  simp only [execCpl, State.upd, State.onDev, hturn, hbad, Bool.not_true, Bool.false_eq_true, if_false, if_true]

variable {h : HostRd} (hh : (s.dev.hostReads.find? fun h => h.tag == r.tag.toNat) = some h)
include hh

theorem exec_cpl_of_some (hbad : sillBad { r with ty := 3 } = false) :
    exec (.cpl r r.data) s = .next (s.onDev fun d =>
      ({ d.sillTake r with hostReads := d.hostReads.erase h } : Dev).modCmd h.seq fun c =>
        { c with buf := c.buf.take h.off ++ takeZ h.len r.data ++ c.buf.drop (h.off + h.len), left := c.left - 1 }) := by
  have hreads : (s.dev.sillTake r).hostReads = s.dev.hostReads := Dev.hostReads_sillTake ..
  change execCpl r r.data s = _
  simp only [execCpl, State.upd, State.onDev, hturn, hbad, hreads, hh, Bool.not_true, Bool.false_eq_true, if_false]

theorem exec_cple_of_some (hbad : sillBad { r with ty := 4 } = false) :
    exec (.cple r r.status) s = .next (s.onDev fun d =>
      let g : Dev := { d.sillTake r with hostReads := d.hostReads.erase h }
      g.cmdEnd h.seq (readFail r.status.toNat) (g.cmdMoved h.seq) 0) := by
  have hreads : (s.dev.sillTake r).hostReads = s.dev.hostReads := Dev.hostReads_sillTake ..
  change execCple r r.status s = _
  simp only [execCple, State.upd, State.onDev, hturn, hbad, hreads, hh, Bool.not_true, Bool.false_eq_true, if_false]

end

theorem exec_hostReadTimeout {s : State} {tag : BitVec 10} {h : HostRd} (hh : (s.dev.hostReads.find? fun h => h.tag == tag.toNat) = some h) :
    exec (.hostReadTimeout tag) s = .next (s.onDev fun d => d.cmdEnd h.seq 8 (d.cmdMoved h.seq) 0) := by
  change execHostReadTimeout tag s = _
  simp only [execHostReadTimeout, State.upd, State.onDev, hh]

theorem exec_wake {s : State} (hen : s.dev.flag F.PCH_WAKE_CTRL_SB_EN 0 = true) (hst : s.dev.pstate ≠ 4) :
    exec .wake s = s.done (s.onDev fun d => d.deviceWake 2) := by
  change execWake s = _
  simp only [execWake, State.onDev, hen, hst, ne_eq, not_false_eq_true, decide_true, Bool.and_self, if_true]

section
variable {s : State} {a : BitVec 48} {inst off : Nat} (hst : s.dev.pstate ≠ 4) (hp : s.dev.hostPlace a.toNat = .reg bUCI inst off)
  (ho : off % 8 = 0)
include hst hp ho

theorem exec_sidebandRegisterAccess_write (v : Word) :
    exec (.sidebandRegisterAccess true a true v) s = s.done (s.regWrite bUCI inst off 8 v.toNat) := by
  have hacc : accOk off 8 = true := by simp only [accOk, ho, decide_true, Bool.and_self, Bool.true_or]
  change execSidebandRegisterAccess true a true v s = _
  simp only [execSidebandRegisterAccess, hst, hp, hacc, if_true, if_false, ne_eq, not_true_eq_false, decide_false, Bool.false_and,
    Bool.not_true, Bool.or_self, Bool.false_eq_true]

theorem exec_sidebandRegisterAccess_read (v : Word) :
    exec (.sidebandRegisterAccess false a true v) s = s.done (s.onDev fun d =>
      (d.regRead bUCI inst off 8).1.emit (.regRead a.toNat (BitVec.ofNat 64 (d.regRead bUCI inst off 8).2))) := by
  have hacc : accOk off 8 = true := by simp only [accOk, ho, decide_true, Bool.and_self, Bool.true_or]
  change execSidebandRegisterAccess false a true v s = _
  simp only [execSidebandRegisterAccess, hst, hp, hacc, if_true, if_false, ne_eq, not_true_eq_false, decide_false, Bool.false_and,
    Bool.not_true, Bool.or_self, Bool.false_eq_true]

end

/-! UCIe modules. -/

theorem exec_uciModuleDown_of_out {s : State} {m : Fin 4} (hin : s.dev.flag F.UCI_STATUS_IN_SILL m.val = false) (lost : List (BitVec 16)) :
    exec (.uciModuleDown ⟨m, lost⟩) s = .next (s.onDev fun d => d.setF F.UCI_STATUS_STATE m.val 4) := by
  change execUciModuleDown ⟨m, lost⟩ s = _
  simp only [execUciModuleDown, State.upd, State.onDev, hin, Dev.moduleDown, Bool.false_eq_true, if_false]

theorem exec_uciModuleDown_of_in {s : State} {m : Fin 4} (hin : s.dev.flag F.UCI_STATUS_IN_SILL m.val = true) (lost : List (BitVec 16))
    {e : Dev} (he : ((s.dev.setF F.UCI_STATUS_STATE m.val 4).moduleOut m.val).raise (evU bUCI m.val) 1 1 0 = e) :
    exec (.uciModuleDown ⟨m, lost⟩) s = .next (s.onDev fun _ =>
      (if e.fld F.UCI_STATUS_MODULES 0 = 0 then e.raise (evU bUCI 0) 2 5 0 else e).sillReplay m.val (lost.map (·.toNat))) := by
  change execUciModuleDown ⟨m, lost⟩ s = _
  simp only [execUciModuleDown, State.upd, State.onDev, hin, Dev.moduleDown, he, if_true]

theorem exec_uciRetrain (s : State) (m : Fin 4) : exec (.uciRetrain m) s = .next (s.onDev fun d => d.moduleUp m.val) := rfl

theorem exec_uciDisable (s : State) (m : Fin 4) (v : Bool) : exec (.uciDisable m v) s = .next (s.onDev fun d => d.uciDisable m.val v) := rfl

theorem Dev.uciDisable_of_out {d : Dev} {m : Nat} (hin : d.flag F.UCI_STATUS_IN_SILL m = false) :
    d.uciDisable m true = (d.setF F.UCI_CTRL_DISABLE m 1).setF F.UCI_STATUS_STATE m 0 := by
  have hin' : (d.setF F.UCI_CTRL_DISABLE m 1).flag F.UCI_STATUS_IN_SILL m = false := by
    rw [Dev.flag, Dev.fld_setF_other (f := F.UCI_CTRL_DISABLE) (g := F.UCI_STATUS_IN_SILL) (by decide)]
    exact hin
  rw [Dev.uciDisable]
  simp only [if_true, Dev.setB, b2n, Dev.moduleDown, hin', Bool.false_eq_true, if_false]

theorem Dev.getR_sillUp (d : Dev) (q : Reg) (v i : Nat) : d.sillUp.getR q v i = d.getR q v i := by
  rw [Dev.sillUp, Dev.flitSend, Dev.flitOut]
  split <;> rfl

/-- The device when a module carries Sill and the count of modules shows it. -/
def Dev.moduleIn (d : Dev) (m : Nat) : Dev := ((d.setF F.UCI_STATUS_STATE m 2).setF F.UCI_STATUS_IN_SILL m 1).showModules

theorem Dev.moduleUp_of_enabled {d : Dev} {m : Nat} (hdis : d.flag F.UCI_CTRL_DISABLE m = false) :
    d.moduleUp m = if d.fld F.UCI_STATUS_MODULES 0 = 0 then (d.moduleIn m).sillUp else d.moduleIn m := by
  simp only [Dev.moduleUp, hdis, Bool.false_eq_true, if_false, Dev.moduleIn]

theorem Dev.getR_moduleUp {d : Dev} {m : Nat} (hdis : d.flag F.UCI_CTRL_DISABLE m = false) (q : Reg) (v i : Nat) :
    (d.moduleUp m).getR q v i = (d.moduleIn m).getR q v i := by
  rw [Dev.moduleUp_of_enabled hdis]
  split
  · exact Dev.getR_sillUp ..
  · rfl

theorem Dev.fld_moduleUp {d : Dev} {m : Nat} (hdis : d.flag F.UCI_CTRL_DISABLE m = false) (f : Fld) (v : Nat) :
    (d.moduleUp m).fld f v = (d.moduleIn m).fld f v := by
  rw [Dev.fld, Dev.getR_moduleUp hdis, Dev.fld]

theorem Dev.state_moduleIn (d : Dev) (m : Nat) : (d.moduleIn m).fld F.UCI_STATUS_STATE m = 2 := by
  rw [Dev.moduleIn, Dev.showModules, Dev.fld_setF_apart_any (f := F.UCI_STATUS_MODULES) (g := F.UCI_STATUS_STATE) rfl (by decide) (by decide),
    Dev.fld_setF_apart (f := F.UCI_STATUS_IN_SILL) (g := F.UCI_STATUS_STATE) rfl (by decide) (by decide),
    Dev.fld_setF_self_of_lt (f := F.UCI_STATUS_STATE) (by decide) (by decide)]

theorem Dev.inSill_moduleIn (d : Dev) (m : Nat) : (d.moduleIn m).flag F.UCI_STATUS_IN_SILL m = true := by
  rw [Dev.flag, Dev.moduleIn, Dev.showModules,
    Dev.fld_setF_apart_any (f := F.UCI_STATUS_MODULES) (g := F.UCI_STATUS_IN_SILL) rfl (by decide) (by decide),
    Dev.fld_setF_self_of_lt (f := F.UCI_STATUS_IN_SILL) (by decide) (by decide)]
  rfl

theorem Dev.getR_moduleIn {r : Reg} {m v i : Nat} (hm : r.key v i ≠ R.UCI_STATUS.key m 0) (h0 : r.key v i ≠ R.UCI_STATUS.key 0 0) (d : Dev) :
    (d.moduleIn m).getR r v i = d.getR r v i := by
  rw [Dev.moduleIn, Dev.showModules, Dev.getR_setF_key _ F.UCI_STATUS_MODULES r _ _ _ _ _ h0,
    Dev.getR_setF_key _ F.UCI_STATUS_IN_SILL r _ _ _ _ _ hm, Dev.getR_setF_key _ F.UCI_STATUS_STATE r _ _ _ _ _ hm]

/-- DISABLE 0 of a disabled module stores the bit and lets the module carry Sill. -/
theorem Dev.uciDisable_false {d : Dev} {m : Nat} (hdis : d.flag F.UCI_CTRL_DISABLE m = true) :
    d.uciDisable m false = (d.setF F.UCI_CTRL_DISABLE m 0).moduleUp m := by
  rw [Dev.uciDisable]
  simp only [hdis, Bool.false_eq_true, if_false, if_true, Dev.setB, b2n]

theorem Dev.disable_cleared (d : Dev) (m : Nat) : (d.setF F.UCI_CTRL_DISABLE m 0).flag F.UCI_CTRL_DISABLE m = false := by
  rw [Dev.flag, Dev.fld_setF_self_of_lt (f := F.UCI_CTRL_DISABLE) (by decide) (by decide)]
  rfl

theorem Dev.disable_moduleIn {m : Nat} (hm : m < 4) (d : Dev) : (d.moduleIn m).flag F.UCI_CTRL_DISABLE m = d.flag F.UCI_CTRL_DISABLE m := by
  rw [Dev.flag, Dev.flag, Dev.fld, Dev.fld, Dev.getR_moduleIn]
  · simp only [Reg.key, R.UCI_CTRL, R.UCI_STATUS]
    omega
  · simp only [Reg.key, R.UCI_CTRL, R.UCI_STATUS]
    omega

/-- Settles O46, command by command. -/
theorem sillCommandsTakeEffect : Obligations.SillCommandsTakeEffect := by
  unfold Obligations.SillCommandsTakeEffect
  intro s
  refine ⟨fun f => exec_sillFlit_of_out, fun f => exec_sillFlit_of_asleep, fun f => exec_sillFlit_of_bad,
    fun f hin hlvl hawake hcrc => ⟨fun hn => ?_, fun k hpos hk hn hseq hnew => ?_, fun k hlow hk hn hseq => ?_⟩,
    sillOfHead_sillHead, fun r hty hturn hbad hin hl hw => exec_wr_window hty hturn hbad hin hl hw, fun r hty hturn hbad hw => ?_,
    fun r h hturn hbad hh => exec_cpl_of_some hturn hh hbad, fun r h hturn hbad hh => exec_cple_of_some hturn hh hbad,
    fun tag h => exec_hostReadTimeout, fun hen hst => State.gives_of_done (exec_wake hen hst),
    fun a v inst off hst hp ho => ⟨State.gives_of_done (exec_sidebandRegisterAccess_write hst hp ho v),
      State.gives_of_done (exec_sidebandRegisterAccess_read hst hp ho v)⟩,
    fun r hturn hbad => ?_, fun r hturn hbad => ?_, fun r hturn hbad => exec_cpl_of_bad hturn hbad,
    fun m => ⟨fun lost hin => exec_uciModuleDown_of_out hin lost, fun lost hin => exec_uciModuleDown_of_in hin lost rfl, fun hdis => ?_,
      fun hin => (exec_uciDisable s m true).trans (next_onDev_congr (Dev.uciDisable_of_out hin)), fun hdis => ?_⟩⟩
  · exact exec_sillFlit_of_good hin hlvl hawake hcrc (Dev.flitIn_of_next hn)
  · exact exec_sillFlit_of_good hin hlvl hawake hcrc (Dev.flitIn_of_ahead hpos hk hn hseq hnew)
  · exact exec_sillFlit_of_good hin hlvl hawake hcrc (Dev.flitIn_of_behind hlow hk hn hseq)
  · refine State.gives_of_done ((exec_rd_of_turn hturn).trans (congrArg s.done ?_))
    rw [sillReq_ty hty, State.sillRd_of_ok hbad hw]
    rfl
  · refine State.gives_of_done ((exec_wr_of_turn hturn).trans (congrArg s.done ?_))
    rw [State.sillWr_of_bad hbad]
    rfl
  · refine State.gives_of_done ((exec_rd_of_turn hturn).trans (congrArg s.done ?_))
    rw [State.sillRd_of_bad hbad]
    rfl
  · refine ⟨_, exec_uciRetrain s m, ⟨rfl, rfl, rfl, rfl⟩, ?_, ?_, fun r v i hm h0 => ?_⟩
    · exact (Dev.fld_moduleUp hdis ..).trans (Dev.state_moduleIn ..)
    · exact (congrArg (· == 1) (Dev.fld_moduleUp hdis ..)).trans (Dev.inSill_moduleIn ..)
    · exact (Dev.getR_moduleUp hdis ..).trans (Dev.getR_moduleIn hm h0 _)
  · refine ⟨_, (exec_uciDisable s m false).trans (next_onDev_congr (g := fun d => (d.setF F.UCI_CTRL_DISABLE m.val 0).moduleUp m.val)
      (Dev.uciDisable_false hdis)), ?_, ?_⟩
    · exact (congrArg (· == 1) (Dev.fld_moduleUp (Dev.disable_cleared ..) ..)).trans
        ((Dev.disable_moduleIn m.isLt _).trans (Dev.disable_cleared ..))
    · exact (congrArg (· == 1) (Dev.fld_moduleUp (Dev.disable_cleared ..) ..)).trans (Dev.inSill_moduleIn ..)

end Sys2Proof.Machine
end

section
/-! PROOF. The command engine (spec/09_host_and_commands.md R348 to R354, R361, R364, R378). -/

namespace Sys2Proof.Machine

/-! The entry at HEAD. -/

theorem exec_commandEntryExamine {s : State} (hawake : s.dev.rests domHost = false) :
    exec .commandEntryExamine s = .next (s.onDev fun d => d.examine) := by
  change execCommandEntryExamine s = _
  simp only [execCommandEntryExamine, State.upd, State.onDev, hawake, Bool.false_eq_true, if_false]

/-- A new entry that must wait counts once. -/
theorem Dev.examine_of_waits {d : Dev} (hres : d.flag F.CMD_STATUS_RESETTING 0 = false) (hnew : d.headNew = true)
    (hacc : d.canAccept = false) (hwait : d.accWaited = false) :
    d.examine = { (d.addSat F.CMD_STATUS_ACC_WAITS 0 1) with accWaited := true } := by
  simp only [Dev.examine, hres, hnew, hacc, hwait, Bool.not_false, Bool.and_self, if_true]

theorem exec_commandAccept_of_rest {s : State} (hrest : s.dev.rests domHost = true) :
    exec .commandAccept s = .next (s.onDev fun d => d.demand domHost true) := by
  change execCommandAccept s = _
  simp only [execCommandAccept, State.upd, State.onDev, hrest, if_true]

theorem exec_commandAccept {s : State} (hawake : s.dev.rests domHost = false) (hacc : s.dev.canAccept = true) (hnew : s.dev.headNew = true)
    (hres : s.dev.flag F.CMD_STATUS_RESETTING 0 = false) :
    let k := s.dev.fld F.CMD_RING_HEAD_INDEX 0
    exec .commandAccept s = .next (s.onDev fun d =>
      ((if k + 1 < d.ringLen then d.setF F.CMD_RING_HEAD_INDEX 0 (k + 1)
        else (d.setF F.CMD_RING_HEAD_INDEX 0 0).setF F.CMD_RING_HEAD_PHASE 0 (1 - d.fld F.CMD_RING_HEAD_PHASE 0)).accept
        d.headEntry).examine) := by
  change execCommandAccept s = _
  simp only [execCommandAccept, State.upd, State.onDev, hawake, hacc, hnew, hres, Bool.not_false, Bool.and_self, Bool.false_eq_true,
    if_false, if_true, ge_iff_le, ← Nat.not_lt, ite_not]

/-! Starts. -/

/-- The deadline of a command that may start has not passed. -/
theorem deadline_ahead {d : Dev} {e : List Byte} (hin : ceOp e = 4 ∨ ceDl e = false ∨ d.cmdNt ≤ ceDeadline e) :
    (decide (ceOp e ≠ 4) && ceDl e && decide (ceDeadline e < d.cmdNt)) = false := by
  rcases hin with h | h | h
  · rw [h]
    rfl
  · rw [h, Bool.and_false, Bool.false_and]
  · rw [decide_eq_false (Nat.not_lt.2 h), Bool.and_false]

section
variable {s : State} {seq : BitVec 64} {c : CmdS} (hc : s.dev.cmdOf seq.toNat = some c) (hnew : c.started = false)
include hc hnew

theorem exec_commandDeadline (hop : ceOp c.entry ≠ 4) (hdl : ceDl c.entry = true) (hnt : ceDeadline c.entry ≤ s.dev.cmdNt) :
    exec (.commandDeadline seq) s = .next (s.onDev fun d => d.complete seq.toNat 5 0 0) := by
  change execCommandDeadline seq s = _
  simp only [execCommandDeadline, State.upd, State.onDev, hc, hnew, hop, hdl, ge_iff_le, hnt, ne_eq, not_false_eq_true, decide_true,
    Bool.not_false, Bool.and_self, if_true]

variable (hmay : s.dev.mayStart c = true) (hen : s.dev.flag F.CMD_CTRL_EN 0 = true)
  (hin : ceOp c.entry = 4 ∨ ceDl c.entry = false ∨ s.dev.cmdNt ≤ ceDeadline c.entry)

include hmay hen hin

theorem exec_commandStart_of_other (hop : isSessOp (ceOp c.entry) = false) :
    exec (.commandStart seq) s = s.done (s.onDev fun d => d.startCmd seq.toNat) := by
  have hdl := deadline_ahead hin
  change execCommandStart seq s = _
  simp only [execCommandStart, hc, hnew, hmay, hen, gt_iff_lt, hdl, hop, Bool.not_true, Bool.not_false, Bool.or_self, Bool.false_eq_true,
    if_false, if_true]

theorem exec_commandStart_of_mirror (hop : isSessOp (ceOp c.entry) = true) (hrole : s.dev.role = 3) :
    exec (.commandStart seq) s = s.done (s.onDev fun d => d.complete seq.toNat 9 0 0) := by
  have hdl := deadline_ahead hin
  change execCommandStart seq s = _
  simp only [execCommandStart, hc, hnew, hmay, hen, gt_iff_lt, hdl, hop, hrole, decide_true, Bool.or_true, Bool.true_or, Bool.not_true,
    Bool.or_self, Bool.false_eq_true, if_false, if_true]

theorem exec_commandStart_of_session (hop : isSessOp (ceOp c.entry) = true) (hne : ceOp c.entry ≠ 1)
    (hrole : s.dev.role = 1 ∨ s.dev.role = 2) (hst : (s.dev.sess (ceSess c.entry)).state = 1) (hwin : s.dev.nwt.window = false)
    (hsave : s.dev.saveSleeps (s.dev.activeSess.toList ++ [ceSess c.entry]) = []) :
    exec (.commandStart seq) s = s.done ((s.sessionSwitch (ceSess c.entry)).onDev fun d => d.startCmd seq.toNat) := by
  have hdl := deadline_ahead hin
  have h0 : s.dev.role ≠ 0 := by omega
  have h3 : s.dev.role ≠ 3 := by omega
  have h5 : s.dev.role ≠ 5 := by omega
  have h4 : s.dev.role ≠ 4 := by omega
  change execCommandStart seq s = _
  simp only [execCommandStart, hc, hnew, hmay, hen, gt_iff_lt, hdl, hop, h0, h3, h4, h5, hne, hst, hwin, hsave, decide_true, decide_false,
    ne_eq, one_ne_zero, not_false_eq_true, Bool.not_true, Bool.or_self, Bool.and_false, Bool.false_eq_true, if_false, if_true]
  rfl

end

theorem exec_cmdNop {s : State} {seq : BitVec 64} {c : CmdS} (hc : s.dev.running seq.toNat 0 = some c) :
    exec (.cmdNop seq) s = .next (s.onDev fun d => d.complete seq.toNat 0 0 0) := by
  change execCmdNop seq s = _
  simp only [execCmdNop, State.upd, State.onDev, hc]

/-! The registers of the engine. -/

theorem exec_ringReset (s : State) : exec .ringReset s = .next (s.onDev fun d => d.ringResetCmd) := rfl

theorem Dev.ringResetCmd_eq (d : Dev) :
    d.ringResetCmd =
      let e := (d.setF F.CMD_RING_HEAD_INDEX 0 0).setF F.CMD_RING_HEAD_PHASE 0 1
      let g := e.each (List.range e.ringLen) fun x i =>
        let v := leAt (x.getJ (e.ringAt + 64 * i) 1) 0 1
        if v % 2 = 1 then x.putJ (e.ringAt + 64 * i) (leBytes 1 (v - 1)) else x
      { (g.setF F.CMD_STATUS_RESETTING 0 1) with accWaited := false } := rfl

theorem exec_en (s : State) (v : Bool) : exec (.en v) s = .next (s.onDev fun d => d.wrCmdEn v) := rfl

theorem Dev.wrCmdEn_of_not_ready {d : Dev} (h : d.fld F.BSQ_STATUS_STATE 0 ≠ 2) : d.wrCmdEn true = d := by
  simp only [Dev.wrCmdEn, ne_eq, h, not_false_eq_true, decide_true, Bool.and_self, if_true]

theorem Dev.wrCmdEn_of_change {d : Dev} {v : Bool} (h : v = false ∨ d.fld F.BSQ_STATUS_STATE 0 = 2) (hne : d.flag F.CMD_CTRL_EN 0 ≠ v) :
    d.wrCmdEn v = (d.setB F.CMD_CTRL_EN 0 v).examine := by
  have hok : (v && decide (d.fld F.BSQ_STATUS_STATE 0 ≠ 2)) = false := by
    rcases h with h | h
    · rw [h, Bool.false_and]
    · rw [h]
      exact Bool.and_false v
  simp only [Dev.wrCmdEn, hok, hne, Bool.false_eq_true, if_false]

theorem exec_pause {s : State} {v : Bool} (hne : s.dev.flag F.CMD_CTRL_PAUSE 0 ≠ v) :
    exec (.pause v) s = .next (s.onDev fun d => (d.setB F.CMD_CTRL_PAUSE 0 v).examine) := by
  change execPause v s = _
  simp only [execPause, State.upd, State.onDev, Dev.wrCmdPause, hne, if_false]

/-! Host rings. -/

/-- The device that has forgotten what it last told of a host ring. -/
def Dev.ntfForgot (d : Dev) (r : Nat) : Dev := { d with ntfOut := d.ntfOut.filter fun x => x != r }

/-- The device with a new HEAD of a host ring. -/
def Dev.hrMoved (d : Dev) (r v : Nat) : Dev :=
  (d.setF F.CMD_HRING_HEAD_OFFSET 0 (bitsOf v 0 22) r).setF F.CMD_HRING_HEAD_WRAP 0 (bitsOf v 22 1) r

/-- A HEAD that a host ring takes: a multiple of 64 inside the ring that does not pass TAIL and leaves no more in the ring. -/
def Dev.hrTakes (d : Dev) (r v : Nat) : Prop :=
  bitsOf v 0 22 % 64 = 0 ∧ bitsOf v 0 22 < d.hrSize r ∧
    ¬ (bitsOf v 22 1 = d.fld F.CMD_HRING_TAIL_WRAP 0 r ∧ d.fld F.CMD_HRING_TAIL_OFFSET 0 r < bitsOf v 0 22) ∧
    (d.hrMoved r v).hrUsed r ≤ d.hrUsed r

theorem exec_cmdHringHead (s : State) (ring : Fin 3) (v : Word) :
    exec (.cmdHringHead ring v) s = .next (s.onDev fun d => d.wrHringHead ring.val v.toNat) := rfl

/-- The condition that the write of HEAD evaluates. -/
def Dev.hrTest (d : Dev) (r v : Nat) : Bool :=
  bitsOf v 0 22 % 64 = 0 && bitsOf v 0 22 < d.hrSize r &&
    !(decide (bitsOf v 22 1 = d.fld F.CMD_HRING_TAIL_WRAP 0 r) && decide (bitsOf v 0 22 > d.fld F.CMD_HRING_TAIL_OFFSET 0 r)) &&
    (d.hrMoved r v).hrUsed r ≤ d.hrUsed r

theorem Dev.hrTest_iff (d : Dev) (r v : Nat) : d.hrTest r v = true ↔ d.hrTakes r v := by
  simp only [Dev.hrTest, Dev.hrTakes, Bool.and_eq_true, Bool.not_eq_true', Bool.and_eq_false_iff, decide_eq_true_eq, decide_eq_false_iff_not,
    gt_iff_lt, not_and_or, and_assoc]

theorem Dev.wrHringHead_eq (d : Dev) (r v : Nat) :
    d.wrHringHead r v = if (d.ntfForgot r).hrTest r v then ((d.ntfForgot r).hrMoved r v).examine
      else (d.ntfForgot r).setF F.CMD_HRING_CFG_HEAD_REJ 0 1 r := rfl

theorem Dev.wrHringHead_of_takes {d : Dev} {r v : Nat} (h : (d.ntfForgot r).hrTakes r v) :
    d.wrHringHead r v = ((d.ntfForgot r).hrMoved r v).examine :=
  (Dev.wrHringHead_eq ..).trans (if_pos ((Dev.hrTest_iff ..).2 h))

theorem Dev.wrHringHead_of_not {d : Dev} {r v : Nat} (h : ¬ (d.ntfForgot r).hrTakes r v) :
    d.wrHringHead r v = (d.ntfForgot r).setF F.CMD_HRING_CFG_HEAD_REJ 0 1 r :=
  (Dev.wrHringHead_eq ..).trans (if_neg fun ht => h ((Dev.hrTest_iff ..).1 ht))

theorem exec_hostRingReset {s : State} {ring : Fin 3} (hen : s.dev.flag F.CMD_HRING_CFG_EN 0 ring.val = false) :
    exec (.hostRingReset ring) s = .next (s.onDev fun d =>
      (d.setR R.CMD_HRING_HEAD 0 0 ring.val).setR R.CMD_HRING_TAIL 0 0 ring.val) := by
  change execHostRingReset ring s = _
  simp only [execHostRingReset, State.upd, State.onDev, Dev.hringReset, hen, Bool.false_eq_true, if_false]

theorem exec_jnlMirrorLag {s : State} {w : JnlWait} (hw : (s.dev.jwait.find? fun w => !w.lagged) = some w) :
    exec .jnlMirrorLag s = .next (s.onDev fun d =>
      ({ d with jwait := d.jwait.map fun x => if x = w then { x with lagged := true } else x } : Dev).record (evU bJNL 0) 1 1 0) := by
  change execJnlMirrorLag s = _
  simp only [execJnlMirrorLag, State.upd, State.onDev, hw]

/-- Settles O47, command by command. -/
theorem commandEngineTakesEffect : Obligations.CommandEngineTakesEffect := by
  unfold Obligations.CommandEngineTakesEffect
  intro s seq ring
  refine ⟨fun hawake hres hnew hacc hwait => ?_, exec_commandAccept_of_rest, exec_commandAccept,
    fun c hc hnew hmay hen hin => ⟨fun hop => State.gives_of_done (exec_commandStart_of_other hc hnew hmay hen hin hop),
      fun hop hrole => State.gives_of_done (exec_commandStart_of_mirror hc hnew hmay hen hin hop hrole),
      fun hop hne hrole hst hwin hsave =>
        State.gives_of_done (exec_commandStart_of_session hc hnew hmay hen hin hop hne hrole hst hwin hsave)⟩,
    fun c hc hnew hop hdl hnt => exec_commandDeadline hc hnew hop hdl hnt, fun c => exec_cmdNop, ?_, rfl, fun h => ?_, fun v hv hne => ?_,
    fun v => exec_pause, fun v => ⟨fun hmul hlt hpast hused => ?_, fun hbad => ?_⟩, exec_hostRingReset, fun w => exec_jnlMirrorLag⟩
  · exact (exec_commandEntryExamine hawake).trans (next_onDev_congr (Dev.examine_of_waits hres hnew hacc hwait))
  · exact (exec_ringReset s).trans (next_onDev_congr (Dev.ringResetCmd_eq ..))
  · exact (exec_en s true).trans (next_onDev_congr (g := fun d => d) (Dev.wrCmdEn_of_not_ready h))
  · exact (exec_en s v).trans (next_onDev_congr (Dev.wrCmdEn_of_change hv hne))
  · exact (exec_cmdHringHead s ring v).trans (next_onDev_congr (Dev.wrHringHead_of_takes ⟨hmul, hlt, hpast, hused⟩))
  · refine (exec_cmdHringHead s ring v).trans (next_onDev_congr (Dev.wrHringHead_of_not fun ⟨hmul, hlt, hpast, hused⟩ => ?_))
    rcases hbad with hbad | hbad | hbad | hbad
    · exact hbad hmul
    · exact absurd hlt (Nat.not_lt.2 hbad)
    · exact hpast hbad
    · exact absurd hused (Nat.not_le.2 hbad)

end Sys2Proof.Machine
end

section
/-! PROOF. REGION_RELOAD, TEST and POWER_PREF (spec/16_start_and_configuration.md R543, R544; spec/18_spares_and_testing.md R595;
spec/12_power_control.md R466). -/

namespace Sys2Proof.Machine

/-! REGION_RELOAD. -/

section
variable {s : State} {seq : BitVec 64} {c : CmdS} {img : Image} {check : CopyCheck} (hc : s.dev.running seq.toNat 0x20 = some c)
include hc

theorem exec_regionReload_of_ok (hok : s.reloadBad c.entry img check = none) (st : BitVec 3) :
    exec (.regionReload seq img check st) s = s.done
      ((s.reloadApply img (rrKind c.entry) (rrRange c.entry) (rrRoot c.entry) st.toNat).onDev fun d =>
        ((d.adopt (manifestOf s.flash (rrCopy c.entry)) (match d.boot.image with
            | some old => mergeImage old img (rrKind c.entry) (rrRange c.entry)
            | none => img) (rrCopy c.entry) d.boot.n).complete seq.toNat 0
          ((manifestOf s.flash (rrCopy c.entry)).reloadCount (rrKind c.entry) (rrRange c.entry))
          (if rrKind c.entry = 3 then st.toNat else 0)).bootDom) := by
  change execRegionReload seq img check st s = _
  simp only [execRegionReload, hc, hok] <;> rfl

theorem exec_regionReload_of_bad {v : Nat} (hbad : s.reloadBad c.entry img check = some v) (st : BitVec 3) :
    exec (.regionReload seq img check st) s =
      s.done (s.onDev fun d => ((d.complete seq.toNat v 0 0).raise (evU bBSQ 0) 6 1 0).bootDom) := by
  change execRegionReload seq img check st s = _
  simp only [execRegionReload, hc, hbad]

end

/-! TEST. -/

/-- An outcome that answers a change of a state that kept the queue gives that state. -/
theorem State.gives_next {s x : State} {o : Host.Outcome State Fault Refusal} (h : o = .next x) (hp : x.pending = s.pending) : s.Gives o x :=
  ⟨x, h, hp, rfl, fun _ => rfl, fun _ => rfl, fun _ => rfl, fun _ => rfl⟩

/-- A test of one unit visits it where it is of the target and may be tested. -/
theorem State.testRun_one (s : State) (p0 : Nat) (v : UnitVisit) :
    s.testRun p0 [v] = if s.dev.inTarget p0 v.unit && s.dev.visitOk v.unit then (s.visit v 4, v.passes, b2n (s.dev.confirms v))
      else (s, 0, 0) := by
  simp only [State.testRun, List.foldl_cons, List.foldl_nil, Nat.zero_add]

section
variable {s : State} {seq : BitVec 64} {c : CmdS} (hc : s.dev.running seq.toNat 0x21 = some c) (cores clusters ldos : List UnitVisit)
include hc

theorem exec_test_of_bad (hbad : bitsOf (ceP c.entry 1) 0 16 = 0 ∨ s.dev.testTarget (ceP c.entry 0) = false) :
    exec (.test seq cores clusters ldos) s = .next (s.onDev fun d => d.complete seq.toNat 3 0 0) := by
  have hno : (decide (bitsOf (ceP c.entry 1) 0 16 = 0) || !s.dev.testTarget (ceP c.entry 0)) = true := by
    rcases hbad with h | h
    · rw [decide_eq_true h, Bool.true_or]
    · rw [h, Bool.not_false, Bool.or_true]
  change execTest seq cores clusters ldos s = _
  simp only [execTest, hc, hno, if_true, State.upd, State.onDev]

variable (hn : bitsOf (ceP c.entry 1) 0 16 ≠ 0) (ht : s.dev.testTarget (ceP c.entry 0) = true)
include hn ht

theorem exec_test_of_hold (hold : bitOf (ceP c.entry 0) 33 = true) (hwin : s.dev.nwt.window = false) :
    exec (.test seq cores clusters ldos) s =
      .next (s.onDev fun d => (d.modNwt fun x => { x with test := some (ceP c.entry 0) }).windowAsk) := by
  change execTest seq cores clusters ldos s = _
  simp only [execTest, hc, hn, ht, hold, hwin, decide_false, Bool.not_true, Bool.or_self, Bool.false_and, Bool.not_false, Bool.and_self,
    Bool.false_eq_true, if_false, if_true, State.upd, State.onDev]

/-- A TEST without HOLD runs on its units at once. -/
theorem exec_test_of_run (hold : bitOf (ceP c.entry 0) 33 = false) :
    exec (.test seq cores clusters ldos) s =
      .next ((s.testRun (ceP c.entry 0) (cores ++ clusters ++ ldos)).1.onDev fun d =>
        d.vc1Done.complete seq.toNat 0 ((s.testRun (ceP c.entry 0) (cores ++ clusters ++ ldos)).2.1 % 2 ^ 64)
          (s.testRun (ceP c.entry 0) (cores ++ clusters ++ ldos)).2.2) := by
  change execTest seq cores clusters ldos s = _
  simp only [execTest, hc, hn, ht, hold, decide_false, Bool.not_true, Bool.or_self, Bool.false_and, Bool.false_eq_true, if_false,
    State.upd, State.onDev, Dev.each, List.foldl_nil]

end

/-! POWER_PREF. -/

/-- A number whose 17 low bits are 0 has no cap and no CLEAR. -/
theorem bits_of_low_zero {x : Nat} (h : bitsOf x 0 17 = 0) : bitsOf x 0 16 = 0 ∧ bitOf x 16 = false := by
  simp only [bitsOf, bitOf, pow_zero, Nat.div_one, beq_eq_false_iff_ne] at h ⊢
  omega

theorem exec_powerPref {s : State} {seq : BitVec 64} {c : CmdS} (hc : s.dev.running seq.toNat 0x22 = some c)
    (hkeep : bitOf (ceP c.entry 0) 32 = false) (hall : bitOf (ceP c.entry 0) 6 = false) (hlvl : bitsOf (ceP c.entry 0) 8 2 ≠ 3)
    (hf : bitsOf (ceP c.entry 0) 24 6 ≤ 36) (hsw : bitsOf (ceP c.entry 1) 0 17 = 0) :
    exec (.powerPref seq) s = .next (s.onDev fun d =>
      let ph := bitsOf (ceP c.entry 0) 0 6
      let g := d.modPwr fun p => { p with prefs := sset p.prefs 1 ph (prefNew (ceP c.entry 0)) }
      g.complete seq.toNat 0 (d.prefEntry ph)
        (g.effCap (g.pwr.pendSel.getD (g.fld F.PWR_CAP_SEL 0)) (g.pwr.pendSw.getD (g.fld F.PWR_CAP_SW_CAP 0)))) := by
  obtain ⟨hcap, hclear⟩ := bits_of_low_zero hsw
  have hle : ¬ 36 < bitsOf (ceP c.entry 0) 24 6 := by omega
  change execPowerPref seq s = _
  simp only [execPowerPref, State.upd, State.onDev, hc, hkeep, hall, hlvl, gt_iff_lt, hle, hcap, hclear, ne_eq, not_true_eq_false,
    decide_false, Bool.false_and, Bool.or_self, Bool.false_eq_true, if_false, Dev.putPref]

/-- Settles O49, command by command. -/
theorem deviceCommandsComplete : Obligations.DeviceCommandsComplete := by
  unfold Obligations.DeviceCommandsComplete
  intro s seq c
  refine ⟨fun img check st hc hok => State.gives_of_done (exec_regionReload_of_ok hc hok st),
    fun img check st v hc hbad => State.gives_of_done (exec_regionReload_of_bad hc hbad st),
    fun v cores clusters ldos hv hc hn ht hold hin hok hlt => ?_, fun v cores clusters ldos hv hc hn ht hold hout => ?_,
    fun cores clusters ldos hc => exec_test_of_bad hc cores clusters ldos,
    fun cores clusters ldos hc hn ht => exec_test_of_hold hc cores clusters ldos hn ht, exec_powerPref⟩
  · have hrun := exec_test_of_run hc cores clusters ldos hn ht hold
    rw [hv, State.testRun_one, hin, hok, Bool.and_self, if_pos rfl, Nat.mod_eq_of_lt hlt] at hrun
    exact State.gives_next hrun (State.keeps_visit s v 4).1
  · have hrun := exec_test_of_run hc cores clusters ldos hn ht hold
    have hno : ¬ (s.dev.inTarget (ceP c.entry 0) v.unit && s.dev.visitOk v.unit) = true := by
      rcases hout with h | h
      · simp only [h, Bool.false_and, Bool.false_eq_true, not_false_eq_true]
      · simp only [h, Bool.and_false, Bool.false_eq_true, not_false_eq_true]
    rw [hv, State.testRun_one, if_neg hno] at hrun
    exact State.gives_next hrun rfl

end Sys2Proof.Machine
end

section
/-! PROOF. Chip-to-chip links (spec/10_links_and_pairs.md R380 to R400). -/

namespace Sys2Proof.Machine

/-! Blocks. -/

section
variable {s : State} {l : Nat} {b : LinkBlk}

theorem State.linkBlock_of_uncorrectable (herrs : 15 < b.errs.eraseDups.length) (hnak : (s.dev.lnk l).nakDue = false) :
    s.linkBlock l b = s.onDev fun d =>
      ((d.addSat F.LNK_ERR_UNCORR l 1).modLnk l fun x => { x with nakDue := true }).ackOut l true := by
  have hstill : ((s.dev.addSat F.LNK_ERR_UNCORR l 1).lnk l).nakDue = false := hnak
  simp only [State.linkBlock, List.length_map, gt_iff_lt, herrs, if_true, State.onDev, Dev.nakOnce, hstill, Bool.false_eq_true, if_false]

theorem State.linkBlock_of_refused (herrs : b.errs = []) (hnum : (blockCells b.msg).all quietCell = false)
    (hbad : blockBsn b.msg ≠ (s.dev.lnk l).expBsn ∨ (blockCells b.msg).contains .reserved = true)
    (hnak : (s.dev.lnk l).nakDue = true) : s.linkBlock l b = s := by
  have hrefused : (decide (blockBsn b.msg ≠ (s.dev.lnk l).expBsn) || (blockCells b.msg).contains .reserved) = true := by
    simpa using hbad
  simp only [State.linkBlock, herrs, List.eraseDups_nil, List.map_nil, List.length_nil, gt_iff_lt, Nat.not_lt_zero, if_false,
    List.isEmpty_nil, if_true, hnum, Bool.false_eq_true, hrefused, State.onDev, Dev.nakOnce, hnak]

/-- A numbered block of one packet cell. -/
theorem State.linkBlock_of_next {p : BitVec 1024} (herrs : b.errs = []) (hcells : blockCells b.msg = [.data p, .idle, .idle, .idle, .idle])
    (hbsn : blockBsn b.msg = (s.dev.lnk l).expBsn) :
    s.linkBlock l b = (((s.onDev fun d => d.modLnk l fun x =>
        { x with expBsn := (x.expBsn + 1) % 1024, nakDue := false, accepted := x.accepted + 1 }).linkCell l (.data p)).onDev
          fun d => let g := d.grantDue l; if (g.lnk l).accepted ≥ 64 then g.ackOut l false else g) := by
  have hnum : [LinkCell.data p, .idle, .idle, .idle, .idle].all quietCell = false := rfl
  have hres : [LinkCell.data p, .idle, .idle, .idle, .idle].contains .reserved = false := rfl
  simp only [State.linkBlock, herrs, List.eraseDups_nil, List.map_nil, List.length_nil, gt_iff_lt, Nat.not_lt_zero, if_false,
    List.isEmpty_nil, if_true, hcells, hnum, hres, Bool.false_eq_true, hbsn, ne_eq, not_true_eq_false, decide_false, Bool.or_self]
  rfl

theorem State.linkBlock_of_corrected {e : Fin 544} (herrs : b.errs = [e]) (hcells : blockCells b.msg = [.idle, .idle, .idle, .idle, .idle]) :
    s.linkBlock l b = s.onDev fun d => (d.laneErrs l [e.val]).laneLook l := by
  have hone : [e].eraseDups = [e] := rfl
  have hidle : [LinkCell.idle, .idle, .idle, .idle, .idle].all quietCell = true := rfl
  simp only [State.linkBlock, herrs, hone, List.map_cons, List.map_nil, List.length_cons, List.length_nil, hcells, hidle, if_true]
  rfl

end

theorem exec_linkBlock {s : State} {l : Fin 48} (hup : s.dev.linkIsUp l.val = true) (b : LinkBlk) :
    exec (.linkBlock l b) s = s.done (s.linkBlock l.val b) := by
  change execLinkBlock l b s = _
  simp only [execLinkBlock, hup, if_true]

/-! Acknowledgement items and timers. -/

/-- An ACK item that covers the oldest block alone frees it and returns its credit. -/
theorem Dev.ackIn_oldest {d : Dev} {l bsn cr : Nat} {a : Nat × List LinkCell} {r : List (Nat × List LinkCell)}
    (hq : (d.lnk l).replay = a :: r) (hbsn : bsn = (a.1 + 1) % 1024) (ha : a.1 < 1024)
    (hsleep : (d.lnk l).sleepSent = false) (hres : (d.lnk l).resume = false) :
    d.ackIn l false bsn cr = ((d.modLnk l fun x => { x with replay := r, resume := false, sleepSent := false }).setF
      F.LNK_STATUS_CREDITS l (min 256 (d.fld F.LNK_STATUS_CREDITS l + cr))).linkGo l := by
  have hk : (bsn + 1024 - a.1) % 1024 = 1 := by omega
  have hle : 1 ≤ r.length + 1 := by omega
  simp only [Dev.ackIn, hq, hk, List.length_cons, hle, if_true, List.drop_succ_cons, List.drop_zero, hsleep, hres, Bool.false_and,
    Bool.or_self, Bool.false_eq_true, if_false]
  simp only [Dev.modLnk, hsleep]
  rfl

section
variable {s : State} {l : Fin 48} (hup : s.dev.linkIsUp l.val = true)
include hup

theorem exec_ackItem (nak : Bool) (bsn : BitVec 10) (cr : BitVec 16) :
    exec (.ackItem l nak bsn cr) s = .next (s.onDev fun d => d.ackIn l.val nak bsn.toNat cr.toNat) := by
  change execAckItem l nak bsn cr s = _
  simp only [execAckItem, State.upd, State.onDev, hup, if_true]

theorem exec_nakResendTimer (hnak : (s.dev.lnk l.val).nakDue = true) :
    exec (.nakResendTimer l) s = .next (s.onDev fun d => d.ackOut l.val true) := by
  change execNakResendTimer l s = _
  simp only [execNakResendTimer, State.upd, State.onDev, hup, hnak, Bool.and_self, if_true]

theorem exec_ackSendTimer (hacc : (s.dev.lnk l.val).accepted ≠ 0) :
    exec (.ackSendTimer l) s = .next (s.onDev fun d => d.ackOut l.val false) := by
  change execAckSendTimer l s = _
  simp only [execAckSendTimer, State.upd, State.onDev, hup, hacc, ne_eq, not_false_eq_true, decide_true, Bool.true_or, Bool.and_self,
    if_true]

end

/-! Fast retraining. -/

theorem Dev.fastRetrain_of_up {d : Dev} {l : Nat} (hup : d.linkIsUp l = true) :
    d.fastRetrain l = (((d.setF F.LNK_STATUS_STATE l 1).addSat F.LNK_ERR_RETRAINS l 1).modLnk l fun x =>
      { x with retraining := true, nakRun := 0 }) := by
  rw [Dev.fastRetrain, if_pos hup]

theorem exec_fastRetrain {s : State} {l : Fin 48} (hq : (s.dev.lnk l.val).replay ≠ []) :
    exec (.fastRetrain l) s = .next (s.onDev fun d => d.fastRetrain l.val) := by
  change execFastRetrain l s = _
  simp only [execFastRetrain, State.upd, State.onDev, List.isEmpty_iff, hq, if_false]

theorem exec_linkRetrain (s : State) (l : Fin 48) : exec (.linkRetrain l) s = .next (s.onDev fun d => d.fastRetrain l.val) := rfl

/-! The lanes that training found. -/

/-- The receive direction shows its good lanes and forgets what it had asked for. -/
def Dev.lanesFound (d : Dev) (l : Nat) (good : List Nat) : Dev :=
  (d.setF F.LNK_STATUS_GOOD_LANES l good.length).modLnk l fun x =>
    { x with badLanes := (List.range 9).filter fun k => !good.contains k, halfDue := false, asked := none, grant := none }

@[simp] theorem Dev.lnk_setSpare (d : Dev) (l v : Nat) (lane : Option Nat) : (d.setSpare l lane).lnk v = d.lnk v := by
  cases lane <;> rfl

theorem Dev.setSpare_none (d : Dev) (l : Nat) :
    d.setSpare l none = (d.setF F.LNK_LANE_SPARE l 15).setF F.LNK_STATUS_SPARE_OK l 0 := rfl

theorem Dev.setSpare_some (d : Dev) (l lane : Nat) :
    d.setSpare l (some lane) = (d.setF F.LNK_LANE_SPARE l lane).setF F.LNK_STATUS_SPARE_OK l 1 := rfl

/-- Naming the spare keeps the other fields of LNK_STATUS. -/
theorem Dev.fld_setSpare {f : Fld} (hreg : f.reg = R.LNK_STATUS) (hapart : f.lo + f.width ≤ 3 ∨ 4 ≤ f.lo) (d : Dev) (l : Nat)
    (lane : Option Nat) : (d.setSpare l lane).fld f l = d.fld f l := by
  have hcode : f.reg.code ≠ R.LNK_LANE.code := by rw [hreg]; decide
  cases lane with
  | none =>
    exact (Dev.fld_setF_apart (f := F.LNK_STATUS_SPARE_OK) hreg (by decide) hapart _ l 0 0).trans
      (Dev.fld_setF_other (f := F.LNK_LANE_SPARE) hcode d l 15 0)
  | some n =>
    exact (Dev.fld_setF_apart (f := F.LNK_STATUS_SPARE_OK) hreg (by decide) hapart _ l 1 0).trans
      (Dev.fld_setF_other (f := F.LNK_LANE_SPARE) hcode d l n 0)

/-- A new lane map keeps the fields of LNK_STATUS. -/
theorem Dev.fld_remap {f : Fld} (hreg : f.reg = R.LNK_STATUS) (d : Dev) (l : Nat) (lanes : List Nat) :
    (d.remap l lanes).fld f l = d.fld f l :=
  Dev.fld_setF_other (f := F.LNK_LANE_MAP) (by rw [hreg]; decide) d l _ 0

/-- What the receive direction shows after training: its width, then the map and the spare. -/
theorem Dev.lanesSet_shape (d : Dev) (l : Nat) (good : List Nat) :
    ∃ lane : Option Nat, ∃ e : Dev, d.lanesSet l good = e.setSpare l lane ∧
      (let e0 := (d.lanesFound l good).setF F.LNK_STATUS_HALF l (b2n ((d.lnk l).halfDue || decide (good.length < 8)))
       e = e0 ∨ ∃ lanes, e = e0.remap l lanes) := by
  cases hhalf : ((d.lnk l).halfDue || decide (good.length < 8))
  · cases hkeep : (!d.flag F.LNK_STATUS_HALF l && decide (((List.range 8).map fun p => d.laneAt l p).eraseDups.length = 8) &&
      ((List.range 8).map fun p => d.laneAt l p).all fun x => good.contains x)
    · refine ⟨good.find? fun x => !(good.take 8).contains x, _, ?_, .inr ⟨good.take 8, rfl⟩⟩
      simp only [Dev.lanesSet, hhalf, hkeep, Bool.false_eq_true, if_false, Dev.lanesFound, b2n]
    · refine ⟨good.find? fun x => !((List.range 8).map fun p => d.laneAt l p).contains x, _, ?_, .inl rfl⟩
      simp only [Dev.lanesSet, hhalf, hkeep, Bool.false_eq_true, if_false, if_true, Dev.lanesFound, b2n]
  · refine ⟨none, _, ?_, .inr ⟨good.take 4, rfl⟩⟩
    simp only [Dev.lanesSet, hhalf, if_true, Dev.lanesFound, b2n]

theorem Dev.fld_lanesSet {f : Fld} (hreg : f.reg = R.LNK_STATUS) (hapart : f.lo + f.width ≤ 3 ∨ 4 ≤ f.lo) (d : Dev) (l : Nat)
    (good : List Nat) : (d.lanesSet l good).fld f l =
      ((d.lanesFound l good).setF F.LNK_STATUS_HALF l (b2n ((d.lnk l).halfDue || decide (good.length < 8)))).fld f l := by
  obtain ⟨lane, e, heq, hmap⟩ := d.lanesSet_shape l good
  rw [heq, Dev.fld_setSpare hreg hapart]
  rcases hmap with rfl | ⟨lanes, rfl⟩
  · rfl
  · exact Dev.fld_remap hreg _ l lanes

theorem Dev.lnk_lanesSet (d : Dev) (l : Nat) (good : List Nat) (v : Nat) : (d.lanesSet l good).lnk v = (d.lanesFound l good).lnk v := by
  obtain ⟨lane, e, heq, hmap⟩ := d.lanesSet_shape l good
  rw [heq, Dev.lnk_setSpare]
  rcases hmap with rfl | ⟨lanes, rfl⟩
  · exact Dev.lnk_setF ..
  · exact (Dev.lnk_setF ..).trans (Dev.lnk_setF ..)

theorem Dev.goodLanes_lanesSet {good : List Nat} (hgood : good.length ≤ 9) (d : Dev) (l : Nat) :
    (d.lanesSet l good).fld F.LNK_STATUS_GOOD_LANES l = good.length := by
  rw [Dev.fld_lanesSet rfl (by decide),
    Dev.fld_setF_apart (f := F.LNK_STATUS_HALF) (g := F.LNK_STATUS_GOOD_LANES) rfl (by decide) (by decide)]
  refine Dev.fld_setF_self_of_lt (f := F.LNK_STATUS_GOOD_LANES) (by decide) ?_ d l 0
  exact Nat.lt_of_le_of_lt hgood (by decide)

theorem Dev.half_lanesSet (d : Dev) (l : Nat) (good : List Nat) :
    (d.lanesSet l good).flag F.LNK_STATUS_HALF l = ((d.lnk l).halfDue || decide (good.length < 8)) := by
  rw [Dev.flag, Dev.fld_lanesSet rfl (by decide)]
  generalize ((d.lnk l).halfDue || decide (good.length < 8)) = half
  rw [Dev.fld_setF_self_of_lt (f := F.LNK_STATUS_HALF) (by decide) (by cases half <;> decide)]
  cases half <;> rfl

theorem Dev.txHalf_txSet (d : Dev) (l : Nat) (good : List Nat) : ((d.txSet l good).lnk l).txHalf = decide (good.length < 8) := by
  rw [Dev.txSet, Dev.lnk_modLnk_self]

/-- An ACK item without NAK writes no register and keeps the width of the send direction. -/
theorem Dev.fld_ackOut_false (d : Dev) (l : Nat) (f : Fld) (v : Nat) : (d.ackOut l false).fld f v = d.fld f v := rfl

theorem Dev.txHalf_ackOut_false (d : Dev) (l : Nat) : ((d.ackOut l false).lnk l).txHalf = (d.lnk l).txHalf := by
  simp only [Dev.ackOut, Bool.false_eq_true, if_false, Dev.lnk_modLnk_self]
  rfl

/-- The link after a good fast retrain: its lanes, UP, and an ACK that resumes it. -/
def Dev.resumed (d : Dev) (l : Nat) (good tx : List Nat) : Dev :=
  ((((d.lanesSet l good).txSet l tx).setF F.LNK_STATUS_STATE l 2).modLnk l fun x =>
    { x with retraining := false, resume := true }).ackOut l false

theorem Dev.half_resumed (d : Dev) (l : Nat) (good tx : List Nat) :
    (d.resumed l good tx).flag F.LNK_STATUS_HALF l = ((d.lnk l).halfDue || decide (good.length < 8)) := by
  rw [← Dev.half_lanesSet, Dev.resumed, Dev.flag, Dev.fld_ackOut_false, Dev.flag]
  exact congrArg (· == 1) (Dev.fld_setF_apart (f := F.LNK_STATUS_STATE) (g := F.LNK_STATUS_HALF) rfl (by decide) (by decide) _ l 2 0)

theorem Dev.txHalf_resumed (d : Dev) (l : Nat) (good tx : List Nat) :
    ((d.resumed l good tx).lnk l).txHalf = decide (tx.length < 8) := by
  rw [Dev.resumed, Dev.txHalf_ackOut_false, Dev.lnk_modLnk_self]
  exact (d.lanesSet l good).txHalf_txSet l tx

theorem Dev.retraining_txSet (d : Dev) (l : Nat) (good tx : List Nat) :
    (((d.lanesSet l good).txSet l tx).lnk l).retraining = (d.lnk l).retraining := by
  rw [Dev.txSet, Dev.lnk_modLnk_self, Dev.lnk_lanesSet, Dev.lanesFound, Dev.lnk_modLnk_self]
  rfl

theorem exec_fastRetrainEnd {s : State} {l : Fin 48} {lanes : BitVec 18} (hst : s.dev.fld F.LNK_STATUS_STATE l.val = 1)
    (hrun : (s.dev.lnk l.val).retraining = true) (htx : 8 ≤ (goodTx lanes.toNat).length)
    (hrx : 8 ≤ (s.dev.goodRx l.val lanes.toNat).length) (hhalf : (s.dev.lnk l.val).halfDue = false) :
    exec (.fastRetrainEnd l true lanes) s =
      .next (s.onDev fun d => d.resumed l.val (s.dev.goodRx l.val lanes.toNat) (goodTx lanes.toNat)) := by
  have htx4 : ¬ (goodTx lanes.toNat).length < 4 := by omega
  have hrx4 : ¬ (s.dev.goodRx l.val lanes.toNat).length < 4 := by omega
  have hrx8 : ¬ (s.dev.goodRx l.val lanes.toNat).length < 8 := by omega
  have htx8 : ¬ (goodTx lanes.toNat).length < 8 := by omega
  have hwide := s.dev.half_resumed l.val (s.dev.goodRx l.val lanes.toNat) (goodTx lanes.toNat)
  have hwideTx := s.dev.txHalf_resumed l.val (s.dev.goodRx l.val lanes.toNat) (goodTx lanes.toNat)
  rw [hhalf, decide_eq_false hrx8, Bool.or_self, Dev.resumed] at hwide
  rw [decide_eq_false htx8, Dev.resumed] at hwideTx
  change execFastRetrainEnd l true lanes s = _
  simp only [execFastRetrainEnd, State.upd, State.onDev, hst, ne_eq, not_true_eq_false, Bool.not_true, Bool.false_eq_true, if_false,
    hrx4, htx4, decide_false, Bool.or_self, Dev.retraining_txSet, hrun, if_true, hwide, hwideTx, Bool.false_and, Dev.resumed]

/-! Lane sparing. -/

section
variable {s : State} {l : Fin 48} (hup : s.dev.linkIsUp l.val = true)
include hup

theorem exec_laneSwap_of_spare (hok : s.dev.flag F.LNK_STATUS_SPARE_OK l.val = true) (hask : (s.dev.lnk l.val).asked = none) (pos : Fin 8) :
    exec (.laneSwap l pos) s = .next (s.onDev fun d =>
      (d.modLnk l.val fun x => { x with asked := some pos.val }).linkItem l.val
        (.lane false (BitVec.ofNat 8 pos.val) (BitVec.ofNat 8 (d.fld F.LNK_LANE_SPARE l.val)) 0)) := by
  change execLaneSwap l pos s = _
  simp only [execLaneSwap, State.upd, State.onDev, Dev.laneSwap, hup, hok, hask, reduceCtorEq, decide_false, Bool.not_true, Bool.or_self,
    Bool.false_eq_true, if_false, Option.isNone_none, Bool.and_self, if_true]

theorem exec_laneRequest (pos : Fin 8) (phys : Fin 9) :
    exec (.laneRequest l pos phys) s = .next (s.onDev fun d =>
      (d.modLnk l.val fun x => { x with txGrant := some (pos.val, phys.val, ((s.dev.lnk l.val).nextBsn + 16) % 1024) }).linkItem l.val
        (.lane true (BitVec.ofNat 8 pos.val) (BitVec.ofNat 8 phys.val)
          (BitVec.ofNat 16 (((s.dev.lnk l.val).nextBsn + 16) % 1024)))) := by
  change execLaneRequest l pos phys s = _
  simp only [execLaneRequest, State.upd, State.onDev, Dev.laneRequest, hup, Bool.not_true, Bool.false_eq_true, if_false]

theorem exec_laneGrant_of_ahead {b : BitVec 10} (hb : (s.dev.lnk l.val).expBsn ≠ b.toNat) (pos : Fin 8) (phys : Fin 9) :
    exec (.laneGrant l pos phys b) s = .next (s.onDev fun d =>
      d.modLnk l.val fun x => { x with grant := some (pos.val, phys.val, b.toNat) }) := by
  change execLaneGrant l pos phys b s = _
  simp only [execLaneGrant, State.upd, State.onDev, Dev.laneGrant, hup, Bool.not_true, Bool.false_eq_true, if_false, Dev.grantDue,
    Dev.lnk_modLnk_self, ne_eq, hb, not_false_eq_true, if_true]

theorem exec_retrainLane_of_spare {lane : BitVec 4} (hok : s.dev.flag F.LNK_STATUS_SPARE_OK l.val = true)
    (hask : (s.dev.lnk l.val).asked = none) (hlane : lane.toNat = s.dev.fld F.LNK_LANE_SPARE l.val) :
    exec (.retrainLane l lane) s = .next (s.onDev fun d =>
      ((d.setF F.LNK_LANE_SPARE l.val 15).setF F.LNK_STATUS_SPARE_OK l.val 0).modLnk l.val fun x =>
        { x with laneTrain := some lane.toNat }) := by
  change execRetrainLane l lane s = _
  simp only [execRetrainLane, State.upd, State.onDev, Dev.retrainLane, hup, hok, hask, Option.isSome_none, Bool.not_true, Bool.or_self,
    Bool.false_eq_true, if_false, ← hlane, if_true, Dev.setSpare_none]

theorem exec_linkSleep (hsent : (s.dev.lnk l.val).sleepSent = false) (hheld : s.dev.quadHeld (l.val / 4) = false) :
    exec (.linkSleep l) s =
      .next (s.onDev fun d => (d.linkItem l.val .sleep).modLnk l.val fun x => { x with sleepSent := true }) := by
  change execLinkSleep l s = _
  simp only [execLinkSleep, State.upd, State.onDev, Dev.linkSleep, hup, hsent, hheld, Bool.not_false, Bool.and_self, if_true]

end

theorem exec_laneRetrainDone_good {s : State} {l : Fin 48} {lane : Fin 9} (hrun : (s.dev.lnk l.val).laneTrain = some lane.val) :
    exec (.laneRetrainDone l lane true) s = .next (s.onDev fun d =>
      ((d.modLnk l.val fun x => { x with laneTrain := none }).setF F.LNK_LANE_SPARE l.val lane.val).setF F.LNK_STATUS_SPARE_OK l.val 1) := by
  change execLaneRetrainDone l lane true s = _
  simp only [execLaneRetrainDone, State.upd, State.onDev, hrun, ne_eq, not_true_eq_false, if_false, if_true, Dev.setSpare_some]

/-! Span forwarding, sleep and wake. -/

theorem exec_spanForward {s : State} {l : Fin 48} {p : Packet} {e : Dev}
    (he : (s.dev.depart (lnkFace l.val) 15 p).ejected (lnkFace l.val) p = e) (hty : p.ty.toNat = 4)
    (hrole : e.fld F.LNK_CTRL_ROLE l.val = 2) (hfwd : e.flag F.LNK_CTRL_FWD_EN l.val = true) (hopen : e.spanOpen l.val = true) :
    exec (.spanForward l p) s = .next (s.onDev fun _ => e.fwdSend l.val p) := by
  change execSpanForward l p s = _
  simp only [execSpanForward, State.upd, State.onDev, he, Dev.spanForward, hty, hrole, hfwd, hopen, ne_eq, not_true_eq_false, decide_false,
    Bool.not_true, Bool.or_self, Bool.false_eq_true, if_false]

/-- A quad that has something to wake: a link that is ASLEEP, or a domain that has left D0. -/
theorem quad_to_wake {d : Dev} {q : Nat}
    (h : (∃ k, k ∈ quadLinks q ∧ d.fld F.LNK_STATUS_STATE k = 3) ∨ (d.dom (domQuad (4 * q))).level ≠ 0) :
    (((quadLinks q).filter fun l => d.fld F.LNK_STATUS_STATE l == 3).isEmpty && decide ((d.dom (domQuad (4 * q))).level = 0)) = false := by
  rcases h with ⟨k, hk, hst⟩ | hlev
  · have hmem : k ∈ (quadLinks q).filter fun l => d.fld F.LNK_STATUS_STATE l == 3 := List.mem_filter.2 ⟨hk, by rw [hst]; rfl⟩
    rw [List.isEmpty_eq_false_iff.2 (List.ne_nil_of_mem hmem), Bool.false_and]
  · rw [decide_eq_false hlev, Bool.and_false]

theorem exec_wakePattern {s : State} {quad : Fin 12}
    (h : (∃ k, k ∈ quadLinks quad.val ∧ s.dev.fld F.LNK_STATUS_STATE k = 3) ∨ (s.dev.dom (domQuad (4 * quad.val))).level ≠ 0)
    (hnow : (s.dev.lnk (4 * quad.val)).ignoreUntil ≤ s.dev.now) :
    exec (.wakePattern quad) s = .next (s.onDev fun d =>
      ((d.modLnk (4 * quad.val) fun x => { x with wakeAt := some d.now, sawData := false }).demand
        (domQuad (4 * quad.val)) true).quadUp quad.val) := by
  have hopen : ¬ s.dev.now < (s.dev.lnk (4 * quad.val)).ignoreUntil := by omega
  change execWakePattern quad s = _
  simp only [execWakePattern, State.upd, State.onDev, quad_to_wake h, Bool.false_eq_true, if_false, hopen]

theorem exec_wakePatternRepeat {s : State} {l : Fin 48} (hst : s.dev.fld F.LNK_STATUS_STATE l.val = 3) (hq : (s.dev.lnk l.val).txq ≠ []) :
    exec (.wakePatternRepeat l) s = .next (s.onDev fun d => d.emit (.wakePattern l.val)) := by
  change execWakePatternRepeat l s = _
  simp only [execWakePatternRepeat, State.upd, State.onDev, hst, List.isEmpty_eq_false_iff.2 hq, decide_true, Bool.not_false, Bool.and_self,
    if_true]

theorem exec_spuriousWake {s : State} {quad : Fin 12} {t : Nat} (hat : (s.dev.lnk (4 * quad.val)).wakeAt = some t)
    (hsaw : (s.dev.lnk (4 * quad.val)).sawData = false) (hfew : (s.dev.lnk (4 * quad.val)).spurious < 7) :
    exec (.spuriousWake quad) s = .next (s.onDev fun d =>
      d.modLnk (4 * quad.val) fun x => { x with wakeAt := none, spurious := x.spurious + 1 }) := by
  have hfew8 : (s.dev.lnk (4 * quad.val)).spurious + 1 < 8 := by omega
  change execSpuriousWake quad s = _
  simp only [execSpuriousWake, State.upd, State.onDev, hat, hsaw, hfew8, Option.isNone_some, Bool.false_eq_true, if_false, if_true]

/-- Settles O50, command by command. -/
theorem linkCommandsTakeEffect : Obligations.LinkCommandsTakeEffect := by
  unfold Obligations.LinkCommandsTakeEffect
  intro s l quad
  refine ⟨fun b hup herrs hnak => State.gives_of_done ((exec_linkBlock hup b).trans (congrArg s.done (State.linkBlock_of_uncorrectable herrs hnak))),
    fun b hup herrs hnum hbad hnak =>
      State.gives_of_done ((exec_linkBlock hup b).trans (congrArg s.done (State.linkBlock_of_refused herrs hnum hbad hnak))),
    fun b p hup herrs hcells hbsn =>
      State.gives_of_done ((exec_linkBlock hup b).trans (congrArg s.done (State.linkBlock_of_next herrs hcells hbsn))),
    fun b e hup herrs hcells =>
      State.gives_of_done ((exec_linkBlock hup b).trans (congrArg s.done (State.linkBlock_of_corrected herrs hcells))),
    fun bsn cr a r hup hq hbsn ha hsleep hres =>
      (exec_ackItem hup false bsn cr).trans (next_onDev_congr (Dev.ackIn_oldest hq hbsn ha hsleep hres)),
    exec_nakResendTimer, exec_ackSendTimer,
    fun hup => ⟨fun hq => (exec_fastRetrain hq).trans (next_onDev_congr (Dev.fastRetrain_of_up hup)),
      (exec_linkRetrain s l).trans (next_onDev_congr (Dev.fastRetrain_of_up hup))⟩,
    fun lanes hst hrun htx hrx hhalf => exec_fastRetrainEnd hst hrun htx hrx hhalf,
    fun good hgood => ⟨Dev.goodLanes_lanesSet hgood _ _, Dev.half_lanesSet .., Dev.txHalf_txSet ..⟩,
    fun pos hup hok hask => exec_laneSwap_of_spare hup hok hask pos, fun pos phys hup => exec_laneRequest hup pos phys,
    fun pos phys b hup hb => exec_laneGrant_of_ahead hup hb pos phys, fun lane hrun => exec_laneRetrainDone_good hrun,
    fun lane hup hok hask hlane => exec_retrainLane_of_spare hup hok hask hlane,
    fun p hty hrole hfwd hopen => exec_spanForward rfl hty hrole hfwd hopen, exec_linkSleep,
    exec_wakePattern, exec_wakePatternRepeat, fun t hat hsaw hfew => exec_spuriousWake hat hsaw hfew⟩

end Sys2Proof.Machine
end

section
/-! PROOF. The redundant pair (spec/10_links_and_pairs.md R401 to R420). -/

namespace Sys2Proof.Machine

/-- A fold whose every step leaves the device as it is. -/
theorem Dev.each_fixed {α : Type} {d : Dev} {xs : List α} {f : Dev → α → Dev} (h : ∀ x ∈ xs, f d x = d) : d.each xs f = d := by
  induction xs with
  | nil => rfl
  | cons x xs ih =>
    have hx : f d x = d := h x (List.mem_cons_self ..)
    have hxs : d.each xs f = d := ih fun y hy => h y (List.mem_cons_of_mem _ hy)
    exact (congrArg (fun e => Dev.each e xs f) hx).trans hxs

/-! Beats and pulses. -/

theorem State.beatIn_of_first {s : State} {l : Nat} {term : BitVec 32} (hrole : s.dev.fld F.LNK_CTRL_ROLE l ≠ 1)
    (hlast : sget s.dev.pair.lastBeat 0 l = 0) (hterm : s.dev.term ≤ term.toNat) (role : BitVec 8) (echo : Bool) (sync : BitVec 8)
    (num ans power : BitVec 32) (nt : BitVec 64) (image : BitVec 8) :
    s.beatIn l (.beat role echo sync term num ans power nt image) = s.onDev fun d =>
      (d.modPair fun p => { p with lastBeat := sset p.lastBeat 0 l (d.now + 1) }).setF F.LNK_STATUS_FAR_ROLE l role.toNat := by
  have hnew : ¬ term.toNat < s.dev.term := by omega
  simp only [State.beatIn, hrole, hlast, hnew, ne_eq, not_true_eq_false, decide_false, Bool.false_and, Bool.and_false, Bool.or_self,
    Bool.false_eq_true, if_false, Bool.not_false, if_true]

theorem exec_beat {s : State} {l : Fin 48} (hup : s.dev.linkIsUp l.val = true) (i : LinkItem) :
    exec (.beat l i) s = s.done (s.beatIn l.val i) := by
  change execBeat l i s = _
  simp only [execBeat, hup, if_true]

/-- Sending beats writes no register. -/
theorem Dev.role_sendBeats (d : Dev) (ls : List Nat) : (d.each ls fun e k => e.quietOut k (e.beatItem false 0)).role = d.role :=
  Dev.each_keeps d ls _ (fun e => e.role) fun _ _ => rfl

theorem exec_beatTimer_of_solo {s : State} (hrole : s.dev.role = 1) (hloud : s.dev.silent = false) :
    exec .beatTimer s = .next (s.onDev fun d =>
      let g := d.modPair fun p => { p with beatNo := (p.beatNo + 1) % 2 ^ 32 }
      (g.each (g.mirrorLinks ++ g.spanLinks) fun e k => e.quietOut k (e.beatItem false 0)).emit (.pulse false)) := by
  have hcount : (s.dev.modPair fun p => { p with beatNo := (p.beatNo + 1) % 2 ^ 32 }).role = 1 := hrole
  have h1 : ¬ (1 = 3) := by decide
  have h2 : ¬ (1 = 2) := by decide
  change execBeatTimer s = _
  simp only [execBeatTimer, State.upd, State.onDev, hloud, Bool.false_eq_true, if_false, Dev.role_sendBeats, hcount, h1, h2, decide_true,
    Bool.true_or, if_true]

section
variable {s : State} {width : Nat} (hlo : 300 ≤ width) (hhi : width ≤ 600) (hfirst : s.dev.pair.wireAt = none)
include hlo hhi hfirst

/-- The first pulse of a failed partner is taken. -/
theorem exec_hbtInPulse_nofail : exec (.hbtInPulse width) s = .next (s.onDev fun d =>
    let g := d.modPair fun p => { p with wireAt := some d.now }
    if g.role = 2 then g.leadSolo else if g.role = 3 then g.stale else g) := by
  have hnofail : 300 ≤ width ∧ width ≤ 600 := ⟨hlo, hhi⟩
  have hlive : ¬ (50 ≤ width ∧ width ≤ 200) := by omega
  change execHbtInPulse width s = _
  simp only [execHbtInPulse, State.upd, State.onDev, hfirst, hnofail, hlive, and_self, decide_true, decide_false, Bool.false_or, Bool.not_true,
    Bool.or_self, Bool.false_eq_true, if_false]

theorem exec_hbtInPulse_of_lead (hrole : s.dev.role = 2) :
    exec (.hbtInPulse width) s = .next (s.onDev fun d => (d.modPair fun p => { p with wireAt := some d.now }).leadSolo) :=
  (exec_hbtInPulse_nofail hlo hhi hfirst).trans (next_onDev_congr (if_pos hrole))

theorem exec_hbtInPulse_of_mirror (hrole : s.dev.role = 3) :
    exec (.hbtInPulse width) s = .next (s.onDev fun d => (d.modPair fun p => { p with wireAt := some d.now }).stale) := by
  have hlead : ¬ s.dev.role = 2 := by rw [hrole]; decide
  exact (exec_hbtInPulse_nofail hlo hhi hfirst).trans (next_onDev_congr ((if_neg hlead).trans (if_pos hrole)))

end

/-! The ages of a device that hears nothing. -/

/-- What a device shows that hears neither beats nor pulses. -/
def Dev.unheard (d : Dev) : Dev :=
  ((d.setF F.CMD_PAIR_AGE_LINK 0 0xFFFFFFFF).setF F.CMD_PAIR_AGE_WIRE 0 0xFFFFFFFF).setF F.CMD_PAIR_STATUS_FAR_ROLE 0 7

theorem Dev.farRole_unheard (d : Dev) {k : Nat} (hk : k < 48) :
    d.unheard.fld F.LNK_STATUS_FAR_ROLE k = d.fld F.LNK_STATUS_FAR_ROLE k := by
  rw [Dev.unheard, Dev.fld_setF_key _ F.CMD_PAIR_STATUS_FAR_ROLE F.LNK_STATUS_FAR_ROLE,
    Dev.fld_setF_key _ F.CMD_PAIR_AGE_WIRE F.LNK_STATUS_FAR_ROLE, Dev.fld_setF_key _ F.CMD_PAIR_AGE_LINK F.LNK_STATUS_FAR_ROLE]
  all_goals
    simp only [Reg.key, R.LNK_STATUS, R.CMD_PAIR_AGE, R.CMD_PAIR_STATUS]
    omega

theorem Dev.role_unheard (d : Dev) : d.unheard.role = d.role := by
  rw [Dev.role, Dev.unheard, Dev.fld_setF_apart (f := F.CMD_PAIR_STATUS_FAR_ROLE) (g := F.CMD_PAIR_STATUS_ROLE) rfl (by decide) (by decide),
    Dev.fld_setF_other (f := F.CMD_PAIR_AGE_WIRE) (g := F.CMD_PAIR_STATUS_ROLE) (by decide),
    Dev.fld_setF_other (f := F.CMD_PAIR_AGE_LINK) (g := F.CMD_PAIR_STATUS_ROLE) (by decide)]
  rfl

/-- A device whose links all show that no beat came has no link to change. -/
theorem Dev.each_unheard {d : Dev} (hfar : ∀ k, k < 48 → d.fld F.LNK_STATUS_FAR_ROLE k = 7) :
    (d.unheard.each (List.range 48) fun d l => if d.linkFar l = 7 && d.fld F.LNK_STATUS_FAR_ROLE l ≠ 7 then
      d.setF F.LNK_STATUS_FAR_ROLE l 7 else d) = d.unheard := by
  refine Dev.each_fixed fun k hk => ?_
  have hshown : d.unheard.fld F.LNK_STATUS_FAR_ROLE k = 7 :=
    (d.farRole_unheard (List.mem_range.1 hk)).trans (hfar k (List.mem_range.1 hk))
  simp only [hshown, ne_eq, not_true_eq_false, decide_false, Bool.and_false, Bool.false_eq_true, if_false]

theorem exec_ageCheck_of_unheard {s : State} (hrole : s.dev.role = 1) (hfar : ∀ k, k < 48 → s.dev.fld F.LNK_STATUS_FAR_ROLE k = 7)
    (hlink : s.dev.pair.linkAt = none) (hwire : s.dev.pair.wireAt = none) : exec .ageCheck s = s.done (s.onDev Dev.unheard) := by
  have heach := Dev.each_unheard hfar
  rw [Dev.unheard] at heach
  have hsolo : s.dev.unheard.role = 1 := s.dev.role_unheard.trans hrole
  rw [Dev.unheard] at hsolo
  have hold : 0xFFFFFFFF ≥ 15000 := by decide
  have hlead : ¬ (1 = 2) := by decide
  have hmirror : ¬ (1 = 3) := by decide
  change execAgeCheck s = _
  simp only [execAgeCheck, State.onDev, Dev.ageOf, hlink, hwire, hold, if_true, heach, hsolo, hlead, hmirror, decide_false, Bool.false_and,
    Bool.false_eq_true, if_false, Dev.unheard, State.done]

/-! Roles. -/

theorem exec_joinWaitExpiry {s : State} (hrole : s.dev.role = 0) (hsafe : s.dev.failsafed = false) (hwait : s.dev.pair.waitDone = false)
    (himage : s.dev.imageRole = 1) : exec .joinWaitExpiry s = .next (s.onDev fun d => d.setRole 1 0) := by
  change execJoinWaitExpiry s = _
  simp only [execJoinWaitExpiry, State.upd, State.onDev, hrole, hsafe, hwait, himage, decide_true, Bool.not_false, Bool.and_self, if_true]

theorem exec_mlinkTmo {s : State} (hrole : s.dev.role = 2) (hnone : s.dev.mirrorLinks = []) :
    exec .mlinkTmo s = .next (s.onDev fun d => d.leadSolo) := by
  change execMlinkTmo s = _
  simp only [execMlinkTmo, State.upd, State.onDev, hrole, hnone, List.isEmpty_nil, decide_true, Bool.and_self, if_true]

theorem exec_pairFence {s : State} (hrole : s.dev.role = 2) : exec .pairFence s = .next (s.onDev fun d => d.fence) := by
  change execPairFence s = _
  simp only [execPairFence, State.upd, State.onDev, Dev.pairFence, hrole, if_true]

section
variable {s : State} (hsafe : s.dev.failsafed = false) (hserves : s.dev.fld F.BSQ_STATUS_STATE 0 ≠ 4) (hrun : s.dev.pstate = 0)
include hsafe hserves hrun

/-- A device in Run and in service acts on JOIN and SOLO at once. -/
theorem Dev.pairReq_of_run (op : Nat) : s.dev.pairReq op = s.dev.pairOp op := by
  have h04 : ¬ (0 = 4) := by decide
  simp only [Dev.pairReq, hsafe, hserves, hrun, h04, decide_false, Bool.or_self, Bool.false_eq_true, if_false, if_true]

theorem exec_join (hrole : s.dev.role = 1 ∨ s.dev.role = 4 ∨ s.dev.role = 5) :
    exec .join s = .next (s.onDev fun d =>
      (d.setRole 0 0).modPair fun p => { p with waitDone := false, configRaised := false, reqAt := none, started := false }) := by
  have hmay : (decide (s.dev.role = 4) || decide (s.dev.role = 5) || decide (s.dev.role = 1)) = true := by
    simp only [Bool.or_eq_true, decide_eq_true_eq]
    omega
  change execJoin s = _
  simp only [execJoin, State.upd, State.onDev, Dev.pairReq_of_run hsafe hserves hrun, Dev.pairOp, Dev.pairJoin, hmay, if_true]

theorem exec_solo (hrole : s.dev.role = 0 ∨ s.dev.role = 4 ∨ s.dev.role = 5) :
    exec .solo s = .next (s.onDev fun d => (d.setF F.CMD_PAIR_STATUS_TERM 0 (d.term + 1)).setRole 1 0) := by
  have hmay : (decide (s.dev.role = 0) || decide (s.dev.role = 4) || decide (s.dev.role = 5)) = true := by
    simp only [Bool.or_eq_true, decide_eq_true_eq]
    omega
  have hop : ¬ (0 = 1) := by decide
  change execSolo s = _
  simp only [execSolo, State.upd, State.onDev, Dev.pairReq_of_run hsafe hserves hrun, Dev.pairOp, hop, if_false, Dev.pairSolo, hmay, if_true]

end

/-! The mirror. -/

theorem exec_mack {s : State} {l : Fin 48} (hrole : s.dev.fld F.LNK_CTRL_ROLE l.val = 1) (m : BitVec 64) :
    exec (.mack l m) s = .next (s.onDev fun d => d.mackIn m.toNat) := by
  change execMack l m s = _
  simp only [execMack, State.upd, State.onDev, hrole, if_true]

theorem exec_mackInterval {s : State} (hrole : s.dev.role = 3) (hstart : s.dev.pair.started = true) :
    exec .mackInterval s = .next (s.onDev fun d => d.sendMack) := by
  change execMackInterval s = _
  simp only [execMackInterval, State.upd, State.onDev, hrole, hstart, decide_true, Bool.and_self, if_true]

theorem exec_mseqGap {s : State} {t : Nat} (hrole : s.dev.role = 3) (hgap : s.dev.pair.gapAt = some t) :
    exec .mseqGap s = .next (s.onDev fun d => d.stale) := by
  change execMseqGap s = _
  simp only [execMseqGap, State.upd, State.onDev, hrole, hgap, Option.isSome_some, decide_true, Bool.and_self, if_true]

/-- Only a LEAD streams records. -/
theorem Dev.mirrorSend_of_not_lead {d : Dev} (h : d.role ≠ 2) (kind session : Nat) (body : List Byte) :
    d.mirrorSend kind session body = d := if_pos h

theorem Dev.role_putJ (d : Dev) (o : Nat) (bs : List Byte) : (d.putJ o bs).role = d.role := rfl

theorem Dev.pair_putJ (d : Dev) (o : Nat) (bs : List Byte) : (d.putJ o bs).pair = d.pair := rfl

theorem Dev.pair_showSess {d : Dev} (h : d.role ≠ 2) (i : Nat) : (d.showSess i).pair = d.pair := by
  rw [Dev.showSess]
  split
  · rfl
  · rw [Dev.mirrorSend_of_not_lead (by rwa [Dev.role_putJ]), Dev.pair_putJ]

theorem Dev.pair_showActive (d : Dev) : d.showActive.pair = d.pair := by
  rw [Dev.showActive]
  split <;> rfl

theorem Dev.pair_sendMack (d : Dev) : d.sendMack.pair = d.pair :=
  Dev.each_keeps d _ _ (fun e => e.pair) fun _ _ => rfl

theorem Dev.pair_applySession {d : Dev} (h : d.role ≠ 2) (i : Nat) (b : List Byte) : (d.applySession i b).pair = d.pair := by
  rw [Dev.applySession, Dev.pair_showActive, Dev.pair_showSess]
  all_goals split
  · rfl
  · rfl
  · exact h
  · exact h

theorem Dev.pending_applyStep {d : Dev} (h : d.role ≠ 2) (i : Nat) (b : List Byte) : (d.applyStep i b).pair.pending = d.pair.pending := by
  rw [Dev.applyStep, Dev.pair_showSess]
  · rfl
  · exact h

theorem Dev.pending_applyJournal (d : Dev) (e : List Byte) : (d.applyJournal e).pair.pending = d.pair.pending := by
  have hput : ∀ (p : Prop) [Decidable p] (x y : Dev), x.pair.pending = d.pair.pending → y.pair.pending = d.pair.pending →
      (if p then x else y).pair.pending = d.pair.pending := fun p _ x y hx hy => by split <;> assumption
  simp only [Dev.applyJournal]
  split
  · exact hput _ _ _ (hput _ _ _ rfl rfl) (hput _ _ _ rfl rfl)
  · exact hput _ _ _ rfl rfl

theorem State.dev_applyRng (s : State) (i : Nat) (b : List Byte) : (s.applyRng i b).dev = s.dev := by
  rw [State.applyRng]
  split <;> rfl

theorem State.dev_applyOpen (s : State) (i : Nat) (b : List Byte) : (s.applyOpen i b).dev = s.dev := by
  rw [State.applyOpen]
  split <;> rfl

theorem State.pending_applyWrite (s : State) (b : List Byte) : (s.applyWrite b).dev.pair.pending = s.dev.pair.pending := by
  rw [State.applyWrite]
  split <;> rfl

/-- A mirror that applies a record keeps the records that wait. -/
theorem State.pending_applyRec {s : State} (hrole : s.dev.role = 3) (mseq kind i : Nat) (b : List Byte) :
    (s.applyRec mseq kind i b).dev.pair.pending = s.dev.pair.pending := by
  have hnot : (s.dev.setR R.CMD_PAIR_MSEQ 0 (BitVec.ofNat 64 mseq)).role ≠ 2 := by
    have hkeep : (s.dev.setR R.CMD_PAIR_MSEQ 0 (BitVec.ofNat 64 mseq)).getR R.CMD_PAIR_STATUS 0 = s.dev.getR R.CMD_PAIR_STATUS 0 :=
      Dev.getR_setR_key _ _ _ _ _ _ _ _ (Reg.key_ne_of_code_ne (by decide) 0 0)
    rw [Dev.role, Dev.fld, hkeep]
    change s.dev.role ≠ 2
    rw [hrole]
    decide
  rw [State.applyRec]
  by_cases h1 : kind = 1
  · rw [if_pos h1]
    exact State.pending_applyWrite _ b
  by_cases h2 : kind = 2
  · rw [if_neg h1, if_pos h2]
    exact (congrArg PairS.pending (Dev.pair_sendMack _)).trans (Dev.pending_applyJournal _ _)
  by_cases h3 : kind = 3
  · rw [if_neg h1, if_neg h2, if_pos h3]
    refine (congrArg PairS.pending (Dev.pair_sendMack _)).trans ?_
    rw [State.dev_applyRng]
    exact Dev.pending_applyStep hnot i b
  by_cases h4 : kind = 4
  · rw [if_neg h1, if_neg h2, if_neg h3, if_pos h4]
    refine (congrArg PairS.pending (Dev.pair_sendMack _)).trans ?_
    rw [State.dev_applyOpen]
    exact congrArg PairS.pending (Dev.pair_applySession hnot i b)
  rw [if_neg h1, if_neg h2, if_neg h3, if_neg h4]
  split <;> rfl

/-- The next record, where none waits, is applied and leaves no gap. -/
theorem State.mirrorIn_of_next {s : State} {m : Nat} (hrole : s.dev.role = 3) (hstart : s.dev.pair.started = true)
    (hm : m = (s.dev.getR R.CMD_PAIR_MSEQ 0).toNat + 1) (hpend : s.dev.pair.pending = []) (kind i : Nat) (b : List Byte) :
    s.mirrorIn m kind i b = (s.applyRec m kind i b).onDev fun d => d.modPair fun p => { p with gapAt := none } := by
  have hnew : ¬ m ≤ (s.dev.getR R.CMD_PAIR_MSEQ 0).toNat := by omega
  have hleft : (s.applyRec m kind i b).dev.pair.pending = [] := (State.pending_applyRec hrole m kind i b).trans hpend
  simp only [State.mirrorIn, hrole, hstart, hnew, ← hm, ne_eq, not_true_eq_false, decide_false, Bool.not_true, Bool.or_self,
    Bool.false_eq_true, if_false, if_true, hleft, List.length_nil, State.applyWaiting, State.onDev, Dev.modPair, List.isEmpty_nil]

/-! Resync. -/

section
variable {s : State} {l : Fin 48} (hlink : s.dev.fld F.LNK_CTRL_ROLE l.val = 1)
include hlink

theorem exec_resyncRequest_of_solo (hrole : s.dev.role = 1) (himage : s.dev.imageRole ≠ 0) (term : BitVec 32) :
    exec (.resyncRequest l term) s = s.done (s.resyncStart l.val) := by
  change execResyncRequest l term s = _
  simp only [execResyncRequest, hlink, if_true, State.resyncReq, hrole, himage, ne_eq, not_false_eq_true, decide_true, Bool.and_self,
    Bool.or_true]

theorem exec_resyncStart {t : Nat} (hrole : s.dev.role = 3) (hreq : s.dev.pair.reqAt = some t) (term : BitVec 32) :
    exec (.resyncStart l term) s = .next (s.onDev fun d =>
      (((d.setF F.CMD_PAIR_STATUS_TERM 0 term.toNat).setF F.CMD_PAIR_STATUS_SYNC 0 1).setR R.CMD_PAIR_MSEQ 0 0).modPair fun p =>
        { p with started := true, reqAt := none, pending := [], gapAt := none, mirCmd := none, mirStep := none }) := by
  change execResyncStart l term s = _
  simp only [execResyncStart, State.upd, State.onDev, hlink, if_true, Dev.resyncBegin, hrole, hreq, Option.isSome_some, decide_true,
    Bool.and_self]

theorem exec_resyncDone (hrole : s.dev.role = 3) (hstart : s.dev.pair.started = true) (term : BitVec 32) :
    exec (.resyncDone l term) s = .next (s.onDev fun d => (d.setF F.CMD_PAIR_STATUS_SYNC 0 2).holdIdle) := by
  change execResyncDone l term s = _
  simp only [execResyncDone, State.upd, State.onDev, hlink, if_true, Dev.resyncEnd, hrole, hstart, decide_true, Bool.and_self]

end

theorem exec_resyncNoStart {s : State} {t : Nat} (hrole : s.dev.role = 3) (hreq : s.dev.pair.reqAt = some t) :
    exec .resyncNoStart s = .next (s.onDev fun d => (d.modPair fun p => { p with reqAt := none }).stale) := by
  change execResyncNoStart s = _
  simp only [execResyncNoStart, State.upd, State.onDev, hrole, hreq, Option.isSome_some, decide_true, Bool.and_self, if_true]

/-- Settles O52, command by command. -/
theorem pairCommandsTakeEffect : Obligations.PairCommandsTakeEffect := by
  unfold Obligations.PairCommandsTakeEffect
  intro s l
  refine ⟨fun role echo sync term num ans power nt image hup hrole hlast hterm =>
      State.gives_of_done ((exec_beat hup _).trans (congrArg s.done (State.beatIn_of_first hrole hlast hterm ..))),
    exec_beatTimer_of_solo,
    fun width hlo hhi hfirst => ⟨exec_hbtInPulse_of_lead hlo hhi hfirst, exec_hbtInPulse_of_mirror hlo hhi hfirst⟩,
    fun hrole hfar hlink hwire => State.gives_of_done (exec_ageCheck_of_unheard hrole hfar hlink hwire),
    exec_joinWaitExpiry, exec_mlinkTmo, fun m hlink _ _ => exec_mack hlink m, exec_mackInterval, ?_,
    fun t hrole hgap => exec_mseqGap hrole hgap,
    fun term hlink hrole himage => State.gives_of_done (exec_resyncRequest_of_solo hlink hrole himage term),
    fun term t hlink hrole hreq => exec_resyncStart hlink hrole hreq term,
    fun term hlink hrole hstart => exec_resyncDone hlink hrole hstart term,
    fun t hrole hreq => exec_resyncNoStart hrole hreq, exec_pairFence, exec_join, exec_solo⟩
  intro m hrole hstart hm hpend
  exact ⟨fun addr data => State.gives_of_done (congrArg s.done (State.mirrorIn_of_next hrole hstart hm hpend ..)),
    fun e => State.gives_of_done (congrArg s.done (State.mirrorIn_of_next hrole hstart hm hpend ..)),
    fun i body => State.gives_of_done (congrArg s.done (State.mirrorIn_of_next hrole hstart hm hpend ..)),
    fun i body => State.gives_of_done (congrArg s.done (State.mirrorIn_of_next hrole hstart hm hpend ..)),
    fun i body => State.gives_of_done (congrArg s.done (State.mirrorIn_of_next hrole hstart hm hpend ..))⟩

end Sys2Proof.Machine
end

section
/-! PROOF. Power delivery (spec/11_power_delivery.md R428 to R443). -/

namespace Sys2Proof.Machine

/-- A command that may lose domains gives the state with what is lost settled. -/
theorem State.gives_updLost (s : State) {f : Dev → Dev} {d : Dev} (hd : f s.dev = d) : s.Gives (s.updLost f) (s.lostEnd d) := by
  subst hd
  rw [State.updLost]
  split
  · exact State.gives_of_done rfl
  · next hsame =>
    rw [State.lostEnd, if_neg hsame]
    exact State.gives_next rfl rfl

/-! Regulators and sense frames. -/

/-- The next word of a field in normal mode. -/
theorem Dev.sendSense_normal (e : Dev) (f vmin ifwd : Nat) : e.sendSense f vmin ifwd 0 =
    let w := (e.fld F.FLD_FSC_STATUS_LAST_WORD f / 2 ^ 28 + 1) % 16 * 2 ^ 28 + vmin * 2 ^ 18 + e.fld F.FLD_RAIL_STATUS_VTGT f * 2 ^ 8 +
      ifwd * 16 + b2n (e.pwr.droop.contains f) * 8
    ((e.setF F.FLD_FSC_STATUS_LAST_WORD f w).modPwr fun p => { p with droop := p.droop.filter (· != f) }).emit (.fsc f (fscFrame w)) := by
  simp only [Dev.sendSense, Nat.add_zero]

section
variable {s : State} {field : FieldN} (hin : s.dev.fieldLost field.val = false)
include hin

theorem exec_avsStatusAlert_of_answer : exec (.avsStatusAlert field true) s = .next (s.onDev fun d =>
    (d.avs field.val 0 0xE false 0).modPwr fun p => { p with avsDead := p.avsDead.filter (· != field.val) }) := by
  change execAvsStatusAlert field true s = _
  simp only [execAvsStatusAlert, State.upd, State.onDev, hin, Bool.false_eq_true, if_false, Dev.avsRead, Dev.avsTry, if_true, List.nil_append]

theorem exec_avsStatusAlert_of_silence : exec (.avsStatusAlert field false) s = .next (s.onDev fun d =>
    (((d.each (List.range 4) fun d _ => d.avs field.val 0 0xE false 0).addSat F.FLD_FSC_STATUS_AVS_FAIL field.val 1).record
      (evU bFLD field.val) 5 0 detField).modPwr fun p => { p with avsDead := field.val :: p.avsDead.filter (· != field.val) }) := by
  change execAvsStatusAlert field false s = _
  simp only [execAvsStatusAlert, State.upd, State.onDev, hin, Bool.false_eq_true, if_false, Dev.avsRead, Dev.avsTry, List.cons_append,
    List.nil_append]

theorem gives_phaseStatusRead_of_enough {n : BitVec 5} (hsame : s.dev.fld F.FLD_RAIL_STATUS_PHASES field.val ≤ n.toNat) (hn : 17 < n.toNat) :
    s.Gives (exec (.phaseStatusRead field true n) s) (s.lostEnd ((s.dev.avsRead field.val 1 0 true).setPhases field.val n.toNat)) := by
  have hkeep : ¬ n.toNat ≤ 17 := by omega
  have hmore : ¬ n.toNat < s.dev.fld F.FLD_RAIL_STATUS_PHASES field.val := by omega
  change s.Gives (execPhaseStatusRead field true n s) _
  rw [execPhaseStatusRead]
  refine s.gives_updLost ?_
  simp only [hin, Bool.false_eq_true, if_false, Bool.not_true, hkeep, hmore]

theorem gives_phaseStatusRead_of_few {n : BitVec 5} (hn : n.toNat ≤ 17) :
    s.Gives (exec (.phaseStatusRead field true n) s) (s.lostEnd
      ((((s.dev.avsRead field.val 1 0 true).setF F.FLD_RAIL_STATUS_PHASES field.val n.toNat).shed field.val).fieldLoss field.val)) := by
  change s.Gives (execPhaseStatusRead field true n s) _
  rw [execPhaseStatusRead]
  refine s.gives_updLost ?_
  simp only [hin, Bool.false_eq_true, if_false, Bool.not_true, hn, if_true]

/-- A frame that the controller takes ends HOLD and sends the next word in normal mode. -/
theorem exec_fscFrame_of_valid (hrun : s.dev.pstate ≠ 3) (hup : bitOf (s.dev.fld F.PWR_RAIL_STATUS_FIELD_PG 0) field.val = true)
    (vmin : BitVec 10) (ifwd : BitVec 4) : exec (.fscFrame field vmin ifwd true true) s = .next (s.onDev fun d =>
      ((((d.modPwr fun p => { p with fscBad := sset p.fscBad 0 field.val 0 }).setB F.FLD_RAIL_STATUS_HOLD field.val false).steer
        field.val).setF F.FLD_RAIL_STATUS_VMIN field.val vmin.toNat).sendSense field.val vmin.toNat ifwd.toNat 0) := by
  rw [Dev.pstate] at hrun
  change execFscFrame field vmin ifwd true true s = _
  simp only [execFscFrame, State.upd, State.onDev, hrun, hup, hin, decide_false, Bool.not_true, Bool.or_self, Bool.and_self, Bool.false_and,
    Bool.false_eq_true, if_false, if_true, Nat.min_zero, b2n]

end

/-! LDOs, fields and rails. -/

theorem gives_ldoFail_low {s : State} {site : Site} (hin : s.dev.fieldLost (fieldOf site.val) = false)
    (hst : s.dev.fld F.FLD_LDO_STATE (fieldOf site.val) (localIx site.val) = 2) :
    s.Gives (exec (.ldoFail site .low) s) (s.lostEnd
      ((((s.dev.setF F.FLD_LDO_STATE (fieldOf site.val) 4 (localIx site.val)).setF F.FLD_LDO_UV (fieldOf site.val) 1
        (localIx site.val)).loseCluster site.val).raise (evU bFLD (fieldOf site.val)) 3 3 (localIx site.val))) := by
  have hlive : ¬ (2 = 4) := by decide
  change s.Gives (execLdoFail site .low s) _
  rw [execLdoFail]
  refine s.gives_updLost ?_
  simp only [hst, decide_true, Bool.true_or, if_true, Dev.ldoFail, hin, hlive, decide_false, Bool.or_self, Bool.false_eq_true, if_false]

theorem fabldo_notEvt {u eu : Nat} (hu : u < 65536) (heu : eu < 4194304) : R.FLD_FABLDO.NotEvt u 0 eu := by
  constructor
  · intro i hi
    simp only [Reg.key, R.FLD_FABLDO, R.EVT_HIST0]
    omega
  · intro i hi
    simp only [Reg.key, R.FLD_FABLDO, R.EVT_HIST1]
    omega
  · simp only [Reg.key, R.FLD_FABLDO, R.EVT_STATUS]
    omega

theorem Dev.verdict_le_two (d : Dev) (eu c : Nat) : (d.verdict eu c 1 false).2.1 ≤ 2 := by
  rw [Dev.verdict]
  split
  · exact Nat.le_succ 1
  · split
    · exact Nat.min_le_right ..
    · exact Nat.min_le_right ..

/-- An escalation to level 2 of an event of a field as a whole isolates nothing. -/
theorem Dev.escalate_field {lvl : Nat} (hlvl : lvl ≤ 2) (d : Dev) (i : Nat) : d.escalate 4 i lvl detField = d := by
  have h3 : ¬ lvl = 3 := by omega
  have h4 : ¬ lvl = 4 := by omega
  have hd1 : ¬ detField / 16 % 16 = 1 := by decide
  have hd0 : ¬ detField / 16 % 16 = 0 := by decide
  simp only [Dev.escalate, h3, h4, hd1, hd0, if_false, ite_self, OfNat.ofNat_ne_one, Nat.reduceEqDiff, decide_true, Bool.true_or]

/-- An event of a field as a whole with base level 1 rises to level 2 at most, which isolates nothing (R556). -/
theorem Dev.fabldo_raise {f : Nat} (hf : f < 16) (d : Dev) (c : Nat) :
    (d.raise (evU bFLD f) c 1 detField).getR R.FLD_FABLDO f 0 = d.getR R.FLD_FABLDO f 0 := by
  have hblk : evU bFLD f / 65536 = 4 := by
    simp only [evU, bFLD]
    omega
  have hevt : R.FLD_FABLDO.NotEvt f 0 (evU bFLD f) := fabldo_notEvt (by omega) (by simp only [evU, bFLD]; omega)
  have hlvl := d.verdict_le_two (evU bFLD f) c
  rcases hverdict : d.verdict (evU bFLD f) c 1 false with ⟨ok, lvl, esc⟩
  rw [hverdict] at hlvl
  change lvl ≤ 2 at hlvl
  have hrec := Dev.getR_record hevt d c 1 detField false
  have hcore : ¬ 4 = 1 := by decide
  rw [Dev.raise, hverdict]
  revert hrec
  dsimp only
  generalize d.record (evU bFLD f) c 1 detField = e
  intro hrec
  simp only [hblk, hcore, show ¬ lvl ≥ 4 by omega, Dev.escalate_field hlvl, decide_false, Bool.false_and, Bool.false_eq_true, if_false, ite_self,
    hrec]

theorem gives_fabldoFail {s : State} {field : FieldN} (hin : s.dev.fieldLost field.val = false)
    (hmine : s.dev.fld F.FLD_FABLDO_STATE0 field.val ≠ 3) (hother : s.dev.fld F.FLD_FABLDO_STATE1 field.val = 1) :
    s.Gives (exec (.fabldoFail field false) s) (s.lostEnd
      (((s.dev.setF F.FLD_FABLDO_STATE0 field.val 3).setF F.FLD_FABLDO_STATE1 field.val 2).raise (evU bFLD field.val) 4 1 detField)) := by
  have hstill : (s.dev.setF F.FLD_FABLDO_STATE0 field.val 3).fld F.FLD_FABLDO_STATE1 field.val = 1 :=
    (Dev.fld_setF_apart (f := F.FLD_FABLDO_STATE0) (g := F.FLD_FABLDO_STATE1) rfl (by decide) (by decide) s.dev _ 3 0).trans hother
  have hcarries : (((s.dev.setF F.FLD_FABLDO_STATE0 field.val 3).setF F.FLD_FABLDO_STATE1 field.val 2).raise (evU bFLD field.val) 4 1
      detField).fld F.FLD_FABLDO_STATE1 field.val = 2 := by
    rw [Dev.fld, Dev.fabldo_raise (by have := field.isLt; omega)]
    exact Dev.fld_setF_self_of_lt (f := F.FLD_FABLDO_STATE1) (by decide) (by decide) _ _ 0
  have h13 : ¬ (1 = 3) := by decide
  have h23 : ¬ (2 = 3) := by decide
  change s.Gives (execFabldoFail field false s) _
  rw [execFabldoFail]
  refine s.gives_updLost ?_
  simp only [Bool.false_eq_true, if_false, hin, hmine, decide_false, Bool.or_self, hstill, h13, hcarries, h23]

theorem gives_fieldLoss {s : State} (hst : s.dev.fld F.BSQ_STATUS_STATE 0 ≠ 0) (field : FieldN) :
    s.Gives (exec (.fieldLoss field) s) (s.lostEnd
      ((s.dev.setFbit F.PWR_RAIL_STATUS_FIELD_PG 0 field.val false).fieldLoss field.val)) := by
  change s.Gives (execFieldLoss field s) _
  rw [execFieldLoss, if_neg hst]
  exact s.gives_updLost rfl

theorem exec_railLoss_of_die (s : State) {rail : Fin 20} (h : rail.val = 17 ∨ rail.val = 18) :
    exec (.railLoss rail) s = s.done (s.dieReset false) := by
  have hdie : (decide (rail.val = 17) || decide (rail.val = 18) || s.dev.starting) = true := by
    simp only [Bool.or_eq_true, decide_eq_true_eq]
    exact .inl h
  change execRailLoss rail s = _
  simp only [execRailLoss, hdie, if_true]

/-- The stacks of an edge are what an HBM rail of Table 11-1 feeds. -/
theorem Dev.railOut_hbm {r : Nat} (hlo : 8 ≤ r) (hhi : r < 11) (d : Dev) :
    d.railOut r = d.each ((edgeStacks (r - 8)).map domHbm) fun d k => d.loseDom k := by
  have h4 : ¬ r < 4 := by omega
  have h8 : ¬ r < 8 := by omega
  have h14 : r < 14 := by omega
  have h15 : ¬ r = 15 := by omega
  have hedge : (r - 8) % 3 = r - 8 := Nat.mod_eq_of_lt (by omega)
  simp only [Dev.railOut, railDoms, h4, h8, h14, h15, hedge, if_false, if_true]

theorem gives_railLoss_hbm {s : State} {rail : Fin 20} (hlo : 8 ≤ rail.val) (hhi : rail.val < 11) (hrun : s.dev.starting = false) :
    s.Gives (exec (.railLoss rail) s) (s.lostEnd
      (((({ s.dev with pch := { s.dev.pch with rails := false, down := rail.val :: s.dev.pch.down } } : Dev).setFbit
        F.PWR_RAIL_STATUS_RAIL_PG 0 rail.val false).each
        ((edgeStacks (rail.val - 8)).map domHbm) fun d k => d.loseDom k).raise
        (evU bPWR 0) 2 5 rail.val)) := by
  have h17 : ¬ rail.val = 17 := by omega
  have h18 : ¬ rail.val = 18 := by omega
  have h15 : ¬ rail.val = 15 := by omega
  have hlt : rail.val < 17 := by omega
  change s.Gives (execRailLoss rail s) _
  simp only [execRailLoss, h17, h18, hrun, decide_false, Bool.or_self, Bool.false_eq_true, if_false]
  refine s.gives_updLost ?_
  simp only [h15, hlt, if_false, if_true, Dev.railOut_hbm hlo hhi]

/-! Inrush. -/

section
variable {s : State} {q : FieldN} {row col : Fin 4} {i : Nat} (hi : siteOf q.val (4 * row.val + col.val) = i)
  (hin : s.dev.siteOut i = false) (hlev : 3 ≤ (s.dev.dom i).level) (hexit : (s.dev.dom i).exiting = false)
  (henter : (s.dev.dom i).entering = none) (hwait : s.dev.pwr.upWait = []) (hheld : s.dev.upHeld i = false)
include hi hin hlev hexit henter hwait hheld

theorem exec_powerUpRequest_of_fits (hfits : s.dev.inrushFits (fieldOf i) 0 = true) :
    exec (.powerUpRequest q row col) s = .next (s.onDev fun d => d.admitUp i) := by
  have hdeep : ¬ (s.dev.dom i).level < 3 := by omega
  change execPowerUpRequest q row col s = _
  simp only [execPowerUpRequest, State.upd, State.onDev, hi, hin, hdeep, hexit, henter, hwait, Option.isSome_none, List.any_nil, decide_false,
    Bool.or_self, Bool.false_eq_true, if_false, Dev.tryUp, hheld, hfits, if_true]

theorem exec_powerUpRequest_of_full (hfull : s.dev.inrushFits (fieldOf i) 0 = false) (hdl : s.dev.hasDeadline i = false) :
    exec (.powerUpRequest q row col) s = .next (s.onDev fun d => d.modPwr fun p => { p with upWait := [(i, false)] }) := by
  have hdeep : ¬ (s.dev.dom i).level < 3 := by omega
  change execPowerUpRequest q row col s = _
  simp only [execPowerUpRequest, State.upd, State.onDev, hi, hin, hdeep, hexit, henter, hwait, Option.isSome_none, List.any_nil, decide_false,
    Bool.or_self, Bool.false_eq_true, if_false, Dev.tryUp, hheld, hfull, hdl, Bool.false_and, Dev.modPwr, List.nil_append]

end

theorem exec_throttleEnd {s : State} {field : FieldN} {t : Nat × List (Nat × Nat)}
    (ht : (s.dev.pwr.throttle.find? fun x => x.1 == field.val) = some t) :
    exec (.throttleEnd field) s = .next (s.onDev fun d =>
      let e := d.each t.2 fun e x => if e.siteOut x.1 then e else (e.setF F.CLU_PWR_FREQ x.1 x.2).showClk x.1
      e.modPwr fun p => { p with throttle := p.throttle.erase t, thrEnd := sset p.thrEnd 0 field.val (e.now + 1) }) := by
  change execThrottleEnd field s = _
  simp only [execThrottleEnd, State.upd, State.onDev, ht]

/-- Settles O53, command by command. -/
theorem powerDeliveryCommandsTakeEffect : Obligations.PowerDeliveryCommandsTakeEffect := by
  unfold Obligations.PowerDeliveryCommandsTakeEffect
  intro s field site
  refine ⟨fun hin => ⟨exec_avsStatusAlert_of_answer hin, exec_avsStatusAlert_of_silence hin⟩,
    fun n hin hsame hn => gives_phaseStatusRead_of_enough hin hsame hn, fun n hin hn => gives_phaseStatusRead_of_few hin hn,
    fun vmin ifwd hin hrun hup =>
      (exec_fscFrame_of_valid hin hrun hup vmin ifwd).trans (next_onDev_congr (Dev.sendSense_normal ..)), gives_ldoFail_low, gives_fabldoFail,
    fun hst => gives_fieldLoss hst field, fun rail h => State.gives_of_done (exec_railLoss_of_die s h),
    fun rail hlo hhi hrun => gives_railLoss_hbm hlo hhi hrun,
    fun q row col hi hin hlev hexit henter hwait hheld => ⟨exec_powerUpRequest_of_fits hi hin hlev hexit henter hwait hheld,
      exec_powerUpRequest_of_full hi hin hlev hexit henter hwait hheld⟩, fun t ht => exec_throttleEnd ht⟩

end Sys2Proof.Machine
end

section
/-! PROOF. Sleep and wake (spec/13_sleep_and_wake.md R476 to R491). -/

namespace Sys2Proof.Machine

theorem Dev.pch_setDom (d : Dev) (n : Nat) (f : DomS → DomS) : (d.setDom n f).pch = d.pch := rfl

theorem Dev.dom_setDom_self (d : Dev) (n : Nat) (f : DomS → DomS) : (d.setDom n f).dom n = f (d.dom n) := by
  rw [Dev.setDom, Dev.showDom, Dev.dom_setR, Dev.dom_modDom_self]

/-! Entries and exits. -/

section
variable {s : State} {dom : Fin 312}

theorem exec_domainEntry {lvl : Fin 4} (hmay : s.dev.mayEnter dom.val lvl.val = true) (hin : s.dev.domOut dom.val = false)
    (henter : (s.dev.dom dom.val).entering = none) (hexit : (s.dev.dom dom.val).exiting = false)
    (hlev : (s.dev.dom dom.val).level < lvl.val) (hcan : s.dev.canEnter dom.val lvl.val = true) :
    exec (.domainEntry dom lvl) s =
      .next (s.onDev fun d => d.setDom dom.val fun y => { y with entering := some lvl.val, deadline := none }) := by
  have hdeeper : ¬ lvl.val ≤ (s.dev.dom dom.val).level := by omega
  change execDomainEntry dom lvl s = _
  simp only [execDomainEntry, State.upd, State.onDev, hmay, if_true, Dev.enter, hin, henter, hexit, hdeeper, hcan, Option.isSome_none,
    decide_false, Bool.not_true, Bool.or_self, Bool.false_eq_true, if_false]

/-- While the device wakes, no domain is sent back to its rest. -/
theorem Dev.restOn_of_waking {d : Dev} (h : d.pch.waking = true) (n : Nat) : d.restOn n = d := by
  simp only [Dev.restOn, h, Bool.not_true, Bool.and_false, Bool.false_and, Bool.false_eq_true, if_false]

theorem exec_domainEntryComplete {lvl : Nat} (henter : (s.dev.dom dom.val).entering = some lvl) (hlev : 272 ≤ dom.val ∨ lvl ≤ 1)
    (hdem : (s.dev.dom dom.val).demand = false) (hwake : s.dev.pch.waking = true) :
    exec (.domainEntryComplete dom) s =
      s.done (s.onDev fun d => d.setDom dom.val fun y => { y with level := lvl, entering := none }) := by
  change execDomainEntryComplete dom s = _
  have hrest := Dev.restOn_of_waking
    (d := s.dev.setDom dom.val fun y => { y with level := lvl, entering := none }) hwake dom.val
  by_cases hedge : 272 ≤ dom.val
  · simp only [execDomainEntryComplete, henter, State.onDev, ge_iff_le, hedge, if_true, Dev.dom_setDom_self, hdem, Bool.false_eq_true,
      if_false, hrest, hwake, Bool.not_true, Bool.false_and]
  · have h2 : ¬ lvl = 2 := by omega
    have h3 : ¬ 3 ≤ lvl := by omega
    simp only [execDomainEntryComplete, henter, State.onDev, ge_iff_le, hedge, h2, h3, ite_self, Dev.dom_setDom_self, hdem,
      Bool.false_eq_true, if_false, hrest, hwake, Bool.not_true, Bool.false_and]

section
variable (hexit : (s.dev.dom dom.val).exiting = true) (hon : s.dev.pstate ≠ 4) (hwake : s.dev.pch.waking = false)
include hexit hon hwake

/-- The exit of a domain that is no link quad and wakes no PLLs ends. -/
theorem exec_domainExit_edge (hlo : 256 ≤ dom.val) (hhi : dom.val < 288) (hplain : 272 ≤ dom.val ∨ (s.dev.dom dom.val).level < 3) :
    exec (.domainExit dom) s = s.done (s.onDev fun d =>
      let e := d.setDom dom.val fun y => { DomS.init with deadline := y.deadline, upAt := d.now }
      if (s.dev.dom dom.val).source then e else e.restOn dom.val) := by
  have h256 : ¬ dom.val < 256 := by omega
  have h288 : ¬ 288 ≤ dom.val := by omega
  have huci : ¬ dom.val = domUci := by
    rw [domUci]
    omega
  have hfab : (decide (dom.val < 272) && decide ((s.dev.dom dom.val).level ≥ 3)) = false := by
    simp only [Bool.and_eq_false_iff, decide_eq_false_iff_not]
    omega
  change execDomainExit dom s = _
  simp only [execDomainExit, hexit, hon, ne_eq, not_false_eq_true, decide_true, Bool.true_or, Bool.and_self, if_true, h256, h288, huci,
    hlo, Bool.true_and, hfab, decide_false, Bool.false_and, Bool.false_eq_true, if_false, hwake, State.onDev]

theorem exec_domainExit_cluster (hclu : dom.val < 256) :
    exec (.domainExit dom) s = s.done
      (((s.onDev fun d => d.setDom dom.val fun y => { DomS.init with deadline := y.deadline, upAt := d.now }).cluUp dom.val
        (s.dev.dom dom.val).level (s.dev.dom dom.val).source).onDev fun e =>
          if (s.dev.dom dom.val).source then e else e.restOn dom.val) := by
  have h256 : ¬ 256 ≤ dom.val := by omega
  have h288 : ¬ 288 ≤ dom.val := by omega
  have huci : ¬ dom.val = domUci := by
    rw [domUci]
    omega
  change execDomainExit dom s = _
  simp only [execDomainExit, hexit, hon, ne_eq, not_false_eq_true, decide_true, Bool.true_or, Bool.and_self, if_true, hclu, h256, h288,
    huci, Bool.not_true, Bool.or_false, decide_false, Bool.false_and, Bool.false_eq_true, if_false, hwake]

end

theorem exec_firstAccess (hon : s.dev.pstate ≠ 4) (hhi : dom.val < 308) (hlo : 256 ≤ dom.val) (hin : s.dev.domOut dom.val = false)
    (henter : (s.dev.dom dom.val).entering = none) (hlev : (s.dev.dom dom.val).level ≠ 0) :
    exec (.firstAccess dom) s =
      .next (s.onDev fun d => d.setDom dom.val fun y => { y with exiting := true, source := true, pre := false }) := by
  have h308 : ¬ dom.val ≥ 308 := by omega
  have h256 : ¬ dom.val < 256 := by omega
  change execFirstAccess dom s = _
  simp only [execFirstAccess, State.upd, State.onDev, hon, h308, decide_false, Bool.or_self, Bool.false_eq_true, if_false, Dev.demand, hin,
    henter, hlev, h256, Option.isSome_none, Bool.false_and, Bool.or_true]

theorem exec_wakeFail (hexit : (s.dev.dom dom.val).exiting = true) (hclu : dom.val < 256) (hwake : s.dev.pch.waking = false) :
    exec (.wakeFail dom) s = s.done (s.onDev fun d =>
      (d.setDom dom.val fun y => { y with exiting := false, demand := false }).raise (evU bCLU dom.val) 10 2 0) := by
  change execWakeFail dom s = _
  simp only [execWakeFail, hexit, Bool.true_or, if_true, hclu, hwake, Bool.false_eq_true, if_false]

end

/-! Device states. -/

section
variable {s : State}

theorem exec_target_of_reserved (hwake : s.dev.pch.waking = false) {v : BitVec 3} (hv : 5 ≤ v.toNat) :
    exec (.target v) s = s.done (s.onDev fun d => (((d.setF F.PCH_PSTATE_CTRL_TARGET 0 v.toNat).setF F.PCH_PSTATE_STATUS_REJ 0 1).setF
      F.PCH_PSTATE_STATUS_REASON 0 3)) := by
  change execTarget v s = _
  simp only [execTarget, State.wrPstate, State.requestState, State.onDev, Dev.setF_pch, hwake, Bool.false_eq_true, if_false, ge_iff_le, hv,
    if_true, Dev.refuseState]

theorem exec_target_run (hwake : s.dev.pch.waking = false) :
    exec (.target 0) s = s.done (s.onDev fun d => (d.setF F.PCH_PSTATE_CTRL_TARGET 0 0).deviceWake 4) := by
  have h5 : ¬ 5 ≤ 0 := by decide
  have h0 : (0 : BitVec 3).toNat = 0 := rfl
  change execTarget 0 s = _
  simp only [execTarget, h0, State.wrPstate, State.requestState, State.onDev, Dev.setF_pch, hwake, Bool.false_eq_true, if_false, ge_iff_le,
    h5, if_true]

/-- A write of TARGET stores the field alone. -/
theorem Dev.fld_setTarget {f : Fld} (h : f.reg.code ≠ R.PCH_PSTATE_CTRL.code) (d : Dev) (v : Nat) :
    (d.setF F.PCH_PSTATE_CTRL_TARGET 0 v).fld f 0 = d.fld f 0 :=
  Dev.fld_setF_other (f := F.PCH_PSTATE_CTRL_TARGET) h d 0 v 0

theorem exec_target_idle (hwake : s.dev.pch.waking = false) (hrun : s.dev.pstate = 0)
    (hstill : s.dev.flag F.PCH_PSTATE_STATUS_CHANGING 0 = false) (hnone : s.dev.fld F.CMD_STATUS_INFLIGHT 0 = 0) :
    exec (.target 1) s = s.done (s.onDev fun d => (d.setF F.PCH_PSTATE_CTRL_TARGET 0 1).startState 1) := by
  have hrun' : (s.dev.setF F.PCH_PSTATE_CTRL_TARGET 0 1).pstate = 0 := (Dev.fld_setTarget (by decide) s.dev 1).trans hrun
  have hstill' : (s.dev.setF F.PCH_PSTATE_CTRL_TARGET 0 1).flag F.PCH_PSTATE_STATUS_CHANGING 0 = false := by
    rw [Dev.flag, Dev.fld_setTarget (by decide)]
    exact hstill
  have hnone' : (s.dev.setF F.PCH_PSTATE_CTRL_TARGET 0 1).fld F.CMD_STATUS_INFLIGHT 0 = 0 :=
    (Dev.fld_setTarget (by decide) s.dev 1).trans hnone
  have h1 : (1 : BitVec 3).toNat = 1 := rfl
  have h15 : ¬ 5 ≤ 1 := by decide
  have h10 : ¬ 1 = 0 := by decide
  have h04 : ¬ 0 = 4 := by decide
  have hdeeper : ¬ 1 < 0 := by decide
  have h12 : ¬ 2 ≤ 1 := by decide
  have h13 : ¬ 3 ≤ 1 := by decide
  have h14 : ¬ 1 = 4 := by decide
  change execTarget 1 s = _
  simp only [execTarget, h1, State.wrPstate, State.requestState, State.onDev, Dev.setF_pch, hwake, Bool.false_eq_true, if_false, ge_iff_le,
    h15, h10, hstill', hrun', hnone', h04, hdeeper, h12, h13, h14, ne_eq, not_true_eq_false, decide_false, Bool.false_and, Bool.or_self]

/-! Wake sources. -/

theorem exec_wakeN_of_on (hon : s.dev.pstate ≠ 4) (hen : s.dev.flag F.PCH_WAKE_CTRL_PIN_EN 0 = true) :
    exec .wakeN s = .next (s.onDev fun d => (d.modPch fun p => { p with pinIgnored := false }).deviceWake 1) := by
  have hon' : ¬ (s.dev.modPch fun p => { p with pinIgnored := false }).pstate = 4 := hon
  have hen' : (s.dev.modPch fun p => { p with pinIgnored := false }).flag F.PCH_WAKE_CTRL_PIN_EN 0 = true := hen
  change execWakeN s = _
  simp only [execWakeN, State.upd, State.onDev, hon', hen', if_false, if_true]

theorem exec_wakeN_of_off (hoff : s.dev.pstate = 4) :
    exec .wakeN s = .next (s.onDev fun d => (d.modPch fun p => { p with pinIgnored := false }).emit (.pin 1 true)) := by
  have hoff' : (s.dev.modPch fun p => { p with pinIgnored := false }).pstate = 4 := hoff
  change execWakeN s = _
  simp only [execWakeN, State.upd, State.onDev, hoff', if_true]

theorem exec_wakeAlarm (hen : s.dev.flag F.PCH_WAKE_CTRL_ALARM_EN 0 = true) (hat : s.dev.fld F.PCH_WAKE_AT_NT 0 ≤ s.dev.ntAt bPCH 0)
    (hnew : s.dev.pch.alarmAt ≠ some (s.dev.fld F.PCH_WAKE_AT_NT 0)) (hon : s.dev.pstate ≠ 4) :
    exec .wakeAlarm s = .next (s.onDev fun d =>
      (d.modPch fun p => { p with alarmAt := some (s.dev.fld F.PCH_WAKE_AT_NT 0) }).deviceWake 3) := by
  change execWakeAlarm s = _
  simp only [execWakeAlarm, State.upd, State.onDev, hen, ge_iff_le, hat, hnew, hon, ne_eq, not_false_eq_true, decide_true, Bool.and_self,
    if_true]

theorem exec_wakeSlow (hwake : s.dev.pch.waking = true) (hfree : s.dev.flag F.PWR_CURTAIL_ACTIVE 0 = false) :
    exec .wakeSlow s = .next (s.onDev fun d => d.raise (evU bPCH 0) 2 0 0) := by
  change execWakeSlow s = _
  simp only [execWakeSlow, State.upd, State.onDev, hwake, hfree, Bool.not_false, Bool.and_self, if_true]

theorem exec_wakePinStuck (hpin : s.dev.pch.pinIgnored = false) :
    exec .wakePinStuck s = .next (s.onDev fun d => (d.modPch fun p => { p with pinIgnored := true }).raise (evU bPCH 0) 3 0 0) := by
  change execWakePinStuck s = _
  simp only [execWakePinStuck, State.upd, State.onDev, hpin, Bool.false_eq_true, if_false]

end

/-- Settles O55, command by command. -/
theorem sleepCommandsTakeEffect : Obligations.SleepCommandsTakeEffect := by
  unfold Obligations.SleepCommandsTakeEffect
  intro s dom
  exact ⟨fun lvl hmay hin henter hexit hlev hcan => exec_domainEntry hmay hin henter hexit hlev hcan,
    fun lvl henter hlev hdem hwake => State.gives_of_done (exec_domainEntryComplete henter hlev hdem hwake),
    fun hexit hon hlo hhi hplain hwake => State.gives_of_done (exec_domainExit_edge hexit hon hwake hlo hhi hplain),
    fun hexit hon hclu hwake => State.gives_of_done (exec_domainExit_cluster hexit hon hwake hclu), exec_firstAccess,
    fun v hwake hv => State.gives_of_done (exec_target_of_reserved hwake hv), fun hwake => State.gives_of_done (exec_target_run hwake),
    fun hwake hrun hstill hnone => State.gives_of_done (exec_target_idle hwake hrun hstill hnone), exec_wakeN_of_on, exec_wakeN_of_off,
    exec_wakeAlarm, fun hexit hclu hwake => State.gives_of_done (exec_wakeFail hexit hclu hwake), exec_wakeSlow, exec_wakePinStuck⟩

end Sys2Proof.Machine
end

section
/-! PROOF. Clocks and network time (spec/14_clocks_and_time.md R495 to R520). -/

namespace Sys2Proof.Machine

/-! PLLs, the reference and the Chameleons. -/

section
variable {s : State}

theorem gives_pllFail {field : FieldN} (hin : s.dev.fieldLost field.val = false) (hst : s.dev.fld F.FLD_CLK_PLL0 field.val = 2)
    (hspare : s.dev.fld F.FLD_CLK_PLL1 field.val = 1) :
    s.Gives (exec (.pllFail field false) s) (s.lostEnd
      (((((s.dev.setF F.FLD_CLK_PLL0 field.val 3).setF F.FLD_CLK_PLL1 field.val 2).setB F.FLD_CLK_ACTIVE field.val true).loseFrames
        field.val).raise (evU bFLD field.val) 7 1 32)) := by
  have hstill : (s.dev.setF F.FLD_CLK_PLL0 field.val 3).fld F.FLD_CLK_PLL1 field.val = 1 :=
    (Dev.fld_setF_apart (f := F.FLD_CLK_PLL0) (g := F.FLD_CLK_PLL1) rfl (by decide) (by decide) s.dev _ 3 0).trans hspare
  have h20 : ¬ 2 = 0 := by decide
  have h23 : ¬ 2 = 3 := by decide
  have h13 : ¬ 1 = 3 := by decide
  change s.Gives (execPllFail field false s) _
  rw [execPllFail]
  refine s.gives_updLost ?_
  simp only [pllFld, hin, hst, hstill, h20, h23, h13, Bool.false_eq_true, Bool.not_false, if_false, if_true, decide_false, Bool.or_self, b2n,
    Nat.add_zero]

theorem exec_refLoss (href : s.dev.flag F.TIM_STATUS_REF 0 = false) :
    exec .refLoss s = .next (s.onDev fun d => ((d.setF F.TIM_STATUS_REF 0 1).showRef 1).raise (evU bTIM 0) 1 1 0) := by
  change execRefLoss s = _
  simp only [execRefLoss, State.upd, State.onDev, href, Bool.false_eq_true, if_false]

theorem exec_refclkRestore (href : s.dev.flag F.TIM_STATUS_REF 0 = true) :
    exec .refclkRestore s = .next (s.onDev fun d => (d.setF F.TIM_STATUS_REF 0 0).showRef 0) := by
  change execRefclkRestore s = _
  simp only [execRefclkRestore, State.upd, State.onDev, href, if_true]

theorem exec_oscTrim (href : s.dev.flag F.TIM_STATUS_REF 0 = false) :
    exec .oscTrim s = .next (s.onDev fun d => d.modPch fun p => { p with trimAt := some d.now }) := by
  change execOscTrim s = _
  simp only [execOscTrim, State.upd, State.onDev, href, Bool.false_eq_true, if_false]

theorem exec_droop {c : Core} {cycles : Nat} (hcyc : cycles ≠ 0) (hin : s.dev.siteOut c.site.val = false)
    (hcore : s.dev.coreAbsent (coreU c) = false) :
    exec (.droop c cycles) s = .next (s.onDev fun d =>
      (d.addSat F.COR_CLK_STRETCH (coreU c) cycles).modPwr fun p =>
        { p with droop := fieldOf c.site.val :: p.droop.filter (· != fieldOf c.site.val) }) := by
  rw [coreU] at hcore
  change execDroop c cycles s = _
  simp only [execDroop, State.upd, State.onDev, hcyc, hin, hcore, decide_false, Bool.or_self, Bool.false_eq_true, if_false, coreU]

theorem exec_clkFail {c : Core} (hin : s.dev.siteOut c.site.val = false) (hcore : s.dev.coreAbsent (coreU c) = false)
    (hst : s.dev.coreState (coreU c) ≠ 4) :
    exec (.clkFail c) s = .next (s.onDev fun d =>
      ((((d.setF F.COR_CLK_FLL_LOCK (coreU c) 0).coreOff (coreU c) 3).modCore (coreU c) fun x =>
        { x with cd := [], v := [], m := [], held := none, halting := 0 }).askCore (coreU c)).raise (evU 1 (coreU c)) 11 2 0) := by
  rw [coreU] at hcore hst
  change execClkFail c s = _
  simp only [execClkFail, State.upd, State.onDev, hst, hin, hcore, decide_false, Bool.or_self, Bool.false_eq_true, if_false, coreU]

end

/-! Beacons. -/

/-- What a field shows of its timebase, with what the die keeps of every field's. -/
def Dev.beaconView (d : Dev) (f : Nat) : Bool × Int × Int × Int :=
  (d.flag F.FLD_CLK_TB_LOST f, sget d.tim.tb 0 f, d.tim.lag, d.tim.due)

theorem Dev.beaconView_beaconAt_other {f g : Nat} (h : f ≠ g) (d : Dev) : (d.beaconAt g).beaconView f = d.beaconView f := by
  have hkey : R.FLD_CLK.key f 0 ≠ R.FLD_CLK.key g 0 := by
    simp only [Reg.key, R.FLD_CLK]
    omega
  have htb : sget (d.beaconAt g).tim.tb 0 f = sget d.tim.tb 0 f := sget_sset_ne _ _ _ h _
  have hlost : (d.beaconAt g).flag F.FLD_CLK_TB_LOST f = d.flag F.FLD_CLK_TB_LOST f := by
    rw [Dev.beaconAt, Dev.flag, Dev.fld_setF_key _ F.FLD_CLK_TB_LOST F.FLD_CLK_TB_LOST _ _ _ _ _ hkey,
      Dev.fld_setF_key _ F.FLD_CLK_TB_ERR F.FLD_CLK_TB_LOST _ _ _ _ _ hkey]
    rfl
  rw [Dev.beaconView, hlost, htb]
  rfl

theorem Dev.beaconView_beaconAt_self (d : Dev) (f : Nat) : (d.beaconAt f).beaconView f =
    (false, sget d.tim.tb 0 f + d.tim.due - clampI 40000000000 (d.tbErr f + d.tim.due), d.tim.lag, d.tim.due) := by
  have hlost : (d.beaconAt f).flag F.FLD_CLK_TB_LOST f = false := by
    rw [Dev.beaconAt, Dev.flag, Dev.fld_setF_self_of_lt (f := F.FLD_CLK_TB_LOST) (by decide) (by decide)]
    rfl
  have htb : sget (d.beaconAt f).tim.tb 0 f = sget d.tim.tb 0 f + d.tim.due - clampI 40000000000 (d.tbErr f + d.tim.due) :=
    (sget_sset ..).trans (if_pos rfl)
  rw [Dev.beaconView, hlost, htb]
  rfl

/-- Of the beacons of distinct fields, a field is shown its own. -/
theorem Dev.beaconView_each {f : Nat} {fs : List Nat} (hf : f ∈ fs) (hnd : fs.Nodup) (d : Dev) :
    (d.each fs Dev.beaconAt).beaconView f = (d.beaconAt f).beaconView f := by
  have hrest : ∀ (gs : List Nat), f ∉ gs → ∀ e : Dev, (e.each gs Dev.beaconAt).beaconView f = e.beaconView f := by
    intro gs hgs
    induction gs with
    | nil => exact fun _ => rfl
    | cons g gs ih =>
      intro e
      obtain ⟨hg, hgs⟩ := not_or.1 (mt List.mem_cons.2 hgs)
      exact (ih hgs _).trans (Dev.beaconView_beaconAt_other hg e)
  have hview : ∀ e : Dev, e.beaconView f = d.beaconView f → (e.beaconAt f).beaconView f = (d.beaconAt f).beaconView f := by
    intro e h
    simp only [Dev.beaconView, Prod.mk.injEq] at h
    obtain ⟨-, htb, hlag, hdue⟩ := h
    simp only [Dev.beaconView_beaconAt_self, Dev.tbErr, htb, hlag, hdue]
  suffices ∀ (gs : List Nat), f ∈ gs → gs.Nodup → ∀ e : Dev, e.beaconView f = d.beaconView f →
      (e.each gs Dev.beaconAt).beaconView f = (d.beaconAt f).beaconView f from this fs hf hnd d rfl
  intro gs hmem hgs
  induction gs with
  | nil => exact absurd hmem List.not_mem_nil
  | cons g gs ih =>
    intro e he
    obtain ⟨hg, hgs⟩ := List.nodup_cons.1 hgs
    by_cases hfg : f = g
    · subst hfg
      exact (hrest gs hg _).trans (hview e he)
    · exact ih ((List.mem_cons.1 hmem).resolve_left hfg) hgs _ ((Dev.beaconView_beaconAt_other hfg e).trans he)

theorem beacon_effect {s : State} {field : FieldN} (hin : s.dev.fieldLost field.val = false) :
    ∃ t, exec .beacon s = .next t ∧ t.MemKept s ∧ t.dev.flag F.FLD_CLK_TB_LOST field.val = false ∧ t.dev.tim.due = 0 ∧
      sget t.dev.tim.tb 0 field.val =
        sget s.dev.tim.tb 0 field.val + s.dev.tim.due - clampI 40000000000 (s.dev.tbErr field.val + s.dev.tim.due) := by
  have hmem : field.val ∈ (List.range 16).filter fun f => !s.dev.fieldLost f :=
    List.mem_filter.2 ⟨List.mem_range.2 field.isLt, by rw [hin]; rfl⟩
  have hview := (Dev.beaconView_each hmem (List.nodup_range.filter _) s.dev).trans (s.dev.beaconView_beaconAt_self field.val)
  simp only [Dev.beaconView, Prod.mk.injEq] at hview
  obtain ⟨hlost, htb, -, -⟩ := hview
  exact ⟨_, rfl, ⟨rfl, rfl, rfl, rfl⟩, hlost, rfl, htb⟩

theorem exec_tbLost {s : State} {field : FieldN} (hin : s.dev.fieldLost field.val = false)
    (hlost : s.dev.flag F.FLD_CLK_TB_LOST field.val = false) :
    exec (.tbLost field) s =
      .next (s.onDev fun d => (d.setF F.FLD_CLK_TB_LOST field.val 1).raise (evU bFLD field.val) 9 0 detField) := by
  change execTbLost field s = _
  simp only [execTbLost, State.upd, State.onDev, hin, hlost, Bool.or_self, Bool.false_eq_true, if_false]

/-! PTP messages. -/

/-- A message inside the subset of Table 14-2. -/
theorem Dev.ptpIn_of {d : Dev} {dom : Nat} {udp supported : Bool} (hsup : supported = true) (hudp : udp = d.flag F.TIM_CTRL_TRANSPORT 0)
    (hdom : dom = d.fld F.TIM_CTRL_DOMAIN 0) : d.ptpIn dom udp supported = true := by
  simp only [Dev.ptpIn, hsup, ← hudp, ← hdom, decide_true, Bool.and_self, beq_self_eq_true]

/-- With a path term, a Sync of one step is a sample. -/
theorem Dev.paired_of_locked {d : Dev} {b : Int} (hst : d.timSt = 2) (hpath : d.tim.path2 = some b) (a log : Int) :
    d.paired a log = (d.modTim fun t => { t with sync := none, logSync := log, syncAt := d.now }).ptpSample a b log := by
  have h20 : ¬ 2 = 0 := by decide
  have h23 : ¬ 2 = 3 := by decide
  have h24 : ¬ 2 = 4 := by decide
  simp only [Dev.paired, Dev.sourceBack, hst, h20, h23, h24, decide_false, Bool.or_self, Bool.false_eq_true, if_false, Dev.modTim, hpath]

section
variable {s : State} {m : PtpMsg} (hon : s.dev.ptpOn = true) (hsup : m.supported = true)
  (hudp : m.udp = s.dev.flag F.TIM_CTRL_TRANSPORT 0) (hdom : m.domain.toNat = s.dev.fld F.TIM_CTRL_DOMAIN 0)
  (hmaster : s.dev.fromMaster m.source = true)
include hon hsup hudp hdom hmaster

section
variable (hlo : -7 ≤ m.logInterval) (hhi : m.logInterval ≤ 0)
include hlo hhi

/-- A Sync inside the subset, of the selected master. -/
theorem exec_sync : exec (.sync m) s = .next (s.onDev fun d =>
    if m.twoStep then d.modTim fun t => { t with sync := some m }
    else d.paired (d.rxStamp m.received - m.origin - m.correction) m.logInterval) := by
  have hin : s.dev.ptpIn m.domain.toNat m.udp (m.supported && decide (-7 ≤ m.logInterval) && decide (m.logInterval ≤ 0)) = true :=
    Dev.ptpIn_of (by simp only [hsup, hlo, hhi, decide_true, Bool.and_self]) hudp hdom
  change execSync m s = _
  simp only [execSync, State.upd, State.onDev, hin, hon, hmaster, Bool.not_true, Bool.false_eq_true, if_false]

theorem exec_sync_twoStep (htwo : m.twoStep = true) :
    exec (.sync m) s = .next (s.onDev fun d => d.modTim fun t => { t with sync := some m }) :=
  (exec_sync hon hsup hudp hdom hmaster hlo hhi).trans (next_onDev_congr (if_pos htwo))

theorem exec_sync_oneStep {b : Int} (hone : m.twoStep = false) (hst : s.dev.timSt = 2) (hpath : s.dev.tim.path2 = some b) :
    exec (.sync m) s = .next (s.onDev fun d =>
      (d.modTim fun t => { t with sync := none, logSync := m.logInterval, syncAt := d.now }).ptpSample
        (d.rxStamp m.received - m.origin - m.correction) b m.logInterval) := by
  have hnot : ¬ m.twoStep = true := by
    rw [hone]
    decide
  exact (exec_sync hon hsup hudp hdom hmaster hlo hhi).trans (next_onDev_congr ((if_neg hnot).trans
    (Dev.paired_of_locked hst hpath _ _)))

end

theorem exec_followUp {y : PtpMsg} (hsync : s.dev.tim.sync = some y) (hsrc : y.source = m.source) (hseq : y.seq = m.seq) :
    exec (.followUp m) s = .next (s.onDev fun d =>
      d.paired (d.rxStamp y.received - m.origin - y.correction - m.correction) y.logInterval) := by
  have hin := Dev.ptpIn_of hsup hudp hdom
  change execFollowUp m s = _
  simp only [execFollowUp, State.upd, State.onDev, hin, hon, hsync, hsrc, hseq, hmaster, and_self, Bool.not_true, Bool.false_eq_true,
    if_false, if_true]

theorem exec_delayResp {t3 : Nat} (hreq : s.dev.tim.reqT3 = some t3) (hseq : m.seq.toNat = s.dev.tim.reqSeq) :
    exec (.delayResp m) s = .next (s.onDev fun d =>
      d.modTim fun t => { t with reqT3 := none, path2 := some ((m.origin : Int) - t3 - m.correction) }) := by
  have hin := Dev.ptpIn_of hsup hudp hdom
  change execDelayResp m s = _
  simp only [execDelayResp, State.upd, State.onDev, hin, hon, hreq, hseq, hmaster, decide_true, Bool.and_self, Bool.not_true,
    Bool.false_eq_true, if_false, if_true]

end

section
variable {s : State}

theorem exec_sync_ignored {m : PtpMsg} (h : m.supported = false ∨ m.domain.toNat ≠ s.dev.fld F.TIM_CTRL_DOMAIN 0 ∨
    m.udp ≠ s.dev.flag F.TIM_CTRL_TRANSPORT 0) : exec (.sync m) s = .next (s.onDev fun d => d.addSat F.TIM_STATUS_IGNORED 0 1) := by
  have hout : s.dev.ptpIn m.domain.toNat m.udp (m.supported && decide (-7 ≤ m.logInterval) && decide (m.logInterval ≤ 0)) = false := by
    rw [Dev.ptpIn]
    rcases h with h | h | h
    · simp only [h, Bool.false_and]
    · simp only [h, decide_false, Bool.and_false, Bool.false_and]
    · simp only [beq_eq_false_iff_ne.2 h, Bool.and_false]
  change execSync m s = _
  simp only [execSync, State.upd, State.onDev, hout, Bool.not_false, if_true, Dev.ptpIgnore]

/-- A second Announce of the one master known selects it. -/
theorem exec_announce_second {a : PtpAnnounce} (hon : s.dev.ptpOn = true) (hsup : a.supported = true)
    (hudp : a.udp = s.dev.flag F.TIM_CTRL_TRANSPORT 0) (hdom : a.domain.toNat = s.dev.fld F.TIM_CTRL_DOMAIN 0)
    (hforeign : s.dev.tim.foreign = [(a, 1)]) (hnone : s.dev.tim.master = none) :
    exec (.announce a) s = .next (s.onDev fun d =>
      ((d.modTim fun t => { t with foreign := [(a, 2)], master := some a, sync := none, reqT3 := none, path2 := none,
                                   delays := [], syncAt := d.now, annAt := d.now, annLog := a.logInterval }).setR
        R.TIM_MASTER 0 a.source).enterTim 1) := by
  have hin := Dev.ptpIn_of hsup hudp hdom
  have hbest : bestMaster [(a, 2)] = some a := rfl
  have hmin : min 2 (1 + 1) = 2 := rfl
  change execAnnounce a s = _
  simp only [execAnnounce, State.upd, State.onDev, hin, hon, Dev.fromMaster, hnone, hforeign, List.find?_cons, beq_self_eq_true, bne_self_eq_false,
    List.filter_cons, List.filter_nil, hmin, Dev.choose, Dev.modTim, hbest, Bool.not_true, Bool.false_eq_true, if_false]
  rfl

theorem exec_delayReq (hon : s.dev.ptpOn = true) (hmaster : s.dev.tim.master ≠ none) (t3 : Nat) :
    exec (.delayReq t3) s = .next (s.onDev fun d =>
      let n := (d.tim.reqSeq + 1) % 65536
      (d.modTim fun t => { t with reqSeq := n, reqT3 := some (((t3 : Int) + s32 (d.fld F.TIM_ASYM_EGRESS 0)).toNat) }).emit (.delayReq n)) := by
  change execDelayReq t3 s = _
  simp only [execDelayReq, State.upd, State.onDev, hon, Option.isSome_iff_ne_none.2 hmaster, Bool.and_self, if_true]

/-! Sources that are lost. -/

/-- A locked clock that PTP alone disciplines goes to HOLDOVER. -/
theorem Dev.sourceGone_of_locked {d : Dev} (hsrc : d.timSrc = 0) (hst : d.timSt = 2) (hever : d.flag F.TIM_STATUS_EVER_LOCKED 0 = true) :
    d.sourceGone = d.holdover := by
  have h02 : ¬ 0 = 2 := by decide
  have h23 : ¬ 2 = 3 := by decide
  simp only [Dev.sourceGone, hsrc, hst, hever, h02, h23, decide_false, Bool.false_and, Bool.false_eq_true, if_false, if_true]

section
variable {x : PtpAnnounce} (hmaster : s.dev.tim.master = some x) (hon : s.dev.ptpOn = true) (hsrc : s.dev.timSrc = 0)
  (hst : s.dev.timSt = 2) (hever : s.dev.flag F.TIM_STATUS_EVER_LOCKED 0 = true)
include hmaster hon hsrc hst hever

theorem exec_sourceLoss_of_syncs (hsync : s.dev.tim.syncAt + 4 * logNs s.dev.tim.logSync ≤ s.dev.now)
    (hann : s.dev.now < s.dev.tim.annAt + s.dev.annTmo * logNs s.dev.tim.annLog) :
    exec .sourceLoss s = .next (s.onDev fun d => d.holdover) := by
  change execSourceLoss s = _
  simp only [execSourceLoss, State.upd, State.onDev, hmaster, hon, ge_iff_le, hsync, hann, decide_true, Bool.and_self, Bool.not_true,
    Bool.false_eq_true, if_false, if_true, Dev.sourceGone_of_locked hsrc hst hever]

theorem exec_sourceLoss_of_last (hforeign : s.dev.tim.foreign = [])
    (hann : s.dev.tim.annAt + s.dev.annTmo * logNs s.dev.tim.annLog ≤ s.dev.now) :
    exec .sourceLoss s = .next (s.onDev fun d =>
      ((d.modTim fun t => { t with master := none, sync := none, reqT3 := none, path2 := none, delays := [] }).setR
        R.TIM_MASTER 0 0).holdover) := by
  have hold : ¬ s.dev.now < s.dev.tim.annAt + s.dev.annTmo * logNs s.dev.tim.annLog := by omega
  have hkeep (f : Fld) (h : f.reg.code ≠ R.TIM_MASTER.code) : ((s.dev.modTim fun t =>
      { t with master := none, sync := none, reqT3 := none, path2 := none, delays := [] }).setR R.TIM_MASTER 0 0).fld f 0 =
      s.dev.fld f 0 := by
    rw [Dev.fld, Dev.getR_setR_key _ _ _ _ _ _ _ _ (Reg.key_ne_of_code_ne h 0 0)]
    rfl
  have hgone : ((s.dev.modTim fun t =>
      { t with master := none, sync := none, reqT3 := none, path2 := none, delays := [] }).setR R.TIM_MASTER 0 0).sourceGone =
      ((s.dev.modTim fun t =>
      { t with master := none, sync := none, reqT3 := none, path2 := none, delays := [] }).setR R.TIM_MASTER 0 0).holdover := by
    refine Dev.sourceGone_of_locked ?_ ?_ ?_
    · rw [Dev.timSrc, hkeep _ (by decide)]
      exact hsrc
    · rw [Dev.timSt, hkeep _ (by decide)]
      exact hst
    · rw [Dev.flag, hkeep _ (by decide)]
      exact hever
  have hbest : bestMaster [] = none := rfl
  have hfil : (s.dev.modTim fun t => { t with master := none, sync := none, reqT3 := none, path2 := none, delays := [],
                                              foreign := t.foreign.filter fun y => y.1.source != x.source }) =
      s.dev.modTim fun t => { t with master := none, sync := none, reqT3 := none, path2 := none, delays := [] } := by
    simp only [Dev.modTim, hforeign, List.filter_nil]
  have hleft : ((s.dev.modTim fun t => { t with master := none, sync := none, reqT3 := none, path2 := none, delays := [] }).setR
      R.TIM_MASTER 0 0).tim.foreign = [] := hforeign
  change execSourceLoss s = _
  simp only [execSourceLoss, State.upd, State.onDev, hmaster, hon, hold, decide_false, Bool.and_false, Bool.not_true, Bool.false_eq_true,
    if_false, hfil, hleft, hbest, Option.isSome_none, hgone]

end

/-! Pulse per second. -/

theorem exec_ppsInEdge_late {t : Nat} (hat : s.dev.tim.ppsAt = some t) (hvalid : s.dev.flag F.TIM_STATUS_PPS_VALID 0 = true)
    (hlate : t + 1001000000 < s.dev.now) : exec .ppsInEdge s = .next (s.onDev fun d => d.addSat F.TIM_PPS_IN_IGN 0 1) := by
  have hoff : ¬ s.dev.now ≤ t + 1001000000 := by omega
  change execPpsInEdge s = _
  simp only [execPpsInEdge, State.upd, State.onDev, hat, hvalid, hoff, decide_false, Bool.and_false, Bool.not_false, Bool.and_self, if_true]

theorem exec_ppsInEdge_first (hat : s.dev.tim.ppsAt = none) (hvalid : s.dev.flag F.TIM_STATUS_PPS_VALID 0 = false) :
    exec .ppsInEdge s = .next (s.onDev fun d =>
      (d.addSat F.TIM_PPS_IN_ACC 0 1).modTim fun t => { t with ppsAt := some d.now, ppsRun := 1 }) := by
  have hmin : min 3 1 = 1 := rfl
  have hfew : 1 < 3 := by decide
  change execPpsInEdge s = _
  simp only [execPpsInEdge, State.upd, State.onDev, hat, hvalid, Bool.false_and, Bool.false_eq_true, if_false, hmin, hfew, Bool.not_false,
    decide_true, Bool.and_self, if_true]

theorem exec_ppsInvalid (hdrives : s.dev.ppsDrives = true) (hvalid : s.dev.flag F.TIM_STATUS_PPS_VALID 0 = true) :
    exec .ppsInvalid s = .next (s.onDev fun d =>
      (((d.setF F.TIM_STATUS_PPS_VALID 0 0).modTim fun t => { t with ppsAt := none, ppsRun := 0 }).raise (evU bTIM 0) 4 0 0).holdover) := by
  change execPpsInvalid s = _
  simp only [execPpsInvalid, State.upd, State.onDev, hdrives, hvalid, Bool.and_self, if_true]

theorem exec_ppsOut (hmode : s.dev.fld F.TIM_CTRL_PPS_OUT_MODE 0 = 2) (hfirst : s.dev.tim.ppsOut = none) :
    exec .ppsOut s = .next (s.onDev fun d =>
      (d.emit (.pps (min 500 (max 1 (d.fld F.TIM_PPS_WIDTH 0))))).modTim fun t => { t with ppsOut := some d.now }) := by
  have h23 : ¬ 2 = 3 := by decide
  change execPpsOut s = _
  simp only [execPpsOut, State.upd, State.onDev, hmode, hfirst, h23, if_false, decide_true, Bool.true_or, Bool.not_false, Bool.and_self,
    if_true]

end

/-- Settles O56, command by command. -/
theorem timeCommandsTakeEffect : Obligations.TimeCommandsTakeEffect := by
  unfold Obligations.TimeCommandsTakeEffect
  intro s field c m a
  refine ⟨gives_pllFail, exec_refLoss, exec_refclkRestore, exec_oscTrim, beacon_effect, exec_tbLost,
    fun cycles hcyc hin hcore => exec_droop hcyc hin hcore, exec_clkFail, ?_, exec_announce_second,
    fun t3 hon hmaster => exec_delayReq hon hmaster t3, fun m h => exec_sync_ignored h,
    fun x hmaster hon hsrc hst hever hsync hann => exec_sourceLoss_of_syncs hmaster hon hsrc hst hever hsync hann,
    fun x hmaster hon hsrc hforeign hst hann hever => exec_sourceLoss_of_last hmaster hon hsrc hst hever hforeign hann,
    fun t hat hvalid hlate => exec_ppsInEdge_late hat hvalid hlate, exec_ppsInEdge_first, exec_ppsInvalid, exec_ppsOut, rfl⟩
  intro hon hsup hudp hdom hmaster
  exact ⟨exec_sync_twoStep hon hsup hudp hdom hmaster,
    fun b hlo hhi hone hst hpath => exec_sync_oneStep hon hsup hudp hdom hmaster hlo hhi hone hst hpath,
    fun y hsync hsrc hseq => exec_followUp hon hsup hudp hdom hmaster hsync hsrc hseq,
    fun t3 hreq hseq => exec_delayResp hon hsup hudp hdom hmaster hreq hseq⟩

end Sys2Proof.Machine
end

section
/-! PROOF. The start paths (spec/16_start_and_configuration.md R425, R531 to R547; spec/20_pins_and_ratings.md R616, R618). -/

namespace Sys2Proof.Machine

section
variable {s : State} {img : Images} {t : StartTest}

theorem exec_coldStart (hstart : s.dev.canStart = true) : exec (.coldStart img t) s = s.done (s.coldRun img t) := by
  change execColdStart img t s = _
  simp only [execColdStart, hstart, if_true]

section
variable (hst : s.dev.fld F.BSQ_STATUS_STATE 0 = 2) (hnone : s.dev.boot.restart = none)
include hst hnone

/-- In Ready with no field lost, a warm reset takes the warm path. -/
theorem State.warmReset_of_ready : s.warmReset img t = s.warmRun img t := by
  have h23 : ¬ 2 = 3 := by decide
  have h21 : ¬ 2 = 1 := by decide
  simp only [State.warmReset, hst, hnone, h23, h21, decide_false, Bool.false_and, Bool.or_self, Bool.false_eq_true, if_false, ne_eq,
    not_true_eq_false]

theorem exec_warmReset (hon : s.dev.pstate ≠ 4) : exec (.warmReset img t) s = s.done (s.warmRun img t) := by
  change execWarmReset img t s = _
  simp only [execWarmReset, hon, if_false, State.warmReset_of_ready hst hnone]

theorem exec_bsqWarm (hreq : s.dev.boot.warmReq = true) :
    exec (.bsqWarm img t) s = s.done
      ((s.onDev fun d => ({ d with boot := { d.boot with warmReq := false } } : Dev)).warmRun img t) := by
  change execBsqWarm img t s = _
  simp only [execBsqWarm, hreq, if_true]
  exact congrArg s.done (State.warmReset_of_ready hst hnone)

end

theorem exec_fieldLossRestart {f : Nat} (hlost : s.dev.boot.restart = some f) (hauto : s.dev.flag F.BSQ_CTRL_AUTO_VARIANT 0 = true)
    (hst : s.dev.fld F.BSQ_STATUS_STATE 0 = 2) : exec (.fieldLossRestart img t) s = s.done (s.restartRun img t f) := by
  change execFieldLossRestart img t s = _
  simp only [execFieldLossRestart, hlost, hauto, hst, decide_true, Bool.and_self, if_true]

/-! RESET_N and the rails. -/

section
variable (hon : s.dev.pstate ≠ 4)
include hon

theorem exec_resetN_low : exec (.resetN true) s = s.done ((s.dieReset s.dev.pch.rails).onDev fun d =>
    (d.modPch fun p => { p with resetLow := true }).setF F.BSQ_STATUS_STATE 0 0) := by
  change execResetN true s = _
  simp only [execResetN, hon, if_false, if_true]

section
variable (hlow : s.dev.pch.resetLow = true)
include hlow

theorem exec_resetN_high_of_rails (hrails : s.dev.pch.rails = true) :
    exec (.resetN false) s = s.done (s.onDev fun d =>
      (d.modPch fun p => { p with resetLow := false }).setF F.BSQ_STATUS_STATE 0 1) := by
  change execResetN false s = _
  simp only [execResetN, hon, Bool.false_eq_true, if_false, State.onDev, hlow, if_true, Dev.modPch, hrails]

theorem exec_resetN_high_of_none (hrails : s.dev.pch.rails = false) :
    exec (.resetN false) s = s.done (s.onDev fun d => d.modPch fun p => { p with resetLow := false }) := by
  change execResetN false s = _
  simp only [execResetN, hon, Bool.false_eq_true, if_false, State.onDev, hlow, if_true, Dev.modPch, hrails]

end
end

section
variable (hrails : s.dev.pch.rails = false)
include hrails

theorem exec_railQualified_of_started (hst : s.dev.fld F.BSQ_STATUS_STATE 0 ≠ 0) (hon : s.dev.pstate ≠ 4) :
    exec .railQualified s = s.done (s.onDev fun d => d.modPch fun p => { p with rails := true, down := [], dark := [] }) := by
  change execRailQualified s = _
  simp only [execRailQualified, hrails, Bool.false_eq_true, if_false, hst, hon, ne_eq, not_false_eq_true, decide_true, Bool.and_self, if_true]

theorem exec_railQualified_of_reset (hst : s.dev.fld F.BSQ_STATUS_STATE 0 = 0 ∨ s.dev.pstate = 4) (hlow : s.dev.pch.resetLow = false) :
    exec .railQualified s = s.done
      ((s.onDev fun d => d.modPch fun p => { p with rails := true, down := [], dark := [] }).dieReset true) := by
  have hheld : (decide (s.dev.fld F.BSQ_STATUS_STATE 0 ≠ 0) && decide (s.dev.pstate ≠ 4)) = false := by
    simp only [Bool.and_eq_false_iff, decide_eq_false_iff_not, not_not]
    exact hst
  have hfree : ((s.onDev fun d => d.modPch fun p => { p with rails := true, down := [], dark := [] }).dieReset true).dev.pch.resetLow =
      false := hlow
  change execRailQualified s = _
  simp only [execRailQualified, hrails, hheld, Bool.false_eq_true, if_false]
  refine congrArg s.done ?_
  rw [State.onDev, hfree, if_neg Bool.false_ne_true]

end
end

/-- Settles O57, command by command. -/
theorem startCommandsTakeEffect : Obligations.StartCommandsTakeEffect := by
  unfold Obligations.StartCommandsTakeEffect
  intro s img t
  exact ⟨fun hstart => State.gives_of_done (exec_coldStart hstart),
    fun hon hst hnone => State.gives_of_done (exec_warmReset hst hnone hon),
    fun hreq hst hnone => State.gives_of_done (exec_bsqWarm hst hnone hreq),
    fun f hlost hauto hst => State.gives_of_done (exec_fieldLossRestart hlost hauto hst),
    fun hon => State.gives_of_done (exec_resetN_low hon),
    fun hon hlow hrails => State.gives_of_done (exec_resetN_high_of_rails hon hlow hrails),
    fun hon hlow hrails => State.gives_of_done (exec_resetN_high_of_none hon hlow hrails),
    fun hrails => ⟨fun hst hon => State.gives_of_done (exec_railQualified_of_started hrails hst hon),
      fun hst hlow => State.gives_of_done (exec_railQualified_of_reset hrails hst hlow)⟩⟩

end Sys2Proof.Machine
end

section
/-! PROOF. The I3C target port (spec/20_pins_and_ratings.md R617, R619, R620). -/

namespace Sys2Proof.Machine

section
variable {s : State}

/-! Register reads. -/

theorem exec_i3cPrivateWrite {data : List Byte} {k : Nat} (haddr : s.dev.i3c.addr = some k) (hlen : data.length = 8)
    (hmax : 8 ≤ s.dev.i3c.mwl) (hop : leAt data 0 1 = 1) (hword : leAt data 1 6 % 8 = 0) (hn : leAt data 7 1 < 8) :
    exec (.i3cPrivateWrite data) s = .next (s.onDev fun d =>
      let n := leAt data 7 1 + 1
      d.modI3c fun x => { x with setup := some (d.i3cStatus (leAt data 1 6) n, leAt data 1 6, n, d.now + 50000) }) := by
  have hfits : ¬ 8 > s.dev.i3c.mwl := by omega
  have hfew : ¬ leAt data 7 1 + 1 > 8 := by omega
  change execI3cPrivateWrite data s = _
  simp only [execI3cPrivateWrite, State.upd, State.onDev, haddr, hlen, hop, hword, hfits, hfew, Option.isNone_some, ne_eq,
    not_true_eq_false, decide_false, Bool.or_self, Bool.false_eq_true, if_false]

theorem exec_i3cPrivateRead_early {st x n at_ : Nat} (hset : s.dev.i3c.setup = some (st, x, n, at_)) (hnow : s.dev.now < at_) :
    exec .i3cPrivateRead s = .next (s.onDev fun d => d.i3cSay [3]) := by
  change execI3cPrivateRead s = _
  simp only [execI3cPrivateRead, State.upd, State.onDev, hset, hnow, if_true]

theorem exec_i3cPrivateRead_ok {x n at_ : Nat} (hset : s.dev.i3c.setup = some (0, x, n, at_)) (hnow : at_ ≤ s.dev.now) :
    exec .i3cPrivateRead s = .next (s.onDev fun d =>
      (d.i3cSay ((0 :: (List.range n).flatMap fun i => leBytes 8 (d.i3cWord (x + 8 * i))).take d.i3c.mrl)).modI3c fun y =>
        { y with setup := none }) := by
  have hready : ¬ s.dev.now < at_ := by omega
  have hstatus : leBytes 1 0 = [0] := rfl
  change execI3cPrivateRead s = _
  simp only [execI3cPrivateRead, State.upd, State.onDev, hset, hready, if_false, if_true, hstatus, List.cons_append, List.nil_append]

/-! Addressing. -/

section
variable (hnone : s.dev.i3c.addr = none) (hon : s.dev.pstate ≠ 4) (a : BitVec 7)
include hnone hon

theorem exec_entdaa : exec (.entdaa a) s = .next (s.onDev fun d =>
    (d.emit (.i3c (beBytes 6 i3cPid ++ [0x06, 0x00]))).modI3c fun x => { x with addr := some a.toNat }) := by
  change execEntdaa a s = _
  simp only [execEntdaa, State.upd, State.onDev, hnone, hon, Option.isSome_none, decide_false, Bool.or_self, Bool.false_eq_true, if_false]

theorem exec_setdasa : exec (.setdasa 0x4C a) s = .next (s.onDev fun d => d.modI3c fun x => { x with addr := some a.toNat }) := by
  have hstatic : (0x4C : BitVec 7).toNat = 0x4C := rfl
  change execSetdasa 0x4C a s = _
  simp only [execSetdasa, State.upd, State.onDev, hstatic, hnone, hon, Option.isNone_none, ne_eq, not_false_eq_true, decide_true, Bool.and_self,
    if_true]

end

section
variable {e : BitVec 8} (he : e.toNat % 2 = 1)
include he

theorem bitOf_zero_of_odd : bitOf e.toNat 0 = true := by
  simp only [bitOf, Nat.pow_zero, Nat.div_one, he, beq_self_eq_true]

theorem exec_enec : exec (.enec e) s = .next (s.onDev fun d => d.modI3c fun x => { x with ibi := true }) := by
  change execEnec e s = _
  simp only [execEnec, State.upd, State.onDev, bitOf_zero_of_odd he, if_true]

theorem exec_disec : exec (.disec e) s = .next (s.onDev fun d => d.modI3c fun x => { x with ibi := false }) := by
  change execDisec e s = _
  simp only [execDisec, State.upd, State.onDev, bitOf_zero_of_odd he, if_true]

end

/-! Characteristics. -/

/-- A target with a dynamic address answers. -/
theorem Dev.i3cSay_of_addr {d : Dev} {k : Nat} (haddr : d.i3c.addr = some k) (bs : List Byte) : d.i3cSay bs = d.emit (.i3c bs) := by
  simp only [Dev.i3cSay, haddr, Option.isSome_some, if_true]

theorem i3c_characteristics {k : Nat} (haddr : s.dev.i3c.addr = some k) :
    exec .getpid s = .next (s.onDev fun d => d.emit (.i3c (beBytes 6 i3cPid))) ∧
    exec .getbcr s = .next (s.onDev fun d => d.emit (.i3c [0x06])) ∧
    exec .getdcr s = .next (s.onDev fun d => d.emit (.i3c [0x00])) ∧
    exec .getstatus s = .next (s.onDev fun d => (d.emit (.i3c (leBytes 2 d.free.toNat))).took) ∧
    exec .getmrl s = .next (s.onDev fun d => d.emit (.i3c (beBytes 2 d.i3c.mrl ++ [1]))) ∧
    exec .getmwl s = .next (s.onDev fun d => d.emit (.i3c (beBytes 2 d.i3c.mwl))) := by
  have hsay := Dev.i3cSay_of_addr haddr
  exact ⟨next_onDev_congr (f := fun d => d.i3cSay _) (hsay _), next_onDev_congr (f := fun d => d.i3cSay _) (hsay _),
    next_onDev_congr (f := fun d => d.i3cSay _) (hsay _), next_onDev_congr (f := fun d => (d.i3cSay (leBytes 2 d.free.toNat)).took)
      (congrArg Dev.took (hsay _)), next_onDev_congr (f := fun d => d.i3cSay (beBytes 2 d.i3c.mrl ++ [1])) (hsay _),
    next_onDev_congr (f := fun d => d.i3cSay (beBytes 2 d.i3c.mwl)) (hsay _)⟩

end

/-- Settles O59, command by command. -/
theorem i3cCommandsTakeEffect : Obligations.I3cCommandsTakeEffect := by
  unfold Obligations.I3cCommandsTakeEffect
  intro s a v
  exact ⟨fun data k haddr hlen hmax hop hword hn => exec_i3cPrivateWrite haddr hlen hmax hop hword hn,
    fun st x n at_ hset hnow => exec_i3cPrivateRead_early hset hnow, fun x n at_ hset hnow => exec_i3cPrivateRead_ok hset hnow, rfl,
    fun hnone hon => exec_entdaa hnone hon a, fun hnone hon => exec_setdasa hnone hon a, rfl,
    fun e he => ⟨exec_enec he, exec_disec he⟩, fun k haddr => i3c_characteristics haddr, rfl, rfl⟩

end Sys2Proof.Machine
end

section
/-! PROOF. Newt and Skink (spec/18_spares_and_testing.md R572 to R594). -/

namespace Sys2Proof.Machine

/-! Whether a site is out stands over what a pre-copy writes, whatever words the sites name. -/

/-- Two registers of one reset word whose keys meet are one word. -/
theorem Dev.getR_of_key {r q : Reg} {u v i j : Nat} (hw : r.word = q.word) (hk : r.key v j = q.key u i) (d : Dev) :
    d.getR r v j = d.getR q u i := by
  rw [Dev.getR, Dev.getR, hw, hk]

/-- A field stands when bits apart from its own are stored in any word of one reset word. -/
theorem Dev.fld_setF_bits {f g : Fld} (hw : g.reg.word = f.reg.word) (h : f.lo + f.width ≤ 64)
    (hapart : g.lo + g.width ≤ f.lo ∨ f.lo + f.width ≤ g.lo) (d : Dev) (u v i j x : Nat) : (d.setF f u x i).fld g v j = d.fld g v j := by
  by_cases hk : g.reg.key v j = f.reg.key u i
  · rw [Dev.fld, Dev.fld, Dev.getR_of_key hw hk, Dev.getR_of_key hw hk, Dev.word_setF d f u x i h]
    exact hapart.elim bitsOf_putBits_below bitsOf_putBits_above
  · exact Dev.fld_setF_key d f g u v i j x hk

theorem Dev.siteOut_eq_false_iff (d : Dev) (site : Nat) : d.siteOut site = false ↔
    d.boot.siteBad.contains site = false ∧ d.fieldLost (fieldOf site) = false ∧
      d.fld F.FLD_LDO_STATE (fieldOf site) (localIx site) ≠ 4 ∧ bitOf (d.fld F.THM_STATUS_SHUTDOWN (fieldOf site)) (localIx site) = false := by
  simp only [Dev.siteOut, Bool.or_eq_false_iff, beq_eq_false_iff_ne, ne_eq, and_assoc]

/-- What `siteOut` reads of the device. -/
theorem Dev.siteOut_congr {d e : Dev} {site : Nat} (hboot : e.boot = d.boot)
    (hiso : e.fld F.PWR_RAIL_STATUS_ISOLATED 0 = d.fld F.PWR_RAIL_STATUS_ISOLATED 0)
    (hldo : e.fld F.FLD_LDO_STATE (fieldOf site) (localIx site) = d.fld F.FLD_LDO_STATE (fieldOf site) (localIx site))
    (hhot : e.fld F.THM_STATUS_SHUTDOWN (fieldOf site) = d.fld F.THM_STATUS_SHUTDOWN (fieldOf site)) :
    e.siteOut site = d.siteOut site := by
  rw [Dev.siteOut, Dev.siteOut, Dev.fieldLost, Dev.fieldLost, hboot, hiso, hldo, hhot]

theorem Dev.siteOut_setWrRej (d : Dev) (v x site : Nat) : (d.setF F.COR_STATUS_WR_REJ v x).siteOut site = d.siteOut site :=
  Dev.siteOut_congr (Dev.setF_boot ..)
    (Dev.fld_setF_bits (f := F.COR_STATUS_WR_REJ) (g := F.PWR_RAIL_STATUS_ISOLATED) rfl (by decide) (by decide) d v 0 0 0 x)
    (Dev.fld_setF_bits (f := F.COR_STATUS_WR_REJ) (g := F.FLD_LDO_STATE) rfl (by decide) (by decide) d v (fieldOf site) 0 (localIx site) x)
    (Dev.fld_setF_bits (f := F.COR_STATUS_WR_REJ) (g := F.THM_STATUS_SHUTDOWN) rfl (by decide) (by decide) d v (fieldOf site) 0 0 x)

/-- An LDO that regulates takes no site out. -/
theorem Dev.siteOut_setLdo {d : Dev} {site : Nat} (h : d.siteOut site = false) (u i : Nat) :
    (d.setF F.FLD_LDO_STATE u 2 i).siteOut site = false := by
  obtain ⟨hbad, hlost, hldo, hhot⟩ := (d.siteOut_eq_false_iff site).1 h
  refine (Dev.siteOut_eq_false_iff _ _).2 ⟨hbad, ?_, ?_, ?_⟩
  · have hiso := Dev.fld_setF_bits (f := F.FLD_LDO_STATE) (g := F.PWR_RAIL_STATUS_ISOLATED) rfl (by decide) (by decide) d u 0 i 0 2
    exact (congrArg (bitOf · (fieldOf site)) hiso).trans hlost
  · by_cases hk : R.FLD_LDO.key (fieldOf site) (localIx site) = R.FLD_LDO.key u i
    · rw [Dev.fld, Dev.getR_congr_key _ _ hk]
      have hself := Dev.fld_setF_self_of_lt (f := F.FLD_LDO_STATE) (v := 2) (by decide) (by decide) d u i
      rw [Dev.fld] at hself
      rw [hself]
      decide
    · rwa [Dev.fld_setF_key _ F.FLD_LDO_STATE F.FLD_LDO_STATE _ _ _ _ _ hk]
  · rwa [Dev.fld_setF_bits (f := F.FLD_LDO_STATE) (g := F.THM_STATUS_SHUTDOWN) rfl (by decide) (by decide)]

/-- A field that a domain in D0 clears in its word. -/
theorem bitOf_of_cleared {x m j : Nat} (h : bitOf (putBits x (m * 4) 4 0) j = true) : bitOf x j = true := by
  rw [bitOf_eq_testBit, testBit_putBits] at h
  split at h
  · exact absurd h (by simp only [Nat.zero_testBit, Bool.false_eq_true, not_false_eq_true])
  · rwa [bitOf_eq_testBit]

theorem ldo_of_cleared {x m : Nat} (h : bitsOf x 0 3 ≠ 4) : bitsOf (putBits x (m * 4) 4 0) 0 3 ≠ 4 := by
  by_cases hm : m = 0
  · subst hm
    rw [bitsOf, putBits]
    omega
  · rwa [bitsOf_putBits_below (by omega)]

/-- A domain that reaches D0 with nothing pending clears its nibble in one word, if any. -/
theorem Dev.getR_setDom_init {r : Reg} (hw : r.word = R.PCH_DOM_STATE.word) (d : Dev) (n v j : Nat) :
    ((d.setDom n fun _ => DomS.init).getR r v j).toNat = (d.getR r v j).toNat ∨
      ((d.setDom n fun _ => DomS.init).getR r v j).toNat = putBits (d.getR r v j).toNat (n % 16 * 4) 4 0 := by
  have hclear : min 4 DomS.init.level + 8 * b2n (DomS.init.entering.isSome || DomS.init.exiting) = 0 := rfl
  rw [Dev.setDom, Dev.showDom]
  simp only [Dev.dom_modDom_self, hclear]
  by_cases hk : r.key v j = R.PCH_DOM_STATE.key 0 (n / 16)
  · refine .inr ?_
    have hfits : putBits (d.getR R.PCH_DOM_STATE 0 (n / 16)).toNat (n % 16 * 4) 4 0 < 2 ^ 64 :=
      putBits_lt (by omega) (BitVec.isLt _)
    rw [Dev.getR_of_key hw hk, Dev.getR_of_key hw hk, Dev.getR_setR_self, BitVec.toNat_ofNat]
    exact Nat.mod_eq_of_lt hfits
  · exact .inl (congrArg BitVec.toNat (Dev.getR_setR_key _ _ _ _ _ _ _ _ hk))

theorem Dev.siteOut_setDom_init {d : Dev} {site : Nat} (h : d.siteOut site = false) (n : Nat) :
    (d.setDom n fun _ => DomS.init).siteOut site = false := by
  obtain ⟨hbad, hlost, hldo, hhot⟩ := (d.siteOut_eq_false_iff site).1 h
  have hbit {f : Fld} (hw : f.reg.word = R.PCH_DOM_STATE.word) (u k : Nat) (hf : bitOf (d.fld f u) k = false) :
      bitOf ((d.setDom n fun _ => DomS.init).fld f u) k = false := by
    rw [Dev.fld] at hf ⊢
    rcases Dev.getR_setDom_init hw d n u 0 with hsame | hclear
    · rwa [hsame]
    · rw [hclear, bitOf_bitsOf]
      rw [bitOf_bitsOf] at hf
      refine Bool.eq_false_iff.2 fun hon => ?_
      obtain ⟨hk, hset⟩ := Bool.and_eq_true_iff.1 hon
      rw [hk, bitOf_of_cleared hset] at hf
      exact absurd hf (by decide)
  refine (Dev.siteOut_eq_false_iff _ _).2 ⟨hbad, hbit rfl 0 _ hlost, ?_, hbit rfl _ _ hhot⟩
  rw [Dev.fld] at hldo ⊢
  rcases Dev.getR_setDom_init (r := R.FLD_LDO) rfl d n (fieldOf site) (localIx site) with hsame | hclear
  · rwa [hsame]
  · rw [hclear]
    exact ldo_of_cleared hldo

theorem Dev.siteOut_powerSite {d : Dev} {site : Nat} (h : d.siteOut site = false) (new : Nat) : (d.powerSite new).siteOut site = false :=
  Dev.siteOut_setDom_init (Dev.siteOut_setLdo h _ _) new

theorem State.siteOut_copyMems (s : State) (u v : Nat) (all : Bool) (site : Nat) :
    (s.copyMems u v all).dev.siteOut site = s.dev.siteOut site := by
  have hrange (s : State) (a b n : Nat) : (s.copyRange a b n).dev = s.dev := rfl
  rw [State.copyMems]
  generalize (if all then 0x140000 else 0x100000) = n
  split
  · rw [hrange, hrange]
  · rw [State.onDev, Dev.siteOut_setWrRej, hrange]

theorem State.siteOut_copyPairs (s : State) (ps : List (Nat × Nat)) (site : Nat) :
    (s.each ps fun s p => s.copyMems p.1 p.2 false).dev.siteOut site = s.dev.siteOut site := by
  induction ps generalizing s with
  | nil => rfl
  | cons p ps ih => exact (ih _).trans (State.siteOut_copyMems ..)

/-! Newt. -/

section
variable {s : State}

theorem exec_swapRequest_core {lclu : BitVec 8} {x : Nat} (hst : s.dev.fld F.NWT_STATUS_STATE 0 = 0)
    (hsite : s.dev.newtSite lclu.toNat = some x) (hreqs : s.dev.nwt.reqs = []) (lcore : BitVec 5) (nofuse : Bool) :
    exec (.swapRequest false lclu lcore nofuse) s = .next (s.onDev fun d =>
      ({ d with nwt := { d.nwt with reqs := [⟨false, lclu.toNat, lcore.toNat, nofuse⟩] } } : Dev).setF F.NWT_STATUS_STATE 0 2) := by
  have hst' : ({ s.dev with nwt := { s.dev.nwt with reqs := [⟨false, lclu.toNat, lcore.toNat, nofuse⟩] } } : Dev).fld
      F.NWT_STATUS_STATE 0 = 0 := hst
  change execSwapRequest false lclu lcore nofuse s = _
  simp only [execSwapRequest, State.upd, State.onDev, Dev.nwtReq, hst, hsite, Bool.false_and, Bool.false_eq_true, if_false, ne_eq,
    not_true_eq_false, Dev.nwtAsk, hreqs, List.contains_nil, List.nil_append, hst', if_true]

theorem exec_cluRedirect {site : Site} (hin : s.dev.fieldLost (fieldOf site.val) = false) :
    exec (.cluRedirect site) s = .next (s.onDev fun d =>
      (d.setF F.CLU_REDIRECT_EN site.val 0).modNwt fun x => { x with old := x.old.filter fun e => e.2 != site.val + 1 }) := by
  change execCluRedirect site s = _
  simp only [execCluRedirect, State.upd, State.onDev, hin, Bool.false_eq_true, if_false, Dev.clrRedirect]

theorem exec_liveSwapPrecopy {r : SwapReq} {new old : Nat} {w : List MemLoad} (hpre : s.dev.nwt.pre = some (r, new, w))
    (hsite : s.dev.newtSite r.lclu = some old) (hst : s.dev.fld F.NWT_STATUS_STATE 0 = 1) (hin : s.dev.siteOut old = false)
    (rw_ : List MemLoad) : exec (.liveSwapPrecopy rw_) s = s.done
      ((s.each (s.dev.corePairs old new) fun s p => s.copyMems p.1 p.2 false).onDev fun e =>
        (((e.powerSite new).prepare r.lclu (some new)).modNwt fun x =>
          { x with pre := some (r, new, rw_), reqs := if x.reqs.contains r then x.reqs else x.reqs ++ [r] }).setF
            F.NWT_STATUS_STATE 0 2) := by
  have hin' : ((s.each (s.dev.corePairs old new) fun s p => s.copyMems p.1 p.2 false).dev.powerSite new).siteOut old = false :=
    Dev.siteOut_powerSite ((State.siteOut_copyPairs ..).trans hin) new
  change execLiveSwapPrecopy rw_ s = _
  simp only [execLiveSwapPrecopy, hpre, hsite, hst, hin, ne_eq, not_true_eq_false, Bool.false_eq_true, if_false, State.onDev, hin']

theorem exec_windowOpen_of_none (hfree : s.dev.windowFree = true) (hpre : s.dev.needsPre = none) (hsites : s.dev.windowSites = [])
    (ok : Bool) : exec (.windowOpen ok) s = s.done
      ((s.onDev fun d => ((d.modNwt fun x => { x with window := true, hold := [], openAt := d.now }).setF
        F.NWT_STATUS_STATE 0 3).vc1 true |>.bootWindow).windowRun ok) := by
  change execWindowOpen ok s = _
  simp only [execWindowOpen, hfree, hpre, hsites, Bool.not_true, Bool.false_eq_true, if_false, List.any_nil]

theorem exec_haltWaitExpiry {ok : Bool} (hhalt : s.dev.nwt.haltAt = some ok) (hwin : s.dev.nwt.window = true) :
    exec .haltWaitExpiry s = s.done (s.windowRun ok) := by
  change execHaltWaitExpiry s = _
  simp only [execHaltWaitExpiry, hhalt, hwin, if_true]

theorem exec_fuseUpdate_one {x : Nat} (hpend : s.dev.nwt.fusePend = [x]) (hroom : s.dev.boot.fuse.updA.length < 448)
    (hst : s.dev.fld F.NWT_STATUS_STATE 0 = 4) (hreqs : s.dev.nwt.reqs = []) :
    exec .fuseUpdate s = .next (s.onDev fun d =>
      (({ d with boot := { d.boot with fuse := d.boot.fuse.append x } } : Dev).modNwt fun y => { y with fusePend := [] }).setF
        F.NWT_STATUS_STATE 0 0) := by
  have hst' : (({ s.dev with boot := { s.dev.boot with fuse := s.dev.boot.fuse.append x } } : Dev).modNwt fun y =>
      { y with fusePend := [] }).fld F.NWT_STATUS_STATE 0 = 4 := hst
  have hreqs' : (({ s.dev with boot := { s.dev.boot with fuse := s.dev.boot.fuse.append x } } : Dev).modNwt fun y =>
      { y with fusePend := [] }).nwt.reqs = [] := hreqs
  change execFuseUpdate s = _
  simp only [execFuseUpdate, State.upd, State.onDev, hpend, Dev.each, List.foldl_cons, List.foldl_nil, hroom, if_true, hst', hreqs',
    List.isEmpty_nil]

/-! Skink. -/

/-- Counting the passes of a visit leaves Skink's control as it is. -/
theorem Dev.skkCtrl_count {f : Fld} (h : f.reg.code ≠ R.SKK_COUNT.code) (d : Dev) (n : Nat) :
    (d.addWrap F.SKK_COUNT_PASSES 0 n).fld f 0 = d.fld f 0 :=
  Dev.fld_setF_other (f := F.SKK_COUNT_PASSES) h d 0 _ 0

section
variable {site : Site} (hen : s.dev.flag F.SKK_CTRL_EN 0 = true) (hok : s.dev.visitOk (.cluster site) = true)
  (hscrub : s.dev.flag F.SKK_CTRL_SCRUB_EN 0 = false) (passes : Nat) (code : BitVec 6)
include hen hok hscrub

theorem exec_skinkVisit_pass : exec (.skinkVisit (.cluster site) .pass passes code []) s =
    s.done (s.onDev fun d => (d.addWrap F.SKK_COUNT_PASSES 0 passes).vc1Done) := by
  have hscrub' : (s.dev.addWrap F.SKK_COUNT_PASSES 0 passes).flag F.SKK_CTRL_SCRUB_EN 0 = false := by
    rw [Dev.flag, Dev.skkCtrl_count (by decide)]
    exact hscrub
  change execSkinkVisit (.cluster site) .pass passes code [] s = _
  simp only [execSkinkVisit, hen, hok, Bool.and_self, if_true, State.visit, State.onDev, hscrub', Bool.false_eq_true, if_false]

theorem exec_skinkVisit_confirmed : exec (.skinkVisit (.cluster site) (.confirmed false) passes code []) s =
    s.done (s.onDev fun d => ((d.addWrap F.SKK_COUNT_PASSES 0 passes).testFail (.cluster site) false).vc1Done) := by
  have hscrub' : (s.dev.addWrap F.SKK_COUNT_PASSES 0 passes).flag F.SKK_CTRL_SCRUB_EN 0 = false := by
    rw [Dev.flag, Dev.skkCtrl_count (by decide)]
    exact hscrub
  change execSkinkVisit (.cluster site) (.confirmed false) passes code [] s = _
  simp only [execSkinkVisit, hen, hok, Bool.and_self, if_true, State.visit, State.onDev, hscrub', Bool.false_eq_true, if_false]

end

theorem exec_skinkYield (s : State) (ns : Nat) : exec (.skinkYield ns false) s = .next (s.onDev fun d =>
    (d.addSat F.SKK_STATUS_YIELDS 0 1).setF F.SKK_STATUS_YIELD_MAX_NS 0
      (max (min 65535 ns) ((d.addSat F.SKK_STATUS_YIELDS 0 1).fld F.SKK_STATUS_YIELD_MAX_NS 0))) := by
  change execSkinkYield ns false s = _
  simp only [execSkinkYield, State.upd, State.onDev, Bool.false_eq_true, if_false]

theorem exec_cadenceMiss {c : Core} (hen : s.dev.flag F.SKK_CTRL_EN 0 = true) (hin : s.dev.siteOut c.site.val = false)
    (hcore : s.dev.coreAbsent (coreU c) = false) (hst : s.dev.coreState (coreU c) ≠ 4)
    (hlate : sget s.dev.visited 0 (coreU c) + 1000000000 * max 1 (s.dev.fld F.SKK_CTRL_PERIOD 0) < s.dev.now) :
    exec (.cadenceMiss c) s = .next (s.onDev fun d => d.raise (evU bSKK 0) 5 0 0) := by
  rw [coreU] at hcore hst hlate
  change execCadenceMiss c s = _
  simp only [execCadenceMiss, State.upd, State.onDev, hen, hin, hcore, hst, gt_iff_lt, hlate, ne_eq, not_false_eq_true, decide_true,
    Bool.not_false, Bool.and_self, if_true]

/-! Observation. -/

/-- The test area of a core lies in memory. -/
theorem State.testArea_keeps (s : State) (u : Nat) :
    (s.testArea u).pending = s.pending ∧ (s.testArea u).dev.obs = s.dev.obs ∧ (s.testArea u).dev.regs = s.dev.regs := ⟨rfl, rfl, rfl⟩

/-- A core under observation that has passed often enough leaves the list. -/
theorem exec_observationVisit_last {c : Core} {o : ObsEnt} (hen : s.dev.flag F.SKK_CTRL_EN 0 = true) (hobs : s.dev.obs = [o])
    (hsite : o.site = coreU c / 256) (hcore : o.core = coreU c % 256) (hok : s.dev.visitOk (.core c) = true)
    (hrel : s.dev.fld F.SKK_CTRL_RELEASE 0 ≤ o.passes + 1) (passes : Nat) :
    exec (.observationVisit c .pass passes) s = .next ((s.testArea (coreU c)).onDev fun d =>
      ((({ (d.addWrap F.SKK_COUNT_PASSES 0 passes) with obs := [] } : Dev).setF F.SKK_STATUS_OBS_N 0 0).raise
        (evU bSKK 0) 3 0 0).vc1Done) := by
  rw [coreU] at hsite hcore
  obtain ⟨-, hlist, hregs⟩ := s.testArea_keeps (cu c.site.val c.core.val)
  have hrel' : ((s.testArea (cu c.site.val c.core.val)).dev.addWrap F.SKK_COUNT_PASSES 0 passes).fld F.SKK_CTRL_RELEASE 0 ≤
      o.passes + 1 := by
    rw [Dev.addWrap, Dev.fld_setF_other (f := F.SKK_COUNT_PASSES) (g := F.SKK_CTRL_RELEASE) (by decide), Dev.fld_congr hregs]
    exact hrel
  have hobs' : ((s.testArea (cu c.site.val c.core.val)).dev.addWrap F.SKK_COUNT_PASSES 0 passes).obs = [o] := hlist.trans hobs
  change execObservationVisit c .pass passes s = _
  simp only [execObservationVisit, hen, hok, Dev.observed, hobs, hsite, hcore, List.any_cons, List.any_nil, beq_self_eq_true, Bool.and_self,
    Bool.or_false, Bool.not_true, Bool.or_self, Bool.false_eq_true, if_false, State.upd, State.onDev, hobs', List.map_cons,
    List.map_nil, if_true, ge_iff_le, hrel', decide_true, List.filter_cons, List.filter_nil, List.length_nil, List.length_cons,
    Nat.zero_add, Nat.zero_lt_one, coreU]

end

/-- Settles O58, command by command. -/
theorem spareCommandsTakeEffect : Obligations.SpareCommandsTakeEffect := by
  unfold Obligations.SpareCommandsTakeEffect
  intro s c site
  exact ⟨fun lclu lcore nofuse x hst hsite hreqs => exec_swapRequest_core hst hsite hreqs lcore nofuse, exec_cluRedirect,
    fun rw_ r new w old hpre hsite hst hin => State.gives_of_done (exec_liveSwapPrecopy hpre hsite hst hin rw_),
    fun ok hfree hpre hsites => State.gives_of_done (exec_windowOpen_of_none hfree hpre hsites ok),
    fun ok hhalt hwin => State.gives_of_done (exec_haltWaitExpiry hhalt hwin),
    fun x hpend hroom hst hreqs => exec_fuseUpdate_one hpend hroom hst hreqs,
    fun passes code hen hok hscrub => ⟨State.gives_of_done (exec_skinkVisit_pass hen hok hscrub passes code),
      State.gives_of_done (exec_skinkVisit_confirmed hen hok hscrub passes code)⟩,
    fun ns => exec_skinkYield s ns, fun hen hin hcore hst hlate => exec_cadenceMiss hen hin hcore hst hlate,
    fun passes o hen hobs hsite hcore hok hrel =>
      State.gives_next (exec_observationVisit_last hen hobs hsite hcore hok hrel passes) (s.testArea_keeps (coreU c)).1⟩

end Sys2Proof.Machine
end

section
/-! PROOF. The boot and security domain (spec/16_start_and_configuration.md R533, R549 to R551). -/

namespace Sys2Proof.Machine

/-! What is read of a canonical map: its first entry of the place. -/

theorem sget_eq_find {β : Type} {m : SMap β} (h : m.Pairwise fun x y => x.1 < y.1) (z : β) (k : Nat) :
    sget m z k = ((m.find? fun c => c.1 == k).map Prod.snd).getD z := by
  induction m with
  | nil => rfl
  | cons c r ih =>
    obtain ⟨a, v⟩ := c
    obtain ⟨hhead, htail⟩ := List.pairwise_cons.1 h
    rw [sget, List.find?_cons]
    by_cases hk : a = k
    · simp [hk]
    · simp only [hk, if_false, beq_eq_false_iff_ne.2 hk]
      split
      next hlt =>
        rw [List.find?_eq_none.2 fun c hc => by simpa using (Nat.lt_trans hlt (hhead c hc)).ne']
        rfl
      · exact ih htail

/-- The entry of a place stands in what a filter keeps that keeps the place. -/
theorem find_filter_of_holds (m : List Host.Cell) {x : Nat} {p : Host.Cell → Bool} (hp : ∀ c, c.1 = x → p c = true) :
    (m.filter p).find? (fun c => c.1 == x) = m.find? fun c => c.1 == x := by
  rw [List.find?_filter]
  congr 1
  funext c
  by_cases hc : c.1 = x
  · simp [hc, hp c hc]
  · simp [hc]

/-- A filter that drops a place keeps no entry of it. -/
theorem find_filter_of_fails (m : List Host.Cell) {x : Nat} {p : Host.Cell → Bool} (hp : ∀ c, c.1 = x → p c = false) :
    (m.filter p).find? (fun c => c.1 == x) = none := by
  refine List.find?_eq_none.2 fun c hc hx => ?_
  simp [List.mem_filter, hp c (beq_iff_eq.1 hx)] at hc

/-- The bytes outside the run that is filled stand. -/
theorem peek_fillCells_of_outside {m : List Host.Cell} (h : Memory.wf m = true) {lo n x : Nat} (f : Nat → Byte)
    (hx : x < lo ∨ lo + n ≤ x) : peek (fillCells m lo n f) x = peek m x := by
  have hfill : ((List.range n).filterMap fun i => if f i = 0 then none else some (lo + i, f i)).find? (fun c => c.1 == x) = none := by
    refine List.find?_eq_none.2 fun c hc => ?_
    obtain ⟨i, hi, hci⟩ := List.mem_filterMap.1 hc
    have hin := List.mem_range.1 hi
    split at hci
    · cases hci
    · cases hci
      simp only [beq_iff_eq]
      omega
  rw [peek, peek, sget_eq_find (swf_iff.1 (wf_fillCells h lo n f)).1, sget_eq_find (swf_iff.1 h).1, fillCells, List.find?_append,
    List.find?_append, hfill, Option.or_none]
  rcases hx with hx | hx
  · rw [find_filter_of_holds m fun c hc => decide_eq_true (by omega), find_filter_of_fails m fun c hc => decide_eq_false (by omega),
      Option.or_none]
  · rw [find_filter_of_fails m fun c hc => decide_eq_false (by omega), find_filter_of_holds m fun c hc => decide_eq_true (by omega),
      Option.none_or]

/-! Register words beside a shown domain. -/

/-- Showing the boot domain stands every register word but its own of PCH_DOM_STATE. -/
theorem Dev.getR_bootDom (d : Dev) (q : Reg) (v j : Nat) (h : q.key v j ≠ R.PCH_DOM_STATE.key 0 (domBoot / 16)) :
    d.bootDom.getR q v j = d.getR q v j := by
  rw [Dev.bootDom, Dev.setDom, Dev.showDom, Dev.getR_setR_key _ _ _ _ _ _ _ _ h]
  rfl

theorem Dev.fld_bootDom (d : Dev) (g : Fld) (v j : Nat) (h : g.reg.key v j ≠ R.PCH_DOM_STATE.key 0 (domBoot / 16)) :
    d.bootDom.fld g v j = d.fld g v j := by
  rw [Dev.fld, Dev.fld, Dev.getR_bootDom d _ v j h]

theorem Dev.boot_bootDom (d : Dev) : d.bootDom.boot = d.boot := rfl

theorem Dev.jmem_bootDom (d : Dev) : d.bootDom.jmem = d.jmem := rfl

/-- A run of words of one register, each set to what `g` gives for its index. -/
theorem Dev.getR_each_setR (d : Dev) (r : Reg) (u : Nat) (g : Nat → Word) (xs : List Nat) (k : Nat) :
    (d.each xs fun d i => d.setR r u (g i) i).getR r u k = if k ∈ xs then g k else d.getR r u k := by
  induction xs generalizing d with
  | nil => simp [Dev.each]
  | cons x xs ih =>
    rw [Dev.each, List.foldl_cons, ← Dev.each, ih]
    by_cases hk : k = x
    · subst hk
      simp
    · have hkey : r.key u k ≠ r.key u x := by
        simp only [Reg.key]
        omega
      rw [Dev.getR_setR_key _ _ _ _ _ _ _ _ hkey]
      simp [hk]

/-! Flash operations. -/

theorem length_nvmBuf (d : Dev) : d.nvmBuf.length = 4096 := by
  simp only [Dev.nvmBuf, List.length_flatMap, leBytes_length, List.map_const', List.length_range, List.sum_replicate_nat]

/-- The end of a flash operation stands the buffer. -/
theorem Dev.getR_flashBuf_nvmEnd (d : Dev) {i : Nat} (hi : i < 512) :
    (d.nvmEnd false).getR R.BSQ_FLASH_BUF 0 i = d.getR R.BSQ_FLASH_BUF 0 i := by
  have hdom : R.BSQ_FLASH_BUF.key 0 i ≠ R.PCH_DOM_STATE.key 0 (domBoot / 16) := by
    simp only [Reg.key, R.BSQ_FLASH_BUF, R.PCH_DOM_STATE, domBoot]
    omega
  have hctrl : R.BSQ_FLASH_BUF.key 0 i ≠ F.BSQ_NVM_CTRL_BUSY.reg.key 0 0 := by
    simp only [Reg.key, R.BSQ_FLASH_BUF, R.BSQ_NVM_CTRL]
    omega
  rw [Dev.nvmEnd, Dev.getR_bootDom _ _ _ _ hdom]
  simp only [Bool.false_eq_true, if_false]
  rw [Dev.getR_setF_key _ _ _ _ _ _ _ _ hctrl]
  rfl

/-- The memories of an outcome that changes the device alone besides. -/
theorem State.sameMem_of_onDev {t x : State} {f : Dev → Dev} (h : t.SameMem (x.onDev f)) : t.SameMem x := h

theorem exec_nvmOpDone_of_program {s : State} {dev addr : Nat} (h : s.dev.boot.nvm = some (1, dev, addr)) :
    exec .nvmOpDone s =
      s.done (State.onDev { s with flash := pokeN s.flash (dev * 0x8000000 + addr) s.dev.nvmBuf } fun d => d.nvmEnd false) := by
  change execNvmOpDone s = _
  simp only [execNvmOpDone, h, one_ne_zero, if_false, if_true]

theorem exec_nvmOpDone_of_read {s : State} {dev addr : Nat} (h : s.dev.boot.nvm = some (0, dev, addr)) :
    exec .nvmOpDone s =
      s.done (s.onDev fun d => (d.each (List.range 512) fun d i => d.setR R.BSQ_FLASH_BUF 0
        (BitVec.ofNat 64 (leNat (peekN s.flash (dev * 0x8000000 + addr + 8 * i) 8))) i).nvmEnd false) := by
  change execNvmOpDone s = _
  simp only [execNvmOpDone, h, if_true, State.onDev]

theorem exec_nvmOpDone_of_erase {s : State} {dev addr : Nat} (h : s.dev.boot.nvm = some (2, dev, addr)) :
    exec .nvmOpDone s =
      s.done (({ s with
        flash := fillCells s.flash (dev * 0x8000000 + addr) 4096 (freeByte s.dev.fresh)
        dev := { s.dev with fresh := s.dev.fresh + 512 } } : State).onDev fun d => d.nvmEnd false) := by
  change execNvmOpDone s = _
  have h20 : ¬ 2 = 0 := by decide
  have h21 : ¬ 2 = 1 := by decide
  simp only [execNvmOpDone, h, h20, h21, if_false]

/-- A PROGRAM that ends has written the buffer and no other byte. -/
theorem nvmOpDone_program {s : State} {dev addr : Nat} (h : s.dev.boot.nvm = some (1, dev, addr)) :
    ∃ t, exec .nvmOpDone s = .next t ∧ t.dev = s.dev.nvmEnd false ∧
      (∀ x, peek t.flash x = if dev * 0x8000000 + addr ≤ x ∧ x < dev * 0x8000000 + addr + 4096 then
        s.dev.nvmBuf.getD (x - (dev * 0x8000000 + addr)) 0 else peek s.flash x) ∧
      (∀ x, peek t.mem x = peek s.mem x) := by
  obtain ⟨t, ht, -, hdev, hsame⟩ := State.gives_of_done (exec_nvmOpDone_of_program h)
  obtain ⟨hmem, -, hflash, -⟩ := State.sameMem_of_onDev hsame
  refine ⟨t, ht, by rw [hdev, State.onDev], fun x => ?_, hmem⟩
  rw [hflash]
  simp only [peek_pokeN, length_nvmBuf]
  split
  · rw [List.getD_eq_getElem]
  · rfl

/-- A READ that ends has filled the buffer. -/
theorem nvmOpDone_read {s : State} {dev addr : Nat} (h : s.dev.boot.nvm = some (0, dev, addr)) :
    ∃ t, exec .nvmOpDone s = .next t ∧ t.SameMem s ∧
      (∀ i, i < 512 → (t.dev.getR R.BSQ_FLASH_BUF 0 i) =
        BitVec.ofNat 64 (leNat (peekN s.flash (dev * 0x8000000 + addr + 8 * i) 8))) := by
  obtain ⟨t, ht, -, hdev, hmem⟩ := State.gives_of_done (exec_nvmOpDone_of_read h)
  refine ⟨t, ht, State.sameMem_of_onDev hmem, fun i hi => ?_⟩
  rw [hdev, State.onDev, Dev.getR_flashBuf_nvmEnd _ hi, Dev.getR_each_setR, if_pos (List.mem_range.2 hi)]

/-- An ERASE leaves every byte outside its sector. -/
theorem nvmOpDone_erase {s : State} {dev addr : Nat} (h : s.dev.boot.nvm = some (2, dev, addr)) (hwf : Memory.wf s.flash = true) :
    ∃ t, exec .nvmOpDone s = .next t ∧
      (∀ x, x < dev * 0x8000000 + addr ∨ dev * 0x8000000 + addr + 4096 ≤ x → peek t.flash x = peek s.flash x) :=
  ⟨_, exec_nvmOpDone_of_erase h, fun _ hx => (sget_canon 0 _ _).trans (peek_fillCells_of_outside hwf _ hx)⟩

/-! The thermometer code and the count. -/

theorem getLsbD_thermo {n i : Nat} (hi : i < 64) : (thermo n).getLsbD i = decide (i < min 64 n) := by
  simp only [thermo, BitVec.getLsbD_ofNat, Nat.testBit_two_pow_sub_one, hi, decide_true, Bool.true_and]

/-- The codes hold one another. -/
theorem thermo_or (m n : Nat) : thermo m ||| thermo n = thermo (max m n) := by
  refine BitVec.eq_of_getLsbD_eq fun i hi => ?_
  rw [BitVec.getLsbD_or, getLsbD_thermo hi, getLsbD_thermo hi, getLsbD_thermo hi, Bool.eq_iff_iff]
  simp only [Bool.or_eq_true, decide_eq_true_eq]
  omega

/-- The bits that a word has set. -/
def bitCount (w : Word) : Nat := (List.range 64).countP fun i => w.getLsbD i

theorem FuseS.count_eq (x : FuseS) : x.count = bitCount (x.svnA ||| x.svnB) := by
  rw [FuseS.count, bitCount, List.countP_eq_length_filter]

theorem bitCount_le (w : Word) : bitCount w ≤ 64 := by
  exact List.countP_le_length.trans_eq List.length_range

/-- A word that holds every bit of another counts no less. -/
theorem bitCount_mono {v w : Word} (h : ∀ i, v.getLsbD i = true → w.getLsbD i = true) : bitCount v ≤ bitCount w :=
  List.countP_mono_left fun i _ => h i

theorem countP_range_lt (n m : Nat) : (List.range n).countP (fun i => decide (i < m)) = min n m := by
  induction n with
  | zero => simp
  | succ n ih =>
    rw [List.range_succ, List.countP_append, ih, List.countP_singleton]
    simp only [decide_eq_true_eq]
    split <;> omega

theorem bitCount_thermo (n : Nat) : bitCount (thermo n) = min 64 n := by
  rw [bitCount, List.countP_congr (q := fun i => decide (i < min 64 n)), countP_range_lt]
  · omega
  · intro i hi
    rw [getLsbD_thermo (List.mem_range.1 hi)]

/-- The fused count never falls. -/
theorem FuseS.count_le_program (x : FuseS) (n : Nat) (a b : Word) : x.count ≤ (x.program n a b).count := by
  rw [FuseS.count_eq, FuseS.count_eq]
  refine bitCount_mono fun i hi => ?_
  simp only [FuseS.program, BitVec.getLsbD_or, Bool.or_eq_true] at hi ⊢
  exact hi.imp Or.inl Or.inl

/-- A count that the banks show as its code rises at most to the code programmed. -/
theorem FuseS.count_program_le {x : FuseS} (h : x.svnA ||| x.svnB = thermo x.count) (n : Nat) (a b : Word) :
    (x.program n a b).count ≤ max x.count (min 64 n) := by
  have hle := bitCount_le (x.svnA ||| x.svnB)
  rw [← FuseS.count_eq] at hle
  calc (x.program n a b).count ≤ bitCount (thermo x.count ||| thermo n) := by
        rw [FuseS.count_eq, ← h]
        refine bitCount_mono fun i hi => ?_
        simp only [FuseS.program, BitVec.getLsbD_or, BitVec.getLsbD_and, Bool.or_eq_true, Bool.and_eq_true] at hi ⊢
        tauto
    _ = max x.count (min 64 n) := by
        rw [thermo_or, bitCount_thermo]
        omega

/-- A bank that takes all of the code raises the count to it. -/
theorem FuseS.le_count_program (x : FuseS) (n : Nat) (b : Word) :
    max x.count (min 64 n) ≤ (x.program n (BitVec.allOnes 64) b).count := by
  refine max_le (x.count_le_program n _ b) ?_
  rw [FuseS.count_eq, ← bitCount_thermo]
  refine bitCount_mono fun i hi => ?_
  simp only [FuseS.program, BitVec.and_allOnes, BitVec.getLsbD_or, hi, Bool.or_true, Bool.true_or]

/-- What a bank lacks of the code after it was programmed is what it lacked of what it took. -/
theorem bank_lacks (x y c : Word) : (x ||| (c &&& y)) &&& c = (x ||| y) &&& c := by
  refine BitVec.eq_of_getLsbD_eq fun i _ => ?_
  simp only [BitVec.getLsbD_and, BitVec.getLsbD_or]
  cases x.getLsbD i <;> cases y.getLsbD i <;> cases c.getLsbD i <;> rfl

theorem exec_nvmTimeout {s : State} (h : s.dev.boot.nvm.isSome = true) :
    exec .nvmTimeout s = .next (s.onDev fun d => d.nvmEnd true) := by
  change execNvmTimeout s = _
  simp only [execNvmTimeout, State.upd, State.onDev, h, if_true]

/-! COMMIT and its end. -/

theorem exec_commit {s : State} (h : s.dev.boot.commit = none) :
    exec .commit s = .next (s.onDev fun d =>
      (({ d with boot := { d.boot with commit := some (d.fld F.SEC_SVN_IMAGE 0) } } : Dev).setF F.SEC_SVN_BUSY 0 1).bootDom) := by
  change execCommit s = _
  simp only [execCommit, State.upd, State.onDev, Dev.commitGo, h, Option.isSome_none, Bool.false_eq_true, if_false]

/-- The device after a commit of the count `v` whose banks took the bits `took`. -/
def Dev.commitEnd (d : Dev) (v : Nat) (took : Word × Word) : Dev :=
  let f := d.boot.fuse.program v took.1 took.2
  let d : Dev := { d with boot := { d.boot with commit := none, fuse := f } }
  let d := if f.svnA &&& thermo v = thermo v && f.svnB &&& thermo v = thermo v then d else d.setF F.SEC_SVN_COMMIT_ERR 0 1
  (d.showCount.setF F.SEC_SVN_BUSY 0 0).bootDom

theorem exec_svnCommitDone {s : State} {v : Nat} (h : s.dev.boot.commit = some v) (took : Word × Word) :
    exec (.svnCommitDone took) s = .next (s.onDev fun d => d.commitEnd v took) := by
  change execSvnCommitDone took s = _
  simp only [execSvnCommitDone, State.upd, State.onDev, h, Dev.commitEnd]

theorem Dev.boot_commitEnd (d : Dev) (v : Nat) (took : Word × Word) :
    (d.commitEnd v took).boot = { d.boot with commit := none, fuse := d.boot.fuse.program v took.1 took.2 } := by
  rw [Dev.commitEnd, Dev.boot_bootDom, Dev.setF_boot, Dev.showCount, Dev.setF_boot]
  split
  · rfl
  · rw [Dev.setF_boot]

theorem svn_key_ne : R.SEC_SVN.key 0 0 ≠ R.PCH_DOM_STATE.key 0 (domBoot / 16) := by
  simp only [Reg.key, R.SEC_SVN, R.PCH_DOM_STATE, domBoot]
  omega

theorem Dev.svnBusy_commitEnd (d : Dev) (v : Nat) (took : Word × Word) : (d.commitEnd v took).flag F.SEC_SVN_BUSY 0 = false := by
  rw [Dev.flag, Dev.commitEnd, Dev.fld_bootDom _ F.SEC_SVN_BUSY 0 0 svn_key_ne,
    Dev.fld_setF_self_of_lt (f := F.SEC_SVN_BUSY) (v := 0) (by decide) (by decide)]
  rfl

/-- COMMIT_ERR is set where a bank lacks a bit of the code. -/
theorem Dev.svnErr_commitEnd (d : Dev) (v : Nat) (took : Word × Word)
    (h : (d.boot.fuse.svnA ||| took.1) &&& thermo v ≠ thermo v ∨ (d.boot.fuse.svnB ||| took.2) &&& thermo v ≠ thermo v) :
    (d.commitEnd v took).flag F.SEC_SVN_COMMIT_ERR 0 = true := by
  have hbad : (decide ((d.boot.fuse.program v took.1 took.2).svnA &&& thermo v = thermo v) &&
      decide ((d.boot.fuse.program v took.1 took.2).svnB &&& thermo v = thermo v)) = false := by
    simpa only [FuseS.program, bank_lacks, Bool.and_eq_false_iff, decide_eq_false_iff_not] using h
  rw [Dev.flag, Dev.commitEnd, Dev.fld_bootDom _ F.SEC_SVN_COMMIT_ERR 0 0 svn_key_ne]
  simp only [hbad, Bool.false_eq_true, if_false]
  rw [Dev.fld_setF_apart (f := F.SEC_SVN_BUSY) (g := F.SEC_SVN_COMMIT_ERR) rfl (by decide) (by decide), Dev.showCount,
    Dev.fld_setF_apart (f := F.SEC_SVN_FUSED) (g := F.SEC_SVN_COMMIT_ERR) rfl (by decide) (by decide),
    Dev.fld_setF_self_of_lt (f := F.SEC_SVN_COMMIT_ERR) (v := 1) (by decide) (by decide)]
  rfl

/-! Attestation. -/

theorem exec_attGo {s : State} (h : s.dev.boot.report = none) :
    exec .attGo s = .next (s.onDev fun d =>
      if 0x100000 ≤ s.dev.fld F.SEC_ATT_CTRL_DEST 0 && s.dev.fld F.SEC_ATT_CTRL_DEST 0 + 2596 ≤ 0x800000 &&
          s.dev.fld F.SEC_ATT_CTRL_DEST 0 % 64 = 0 then
        (({ d with boot := { d.boot with
            report := some (d.ntAt bSEC 0, (List.range 4).map (fun i => (d.getR R.SEC_ATT_NONCE 0 i).toNat),
              s.dev.fld F.SEC_ATT_CTRL_DEST 0) } } : Dev).setF F.SEC_ATT_CTRL_BUSY 0 1).bootDom
      else d.setF F.SEC_ATT_CTRL_ERR 0 1) := by
  change execAttGo s = _
  simp only [execAttGo, State.upd, State.onDev, Dev.attGo, h, Option.isSome_none, Bool.false_eq_true, if_false]

/-- The bytes of a report: its body and the signature. -/
def Dev.attBytes (d : Dev) (nonce : List Nat) (sig : List Byte) : List Byte :=
  takeZ 176 (d.attBody nonce) ++ takeZ 2420 (sig.take 2420)

theorem Dev.length_attBytes (d : Dev) (nonce : List Nat) (sig : List Byte) : (d.attBytes nonce sig).length = 2596 := by
  rw [Dev.attBytes, List.length_append, length_takeZ, length_takeZ]

/-- The device once the report stands at `dest`. -/
def Dev.attEnd (d : Dev) (nonce : List Nat) (dest : Nat) (sig : List Byte) : Dev :=
  let d := d.putJ dest (d.attBytes nonce sig)
  let d : Dev := { d with boot := { d.boot with report := none } }
  ((d.setF F.SEC_ATT_CTRL_BUSY 0 0).setF F.SEC_ATT_CTRL_DONE 0 1).bootDom

theorem exec_attReportDone {s : State} {nt dest : Nat} {nonce : List Nat} (h : s.dev.boot.report = some (nt, nonce, dest))
    (sig : List Byte) : exec (.attReportDone sig) s = .next (s.onDev fun d => d.attEnd nonce dest sig) := by
  change execAttReportDone sig s = _
  simp only [execAttReportDone, State.upd, State.onDev, h, Dev.attEnd, Dev.attBytes]

theorem Dev.jmem_attEnd (d : Dev) (nonce : List Nat) (dest : Nat) (sig : List Byte) :
    (d.attEnd nonce dest sig).jmem = pokeN d.jmem dest (d.attBytes nonce sig) := by
  rw [Dev.attEnd, Dev.jmem_bootDom, Dev.setF_jmem, Dev.setF_jmem, Dev.putJ]

theorem Dev.report_attEnd (d : Dev) (nonce : List Nat) (dest : Nat) (sig : List Byte) : (d.attEnd nonce dest sig).boot.report = none := by
  rw [Dev.attEnd, Dev.boot_bootDom, Dev.setF_boot, Dev.setF_boot]

theorem att_key_ne : R.SEC_ATT_CTRL.key 0 0 ≠ R.PCH_DOM_STATE.key 0 (domBoot / 16) := by
  simp only [Reg.key, R.SEC_ATT_CTRL, R.PCH_DOM_STATE, domBoot]
  omega

theorem Dev.attDone_attEnd (d : Dev) (nonce : List Nat) (dest : Nat) (sig : List Byte) :
    (d.attEnd nonce dest sig).flag F.SEC_ATT_CTRL_DONE 0 = true := by
  rw [Dev.flag, Dev.attEnd, Dev.fld_bootDom _ F.SEC_ATT_CTRL_DONE 0 0 att_key_ne,
    Dev.fld_setF_self_of_lt (f := F.SEC_ATT_CTRL_DONE) (v := 1) (by decide) (by decide)]
  rfl

theorem Dev.attBusy_attEnd (d : Dev) (nonce : List Nat) (dest : Nat) (sig : List Byte) :
    (d.attEnd nonce dest sig).flag F.SEC_ATT_CTRL_BUSY 0 = false := by
  rw [Dev.flag, Dev.attEnd, Dev.fld_bootDom _ F.SEC_ATT_CTRL_BUSY 0 0 att_key_ne,
    Dev.fld_setF_apart (f := F.SEC_ATT_CTRL_DONE) (g := F.SEC_ATT_CTRL_BUSY) rfl (by decide) (by decide),
    Dev.fld_setF_self_of_lt (f := F.SEC_ATT_CTRL_BUSY) (v := 0) (by decide) (by decide)]
  rfl

/-- The first bytes of a run that was written read back. -/
theorem peekN_pokeN_append (m : List Host.Cell) (a : Nat) (xs ys : List Byte) : peekN (pokeN m a (xs ++ ys)) a xs.length = xs := by
  induction xs generalizing m a with
  | nil => rfl
  | cons b xs ih =>
    have hout : ¬ (a + 1 ≤ a ∧ a < a + 1 + (xs ++ ys).length) := by omega
    have hhead : peek (pokeN (poke m a b) (a + 1) (xs ++ ys)) a = b := by
      rw [peek_pokeN, dif_neg hout, peek, poke, sget_sset, if_pos rfl]
    rw [List.cons_append, pokeN, List.length_cons, peekN, hhead, ih]

theorem Dev.peek_attEnd_of_outside (d : Dev) (nonce : List Nat) {dest x : Nat} (sig : List Byte) (hx : x < dest ∨ dest + 2596 ≤ x) :
    peek (d.attEnd nonce dest sig).jmem x = peek d.jmem x := by
  have hout : ¬ (dest ≤ x ∧ x < dest + (d.attBytes nonce sig).length) := by
    rw [Dev.length_attBytes]
    omega
  rw [Dev.jmem_attEnd, peek_pokeN, dif_neg hout]

theorem Dev.getJ_attEnd (d : Dev) (nonce : List Nat) (dest : Nat) (sig : List Byte) :
    (d.attEnd nonce dest sig).getJ dest 176 = takeZ 176 (d.attBody nonce) := by
  have hread := peekN_pokeN_append d.jmem dest (takeZ 176 (d.attBody nonce)) (takeZ 2420 (sig.take 2420))
  rw [length_takeZ] at hread
  rw [Dev.getJ, Dev.jmem_attEnd, Dev.attBytes, hread]

/-- The end of a commit, as the statement gives it. -/
theorem svnCommitDone_effect {s : State} {v : Nat} (h : s.dev.boot.commit = some v) (took : Word × Word) :
    let f := s.dev.boot.fuse
    ∃ t, exec (.svnCommitDone took) s = .next t ∧ t.MemKept s ∧ t.dev.boot.commit = none ∧ t.dev.flag F.SEC_SVN_BUSY 0 = false ∧
      t.dev.boot.fuse = { f with svnA := f.svnA ||| (thermo v &&& took.1), svnB := f.svnB ||| (thermo v &&& took.2) } ∧
      f.count ≤ t.dev.boot.fuse.count ∧
      (f.svnA ||| f.svnB = thermo f.count → t.dev.boot.fuse.count ≤ max f.count (min 64 v) ∧
        (took.1 = BitVec.allOnes 64 → t.dev.boot.fuse.count = max f.count (min 64 v))) ∧
      ((f.svnA ||| took.1) &&& thermo v ≠ thermo v ∨ (f.svnB ||| took.2) &&& thermo v ≠ thermo v →
        t.dev.flag F.SEC_SVN_COMMIT_ERR 0 = true) := by
  intro f
  have hfuse : (s.dev.commitEnd v took).boot.fuse = f.program v took.1 took.2 := by rw [Dev.boot_commitEnd]
  refine ⟨_, exec_svnCommitDone h took, ⟨rfl, rfl, rfl, rfl⟩, ?_⟩
  rw [State.onDev_dev, hfuse]
  refine ⟨by rw [Dev.boot_commitEnd], Dev.svnBusy_commitEnd .., rfl, FuseS.count_le_program .., fun hcode => ?_,
    s.dev.svnErr_commitEnd v took⟩
  refine ⟨FuseS.count_program_le hcode .., fun htook => Nat.le_antisymm (FuseS.count_program_le hcode ..) ?_⟩
  rw [htook]
  exact f.le_count_program v took.2

/-- The end of a report, as the statement gives it. -/
theorem attReportDone_effect {s : State} {nt dest : Nat} {nonce : List Nat} (h : s.dev.boot.report = some (nt, nonce, dest))
    (sig : List Byte) :
    ∃ t, exec (.attReportDone sig) s = .next t ∧ t.MemKept s ∧
      (∀ x, x < dest ∨ dest + 2596 ≤ x → peek t.dev.jmem x = peek s.dev.jmem x) ∧
      (t.dev.getJ dest 176 = takeZ 176 (s.dev.attBody nonce)) ∧
      t.dev.boot.report = none ∧ t.dev.flag F.SEC_ATT_CTRL_DONE 0 = true ∧ t.dev.flag F.SEC_ATT_CTRL_BUSY 0 = false :=
  ⟨_, exec_attReportDone h sig, ⟨rfl, rfl, rfl, rfl⟩, fun _ hx => s.dev.peek_attEnd_of_outside nonce sig hx,
    s.dev.getJ_attEnd nonce dest sig, s.dev.report_attEnd nonce dest sig, s.dev.attDone_attEnd nonce dest sig,
    s.dev.attBusy_attEnd nonce dest sig⟩

/-- Settles O25. A flash operation that ends acts on its sector alone, the thermometer codes of a commit hold one another, and
a report is one run of bytes. -/
theorem bootDomainCommandsTakeEffect : Obligations.BootDomainCommandsTakeEffect := by
  unfold Obligations.BootDomainCommandsTakeEffect
  refine ⟨?_, fun _ _ _ h => nvmOpDone_program h, fun _ _ _ h => nvmOpDone_read h, fun _ _ _ h hwf => nvmOpDone_erase h hwf,
    fun _ h => exec_nvmTimeout h, ?_⟩
  · intro s dev addr op e t
    refine ⟨?_, ?_, ?_⟩ <;> (rintro rfl; rfl)
  · intro s d
    exact ⟨exec_commit, fun v took h => svnCommitDone_effect h took, exec_attGo,
      fun nt nonce dest sig h => attReportDone_effect h sig⟩

end Sys2Proof.Machine
end
